-- ==== Sys2Proof/Word.lean ====
section
/-! DEFINITION. The words of the device and the sparse table that holds what is mostly at its default value. -/

namespace Sys2Proof

/-- A byte. -/
abbrev Byte := BitVec 8

/-- A 64-bit register word or hall address (00_scope, "Registers and access types"). -/
abbrev Word := BitVec 64

/-- A table keyed by a number: pairs with strictly rising keys, and no pair whose value is the table's default.
The operations that keep this form are in Machine/Store.lean. -/
abbrev SMap (α : Type) := List (Nat × α)

end Sys2Proof
end

