-- ==== Sys2Proof/Syntax.lean ====
section
/-! DEFINITION. The commands of the block: one constructor per row of spec/opcode_table.json, with the row's operands.
A time operand is the hall time at which the occurrence falls. -/

namespace Sys2Proof

/-- Region index: 0-7 for H0-H7, 8-15 for E0-E7 (R2, Table 0.3). -/
abbrev Region := Fin 16

/-- Causeway link index: XP 0, XN 1, YP 2, YN 3, ZP 4, ZN 5 (Table 0.3). -/
abbrev Link := Fin 6

/-- HBM stack index: 0-1 on Headland, 2-7 on Estuary (Table 0.3). -/
abbrev Stack := Fin 8

/-- Die: 0 Headland, 1 Estuary. -/
abbrev Die := Fin 2

/-- Hall time in units of 62.5 ps. -/
abbrev Time := BitVec 64

/-- A word or memory group struck by bit errors: word index (byte offset / 8) and how many bits are newly wrong
(R154, R155, R170). Errors enter the block with the command that meets them. -/
structure Upset where
  cell : Fin 32
  word : BitVec 19
  bits : Nat
  deriving DecidableEq, Repr

/-- Header fields pred and pred_inv of a control word (Table 3.1). -/
structure Gov where
  pred : BitVec 4
  inv : Bool
  deriving DecidableEq, Repr

/-- Array slot (Table 3.4). -/
inductive ArrSlot where
  | clear (acc : BitVec 2) (win : BitVec 8)
  | mac (xport : BitVec 2) (acc : BitVec 2)
  | wload (sparse : Bool) (handle : BitVec 16)
  | wswap
  | drain (acc gen : BitVec 2) (handle : BitVec 16)
  deriving DecidableEq, Repr

/-- Vector operations (Table 3.6). -/
inductive VecOp where
  | add | sub | mul | fma | max | min
  | exp2 | log2 | rcp | rsqrt
  | cvt | ld | st | rdacc
  | cmp | topk | sample | reduce
  deriving DecidableEq, Repr

/-- Vector slot (Table 3.5). -/
structure VecSlot where
  op : VecOp
  bf16 : Bool
  vd : BitVec 5
  va : BitVec 5
  vb : BitVec 5
  vc : BitVec 5
  mod : BitVec 5
  arg : BitVec 16
  deriving DecidableEq, Repr

/-- Address-generator slot (Table 3.7). -/
inductive GenSlot where
  | start (handle : BitVec 16)
  | step (n : BitVec 24)
  | setpos (n : BitVec 24)
  deriving DecidableEq, Repr

/-- Crossbar slot (Table 3.8). -/
structure XbarSlot where
  scatter : Bool
  gen : BitVec 2
  unit : BitVec 4
  mask : BitVec 8
  deriving DecidableEq, Repr

/-- Transfer slot (Table 3.9). -/
inductive XferSlot where
  | csend (cell : BitVec 3) (handle : BitVec 16)
  | bsend (block : BitVec 2) (cell : BitVec 3) (handle : BitVec 16)
  | xsend (channel : BitVec 3)
  | xrecv (source : BitVec 4) (channel : BitVec 3) (handle : BitVec 16)
  | lsend (link : BitVec 3) (index : BitVec 16) (stream : BitVec 8) (handle : BitVec 16)
  | land (id : BitVec 8)
  | lread (id : BitVec 8) (handle : BitVec 16)
  deriving DecidableEq, Repr

/-- Loop and branch slot (Table 3.10). -/
inductive LoopSlot where
  | loopf (last : BitVec 21) (count : BitVec 20)
  | loopb (src : Bool) (last : BitVec 21) (n : BitVec 4) (ceiling : BitVec 16)
  | jmp (target : BitVec 21)
  | done
  deriving DecidableEq, Repr

/-- Descriptor slot (Table 3.11). -/
inductive DescSlot where
  | dload (gen : BitVec 2) (handle : BitVec 16)
  | dbase (gen : BitVec 2) (handle : BitVec 16)
  | cntsrc (dim : BitVec 3) (handle : BitVec 16)
  | cntld (dim : BitVec 3) (n : BitVec 4) (handle : BitVec 16)
  | cntset (value : BitVec 24) (n : BitVec 4)
  deriving DecidableEq, Repr

/-- Predicate slot (Table 3.12). -/
inductive PredSlot where
  | pcix (pd : BitVec 4) (select : BitVec 2) (cmp : BitVec 3) (imm : BitVec 24)
  | plog (pd pa pb : BitVec 4) (op : BitVec 2)
  | pvec (pd : BitVec 4) (reg : BitVec 5) (lane : BitVec 7)
  | pcnt (pd n : BitVec 4) (imm : BitVec 24)
  deriving DecidableEq, Repr

/-- One slot of a control word with the unit it acts on (Table 3.2). -/
inductive Slot where
  | arr (i : Fin 8) (s : ArrSlot)
  | vec (p : Fin 2) (s : VecSlot)
  | gen (i : Fin 4) (s : GenSlot)
  | xbar (p : Fin 2) (s : XbarSlot)
  | xfer (p : Fin 2) (s : XferSlot)
  | loop (s : LoopSlot)
  | desc (s : DescSlot)
  | pred (s : PredSlot)
  deriving DecidableEq, Repr

/-- A control word (R65, R66): header fields repeat, pred and pred_inv, and the slots present. -/
structure CWord where
  rep : BitVec 12
  gov : Gov
  slots : List Slot
  deriving DecidableEq, Repr

/-- A 32-byte half of an HBM access struck by symbol errors: die address in it, and how many of its code symbols are
newly wrong (R170). Errors enter the block with the command that meets them. -/
structure HbmUpset where
  die : Die
  addr : BitVec 39
  symbols : Nat
  deriving DecidableEq, Repr

/-- A drift packet: its routing header (Table 11.2) and its data. -/
structure Packet where
  dest : BitVec 20
  src : BitVec 20
  x : BitVec 5
  y : BitVec 5
  z : BitVec 5
  vc : BitVec 2
  detoured : Bool
  turned : Bool
  opcode : BitVec 8
  status : BitVec 8
  tag : BitVec 12
  gen : BitVec 4
  words : BitVec 7
  addr : Word
  data : List Byte
  deriving DecidableEq, Repr

/-- The header fields that every Causeway flit carries (Table 10.2), with the credit total of bytes 6-7. -/
structure FlitHead where
  beacon : BitVec 4
  ackValid : Bool
  resent : Bool
  creditValid : Bool
  creditVc : BitVec 2
  seq : BitVec 16
  ack : BitVec 16
  credit : BitVec 16
  deriving DecidableEq, Repr

/-- The four VC totals of an ACK or CREDIT_SYNC flit (Table 10.3). -/
structure VcTotals where
  freed : List (BitVec 16)
  received : List (BitVec 16)
  deriving DecidableEq, Repr


/-- An Isthmus lane that a retrain repaired (R276): module, lane, and whether it runs toward Estuary. -/
structure LaneRepair where
  module : Fin 8
  lane : BitVec 8
  toEstuary : Bool
  deriving DecidableEq, Repr

/-- An Isthmus flit that fails its CRC (R275): its direction, its UCIe sequence number, and when. -/
structure IstFlit where
  toEstuary : Bool
  seq : BitVec 8
  t : Time
  deriving DecidableEq, Repr

/-- The times of a sideband frame (R280): the low 32 bits of the sender's hall time at the launch edge, how far Headland's
copy moved against Estuary's time since the last good frame, and the delay that a training measures. -/
structure SideTime where
  sent : BitVec 32
  drift : BitVec 16
  delay : BitVec 16
  deriving DecidableEq, Repr

/-- A change of an arbiter's mask (R344): the requester, and whether it is masked from now on. -/
structure MaskChange where
  requester : Fin 16
  masked : Bool
  deriving DecidableEq, Repr

/-- What a PTP message carries that a port checks (R360): grandmaster, domain, sequence id, correction field in
2^-16 ns. -/
structure PtpHead where
  /-- Over UDP/IPv4, else over Ethernet (R360). -/
  udp : Bool
  gm : Word
  domain : BitVec 8
  seq : BitVec 16
  correction : Word
  deriving DecidableEq, Repr

/-- A PTP timestamp. -/
structure PtpTime where
  seconds : BitVec 48
  nanos : BitVec 32
  deriving DecidableEq, Repr



/-- What a CXL.cache request is for (R408): a slow-tier buffer of a model, or a KV page staged or spilled. -/
inductive CxlUse where
  | slowTier (m : BitVec 7)
  | kvStage (slot : BitVec 8) (page : BitVec 24)
  | kvSpill (slot : BitVec 8) (page : BitVec 24)
  deriving DecidableEq, Repr

/-- A frame that a Quay port discards (R415). -/
inductive BadFrame where
  | fcs | icrc | other
  deriving DecidableEq, Repr


/-- Who reads or writes a register (R508, R524): the host through BAR0 or BAR2, the Keeper, or drift from a device. -/
inductive RegSource where
  | bar0 | bar2 | keeper | drift (device : BitVec 20)
  deriving DecidableEq, Repr

/-- What a register write carries (R509, R520): all 64 bits, or the low or high 32. -/
inductive RegPart where
  | full | low | high
  deriving DecidableEq, Repr

/-- The commands (opcode_table.json), in the table's families. -/
inductive Instr where
  -- Device Organisation
  | devFuncModeWrite (value : BitVec 10)
  | modeChangeEffect (fn : Fin 10)
  | keeperAccess (addr : Word)
  | keeperRestartDone
  | absentEngineAccess (offset : BitVec 25) (write : Bool)
  -- Tides
  | tideMark (t : Time)
  | regionWake (r : Region) (t : Time)
  | tideStart (t : Time)
  | planTick (r : Region) (t : Time) (upsets : List Upset)
  | tideEnd (t : Time)
  | holdTick (r : Region) (t : Time) (upsets : List Upset)
  | crossingArrival (source : Region) (channel : Fin 8)
  | landingGraceExpiry (r : Region) (t : Time)
  | tideDeadlineExpiry (t : Time)
  | holdLimitExpiry (r : Region) (t : Time)
  | armedStart (t : Time)
  | tideConfigWrite (origin : Bool) (value : Word)
  | tideCtlWrite (value : Word)
  | counterClear (offset : BitVec 25)
  | seqLoopCountWrite (r : Region) (n : Fin 16) (value : BitVec 32)
  -- Control-word slots, each as a word of one slot executed by region r
  | clear (r : Region) (g : Gov) (arr : Fin 8) (acc : BitVec 2) (win : BitVec 8)
  | mac (r : Region) (g : Gov) (arr : Fin 8) (xport : BitVec 2) (acc : BitVec 2)
  | wload (r : Region) (g : Gov) (arr : Fin 8) (sparse : Bool) (handle : BitVec 16)
  | wswap (r : Region) (g : Gov) (arr : Fin 8)
  | drain (r : Region) (g : Gov) (arr : Fin 8) (acc gen : BitVec 2) (handle : BitVec 16)
  | add (r : Region) (g : Gov) (port : Fin 2) (bf16 : Bool) (vd va vb : BitVec 5)
  | sub (r : Region) (g : Gov) (port : Fin 2) (bf16 : Bool) (vd va vb : BitVec 5)
  | mul (r : Region) (g : Gov) (port : Fin 2) (bf16 : Bool) (vd va vb : BitVec 5)
  | fma (r : Region) (g : Gov) (port : Fin 2) (bf16 : Bool) (vd va vb vc : BitVec 5)
  | max (r : Region) (g : Gov) (port : Fin 2) (bf16 : Bool) (vd va vb : BitVec 5)
  | min (r : Region) (g : Gov) (port : Fin 2) (bf16 : Bool) (vd va vb : BitVec 5)
  | exp2 (r : Region) (g : Gov) (port : Fin 2) (bf16 : Bool) (vd va : BitVec 5)
  | log2 (r : Region) (g : Gov) (port : Fin 2) (bf16 : Bool) (vd va : BitVec 5)
  | rcp (r : Region) (g : Gov) (port : Fin 2) (bf16 : Bool) (vd va : BitVec 5)
  | rsqrt (r : Region) (g : Gov) (port : Fin 2) (bf16 : Bool) (vd va : BitVec 5)
  | cvt (r : Region) (g : Gov) (port : Fin 2) (bf16 : Bool) (vd va : BitVec 5) (target : BitVec 5)
  | ld (r : Region) (g : Gov) (port : Fin 2) (bf16 : Bool) (vd : BitVec 5) (xport : BitVec 16)
  | st (r : Region) (g : Gov) (port : Fin 2) (bf16 : Bool) (va : BitVec 5) (gen : BitVec 5) (handle : BitVec 16)
  | rdacc (r : Region) (g : Gov) (port : Fin 2) (bf16 : Bool) (vd : BitVec 5) (groupAcc : BitVec 5)
  | cmp (r : Region) (g : Gov) (port : Fin 2) (bf16 : Bool) (vd va vb : BitVec 5) (cond : BitVec 5)
  | topk (r : Region) (g : Gov) (port : Fin 2) (bf16 : Bool) (vd va vb : BitVec 5) (k : BitVec 5)
  | sample (r : Region) (g : Gov) (port : Fin 2) (bf16 : Bool) (vd va vb vc : BitVec 5) (handle : BitVec 16)
  | reduce (r : Region) (g : Gov) (port : Fin 2) (bf16 : Bool) (vd va : BitVec 5) (op : BitVec 5)
  | start (r : Region) (g : Gov) (gen : Fin 4) (handle : BitVec 16)
  | step (r : Region) (g : Gov) (gen : Fin 4) (n : BitVec 24)
  | setpos (r : Region) (g : Gov) (gen : Fin 4) (n : BitVec 24)
  | gather (r : Region) (g : Gov) (port : Fin 2) (gen : BitVec 2) (unit : BitVec 4) (mask : BitVec 8)
  | scatter (r : Region) (g : Gov) (port : Fin 2) (gen : BitVec 2) (unit : BitVec 4) (mask : BitVec 8)
  | csend (r : Region) (g : Gov) (port : Fin 2) (cell : BitVec 3) (handle : BitVec 16)
  | bsend (r : Region) (g : Gov) (port : Fin 2) (block : BitVec 2) (cell : BitVec 3) (handle : BitVec 16)
  | xsend (r : Region) (g : Gov) (port : Fin 2) (channel : BitVec 3)
  | xrecv (r : Region) (g : Gov) (port : Fin 2) (source : BitVec 4) (channel : BitVec 3) (handle : BitVec 16)
  | lsend (r : Region) (g : Gov) (port : Fin 2) (link : BitVec 3) (index : BitVec 16) (stream : BitVec 8)
      (handle : BitVec 16)
  | land (r : Region) (g : Gov) (port : Fin 2) (id : BitVec 8)
  | lread (r : Region) (g : Gov) (port : Fin 2) (id : BitVec 8) (handle : BitVec 16)
  | loopf (r : Region) (g : Gov) (last : BitVec 21) (count : BitVec 20)
  | loopb (r : Region) (g : Gov) (src : Bool) (last : BitVec 21) (n : BitVec 4) (ceiling : BitVec 16)
  | jmp (r : Region) (g : Gov) (target : BitVec 21)
  | planEnd (r : Region) (g : Gov)
  | dload (r : Region) (g : Gov) (gen : BitVec 2) (handle : BitVec 16)
  | dbase (r : Region) (g : Gov) (gen : BitVec 2) (handle : BitVec 16)
  | cntsrc (r : Region) (g : Gov) (dim : BitVec 3) (handle : BitVec 16)
  | cntld (r : Region) (g : Gov) (dim : BitVec 3) (n : BitVec 4) (handle : BitVec 16)
  | cntset (r : Region) (g : Gov) (value : BitVec 24) (n : BitVec 4)
  | pcix (r : Region) (g : Gov) (pd : BitVec 4) (select : BitVec 2) (cmp : BitVec 3) (imm : BitVec 24)
  | plog (r : Region) (g : Gov) (pd pa pb : BitVec 4) (op : BitVec 2)
  | pvec (r : Region) (g : Gov) (pd : BitVec 4) (reg : BitVec 5) (lane : BitVec 7)
  | pcnt (r : Region) (g : Gov) (pd n : BitVec 4) (imm : BitVec 24)
  -- Deliveries of the plan pipelines
  | macContribution (r : Region)
  | wloadComplete (r : Region)
  | vectorResult (r : Region)
  | stWrite (r : Region)
  | transferDelivery (r : Region)
  | ringPageFill (r : Region)
  | slipPeriod (r : Region) (t : Time)
  | spPatrolScrub (r : Region) (upsets : List Upset)
  | segClassWrite (r : Region) (cell : Fin 32) (value : Word)
  | segReinitDone (r : Region) (cell : Fin 32) (segment : Fin 64)
  | harbourWrite (r : Region) (cell : Fin 32) (window : Fin 8) (value : Word) (bar2 : Bool)
  -- HBM (06)
  | hbmPatrolScrub (s : Stack) (addr : BitVec 39) (len : BitVec 39) (upsets : List HbmUpset)
  | hbmReadArrival (r : Region) (id : BitVec 8) (upsets : List HbmUpset)
  | hbmWriteAccept (r : Region) (id : BitVec 8) (cell : Fin 32) (off : BitVec 22)
  | hbAreaWrite (die : Die) (area : Fin 8) (value : Word)
  -- The Ferry (06): `own` names a command that the Ferry issued itself, in place of the ring's next
  | ferryRingTailWrite (value : Word)
  | fetch (own : Bool) (t : Time)
  | push (t : Time)
  | recv (own : Bool) (t : Time)
  | mirror (own : Bool) (t : Time)
  | evict (t : Time)
  | rehash (own : Bool) (t : Time)
  | ferryFormat (t : Time)
  | ferryBlockReceived (run : Fin 8)
  | ferryCommandDone (run : Fin 8) (sourceLost relayLost badCopy : Bool) (t : Time)
  | ferryHostWaitExpiry (m : BitVec 7) (t : Time)
  | modelRegister (m : BitVec 7)
  | modelLoad (m : BitVec 7) (t : Time)
  | modelUnregister (m : BitVec 7)
  | evictionDone (m : BitVec 7)
  | rehashIntervalExpiry (t : Time)
  | slowTierFillDone (m : BitVec 7) (shards : List (List Byte))
  -- Serving (07, 08)
  | stepBoundary (t : Time)
  | svcPlanWrite (p : Fin 16) (word : Fin 3) (value : Word)
  | admitAccept (ring : Fin 16)
  | admitReject (ring : Fin 16)
  | admitHostWaitExpiry (ring : Fin 16) (t : Time)
  | handoffCopyDone (slot : BitVec 8) (page : BitVec 24)
  | kvSpillDone (slot : BitVec 8) (page : BitVec 24)
  | kvStageDone (slot : BitVec 8) (page : BitVec 24) (data : List Byte)
  | stepLost (t : Time)
  | budgetAdjust (customer : BitVec 12) (delta : BitVec 48)
  | refillPeriodExpiry (t : Time)
  | svcOutEnableWrite (ring : Fin 16) (value : Word)
  | meterFeedStallExpiry (t : Time)
  -- The Isthmus (09)
  | istEntryArrival (toEstuary : Bool) (t : Time)
  | istCrcFail (flit : IstFlit)
  | istRetrainDone (up : BitVec 8) (repaired : List LaneRepair) (t : Time)
  | sidebandFrame (toEstuary crcOk : Bool) (seq : BitVec 16) (times : SideTime) (t : Time)
  -- Causeway links (10): flits received, flits sent, lanes, lock, training
  | ackFlit (l : Link) (h : FlitHead) (totals : VcTotals) (t : Time)
  | planFlit (l : Link) (h : FlitHead) (tide : BitVec 16) (stream : BitVec 8) (index : BitVec 16) (data : BitVec 1920)
      (t : Time)
  | driftFlit (l : Link) (h : FlitHead) (vc : BitVec 2) (first last : Bool) (data : BitVec 1920) (t : Time)
  | nakFlit (l : Link) (h : FlitHead) (expected : BitVec 16) (t : Time)
  | laneFlit (l : Link) (h : FlitHead) (lane : Fin 9) (action : BitVec 2) (t : Time)
  | creditSyncFlit (l : Link) (h : FlitHead) (mark : BitVec 32) (totals : VcTotals) (t : Time)
  | timeFlit (l : Link) (h : FlitHead) (data : List Byte) (arrival : Time) (t : Time)
  | initFlit (l : Link) (device : BitVec 20) (link : BitVec 3) (data : List Byte) (t : Time)
  | flitCrcFail (l : Link) (t : Time)
  | flitSlotSend (l : Link) (t : Time)
  | ackTimeout (l : Link) (t : Time)
  | ackIntervalExpiry (l : Link) (t : Time)
  | laneFail (l : Link) (lane : Fin 9) (symbols : BitVec 32) (t : Time)
  | laneReportRepeat (l : Link) (t : Time)
  | laneMapChange (l : Link) (transmit : Bool) (t : Time)
  | lockLost (l : Link) (codewords : BitVec 32) (t : Time)
  | lockRegained (l : Link) (t : Time)
  | downTimeExpiry (l : Link) (t : Time)
  | trainRetryExpiry (l : Link) (t : Time)
  | trainingDone (l : Link) (rxGood txGood : BitVec 9) (t : Time)
  | trainTimeout (l : Link) (t : Time)
  | dampExpiry (l : Link) (t : Time)
  | cwCmdTrain (l : Link) (t : Time)
  | cwCmdSpare (l : Link) (t : Time)
  | cwCmdDrop (l : Link) (lane : Fin 9) (t : Time)
  | cwCmdDown (l : Link) (t : Time)
  | cwHostWaitExpiry (l : Link) (t : Time)
  | fenceWrite (l : Link) (value : Word) (t : Time)
  -- Drift (11): packets at the target or back at the requester; `via` is the link a packet came in on
  | read (p : Packet) (t : Time)
  | write (p : Packet) (t : Time)
  | readResp (p : Packet) (t : Time)
  | writeAck (p : Packet) (t : Time)
  | bounce (p : Packet) (t : Time)
  | relay (p : Packet) (t : Time)
  | mgmtReq (p : Packet) (asks : Option (BitVec 7 × BitVec 32)) (t : Time)
  | mgmtResp (p : Packet) (t : Time)
  | driftForward (via : Link) (vc : BitVec 2) (transit : Bool) (t : Time)
  | driftReqTimeout (requester : BitVec 4) (tag : BitVec 12) (t : Time)
  | arbGrant (i : Fin 600) (requesting : BitVec 16)
  | arbStarveLimit (i : Fin 600) (q : Fin 16)
  | arbWithdraw (i : Fin 600) (q : Fin 16)
  | arbMask (i : Fin 600) (m : MaskChange)
  -- Hall time (12)
  | timeExchangeSend (t : Time)
  | servoUpdate (t : Time)
  | timeAdjWrite (value : Word) (t : Time)
  | timeHostWaitExpiry (t : Time)
  | timeParentWrite (value : Word)
  | timeLinkLoss (l : Link) (t : Time)
  | ptpSync (q : Fin 2) (m : PtpHead) (twoStep : Bool) (origin : PtpTime) (arrival : Time) (t : Time)
  | ptpFollowUp (q : Fin 2) (m : PtpHead) (origin : PtpTime) (t : Time)
  | ptpDelayResp (q : Fin 2) (m : PtpHead) (received : PtpTime) (t : Time)
  | ptpAnnounce (q : Fin 2) (m : PtpHead) (utcValid : Bool) (utcOffset : BitVec 16) (logInterval : BitVec 8) (t : Time)
  | ptpDelayReqSend (q : Fin 2) (t : Time)
  | ptpAnnounceTimeout (q : Fin 2) (t : Time)
  | ppsEdge (falling : Bool) (t : Time)
  | ppsLossTimeout (t : Time)
  | captureEdge (falling : Bool) (t : Time)
  | captureValueRead
  | pulseArm (p : Fin 4) (t : Time)
  | pulseFire (p : Fin 4) (t : Time)
  | calendarSync (t : Time)
  -- Placement, admission and launch (13)
  | admitPlan (t : Time)
  | admitComplete (isthmus : BitVec 5) (t : Time)
  | admitRelease
  | launchStart (tide : BitVec 48) (t : Time)
  | launchSend (index : BitVec 15) (t : Time)
  | launchRecord (p : Packet) (t : Time)
  | launchAck (p : Packet) (t : Time)
  | launchWaitExpiry (index : BitVec 15) (t : Time)
  | launchHostWaitExpiry (t : Time)
  -- Host port (15)
  | perst (t : Time)
  | hostLinkDown (t : Time)
  | hostLinkUp (wide fast : Bool) (t : Time)
  | hostMemWrite (addr : Word) (data : List Byte) (poisoned : Bool)
  | hostMemRead (addr : Word) (cached : Bool) (upsets : List HbmUpset)
  | biSnoopResponse (die : Die) (addr : BitVec 39) (dirty : Option (List Byte)) (t : Time)
  | cxlCacheCompletion (use : CxlUse) (off : BitVec 32) (lost : Bool) (data : List Byte)
  | doeDiscovery (mailbox : Fin 2) (index : BitVec 8)
  | cdatRead (entry : BitVec 16)
  | perstRelease (t : Time)
  | hdmDecoderCommit (n : Fin 4) (base : Word)
  -- Quay ports (15)
  | arpRequest (q : Fin 2) (target : BitVec 32) (mac : BitVec 48) (ip : BitVec 32)
  | roceReadResponse (target : Fin 64) (psn : BitVec 24) (marked : Bool) (data : List Byte) (t : Time)
  | roceAckTimeout (target : Fin 64) (t : Time)
  | pfcPause (q : Fin 2) (priority : BitVec 3) (quanta : BitVec 16) (t : Time)
  | quayTargetEnable (target : Fin 64) (value : Word) (t : Time)
  | quayTargetDisable (target : Fin 64) (value : Word)
  | quayLinkDown (q : Fin 2) (t : Time)
  | quayLinkUp (q : Fin 2) (t : Time)
  | fcsFailedFrame (q : Fin 2) (kind : BadFrame)
  -- Board sideband (15)
  | i3cRead (offset : BitVec 8) (count : BitVec 8)
  | i3cWrite (offset : BitVec 8) (data : List Byte)
  | setdasa (address dynamic : BitVec 7)
  | entdaa (dynamic : BitVec 7)
  | jtagBypass (tdi : List Bool)
  | jtagIdcode
  | samplePreload (pins tdi : List Bool)
  | extest (pins tdi : List Bool)
  | clamp (tdi : List Bool)
  | highz (tdi : List Bool)
  | jtagVendorPrivate (code : BitVec 8) (tdi : List Bool)
  -- Clocks, supplies and power (16)
  | pwrRailWrite (d : Die) (value : Word) (t : Time)
  | avsConfirm (d : Die) (t : Time)
  | avsFault (d : Die) (t : Time)
  | clkMonWindow (source : Fin 19) (ppm : BitVec 32) (t : Time)
  | clkNoEdgeTimeout (source : Fin 19) (t : Time)
  | clkRecheck (target : BitVec 5) (t : Time)
  | clkRelock (r : BitVec 5) (t : Time)
  | recheckComplete (source : Fin 19) (t : Time)
  | gateOn (value : Word)
  | gateOff (value : Word)
  | dfllStep (r : Region) (best : BitVec 10) (margin : BitVec 8) (t : Time)
  | droopStretch (r : Region) (mv : BitVec 10) (periods : BitVec 32) (t : Time)
  | pwrStretchWrite (value : Word)
  | thermalLimitExceeded (r : Region) (temp : BitVec 16) (t : Time)
  | thermalStep (r : Region) (temp : BitVec 16) (t : Time)
  | thermalTrip (r : Region) (temp : BitVec 16) (t : Time)
  | powerCapStep (power : BitVec 16) (t : Time)
  | neighbourCheck (temps : List (BitVec 16)) (volts : List (BitVec 10)) (t : Time)
  | dipBegin (d : Die) (mv : BitVec 10) (fell : Time) (t : Time)
  | dipEnd (d : Die) (low mv : BitVec 10) (t : Time)
  | supplyReset (d : Die) (mv : BitVec 10) (t : Time)
  | coreResetRelease (d : Die) (mv : BitVec 10) (t : Time)
  | pwrGoodLoss (t : Time)
  | pwrGoodAssert (t : Time)
  | pwrCmdPark (t : Time)
  | pwrCmdIdle (t : Time)
  | pwrCmdDormant (t : Time)
  | quiesceAssert (t : Time)
  | parkEntry (t : Time)
  | quiesceRelease (t : Time)
  | hbmSelfRefreshTimeout (s : Stack) (t : Time)
  | railBelow90Percent (t : Time)
  -- Boot, update and security (17)
  | getCerts
  | quote (nonce : List Byte)
  | debugUnlock (token : List Byte) (t : Time)
  | recoveryObject (offset : BitVec 32) (data : List Byte) (t : Time)
  | lhPowerOnReset (straps : BitVec 24)
  | boot (t : Time)
  | recoveryWaitExpiry (t : Time)
  | svnAdvance (component : BitVec 3)
  | updateStage (t : Time)
  | updateCheckDone (t : Time)
  | updateActivate (fails : Bool) (t : Time)
  | keeperReady (t : Time)
  | keeperReadyTimeout (t : Time)
  | keyInstall (value : Word)
  | keyClear (value : Word)
  | serviceWrite (region : Option Region) (value : Word)
  | stackRetrainDone (s : Stack) (t : Time)
  | configWriteDone (ok : Bool) (t : Time)
  -- The sealed meter (18)
  | feedCountRecord (flips : BitVec 192) (ackLost : Bool) (t : Time)
  | feedIdleFrame (flips : BitVec 192) (ackLost : Bool) (t : Time)
  | feedResendTimeout (t : Time)
  | feedIdleTimer (t : Time)
  | feedInterruption (t : Time)
  | energySample (shunts volts : List (BitVec 32))
  | meterTimebaseFail
  | meterTimebaseRestore
  | recordIntervalEnd (t : Time)
  | recordSigned (t : Time)
  | meterSupplyWarning (t : Time)
  | meterPowerRestore (t : Time)
  | sealOpen
  | sealClose
  | readRecord (number : Word)
  | readCustomerSnapshot (number : Word)
  | readLiveTotals (t : Time)
  | readCertificate
  | writeParameterSet (set : List Byte)
  | setMeterSeconds (value : Word) (t : Time)
  | mirrorRefresh (t : Time)
  | mirrorStaleTimeout (t : Time)
  -- Errors, events and the life log (19)
  | routerCrcFail (r : Region) (drift : Bool) (attempt : Fin 4) (t : Time)
  | resetCores (t : Time)
  | coalesceExpiry (vector : Fin 64) (t : Time)
  | evtRingBaseWrite (value : Word)
  | evtStatusClear (value : Word)
  | halfRead (requester : BitVec 22) (offset : BitVec 25)
  | lifeSummary (t : Time)
  | lifeMinute (temps : List (BitVec 16)) (t : Time)
  | lifeFlush (value : Word)
  | lifeWriteDone (ok : Bool) (t : Time)
  -- Registers (20)
  | registerWrite (src : RegSource) (offset : BitVec 25) (part : RegPart) (value : Word) (t : Time)
  | bar2Refused (offset : BitVec 25) (t : Time)
  | misalignedAccess (offset : BitVec 25) (size : BitVec 8) (t : Time)
  deriving DecidableEq, Repr

end Sys2Proof
end

