-- ==== Sys2Proof/Machine/Store.lean ====
section
/-! DEFINITION. The operations of sparse tables and of byte memory, and the bit-field helpers the rest of the
machine uses. A table keeps strictly rising keys and never lists its default value; an unlisted byte of memory
reads 0 (notes/assumptions/2.md). -/

namespace Sys2Proof.Machine

/-- The value of a table at a key, the default where the key is not listed. -/
def tget {α : Type} (dflt : α) : SMap α → Nat → α
  | [], _ => dflt
  | (i, x) :: m, k => if i = k then x else tget dflt m k

/-- The table with a key's value replaced, in canonical form. -/
def tput {α : Type} [DecidableEq α] (dflt : α) : SMap α → Nat → α → SMap α
  | [], k, v => if v = dflt then [] else [(k, v)]
  | (i, x) :: m, k, v =>
    if k < i then (if v = dflt then (i, x) :: m else (k, v) :: (i, x) :: m)
    else if i = k then (if v = dflt then m else (k, v) :: m)
    else (i, x) :: tput dflt m k v

/-- The keys of a table rise strictly from above a bound, and no value is the default. -/
def tableWfFrom {α : Type} [DecidableEq α] (dflt : α) : Option Nat → SMap α → Bool
  | _, [] => true
  | lo, (i, x) :: m =>
    (match lo with | none => true | some b => decide (b < i)) && decide (x ≠ dflt) && tableWfFrom dflt (some i) m

/-- The canonical form of a table. -/
def tableWf {α : Type} [DecidableEq α] (dflt : α) (m : SMap α) : Bool := tableWfFrom dflt none m

/-- The keys of a table rise strictly from above a bound. -/
def risingFrom {α : Type} : Option Nat → SMap α → Bool
  | _, [] => true
  | lo, (i, _) :: m => (match lo with | none => true | some b => decide (b < i)) && risingFrom (some i) m

/-- The keys of a table rise strictly. -/
def rising {α : Type} (m : SMap α) : Bool := risingFrom none m

/-- Read one byte of memory. -/
def mget (m : List Host.Cell) (a : Nat) : Byte := tget (0 : Byte) m a

/-- Write one byte of memory. -/
def mput (m : List Host.Cell) (a : Nat) (b : Byte) : List Host.Cell := tput (0 : Byte) m a b

/-- The canonical form of memory: addresses strictly rising, no entry that holds what an unlisted address reads as. -/
def Memory.wf (m : List Host.Cell) : Bool := tableWf (0 : Byte) m

/-- Read `n` bytes, lowest address first. -/
def mbytes (m : List Host.Cell) (a : Nat) : Nat → List Byte
  | 0 => []
  | n + 1 => mget m a :: mbytes m (a + 1) n

/-- Write bytes from an address upward. -/
def mwrite (m : List Host.Cell) (a : Nat) : List Byte → List Host.Cell
  | [] => m
  | b :: bs => mwrite (mput m a b) (a + 1) bs

/-- Bytes, lowest first, as a little-endian number. -/
def leNat : List Byte → Nat
  | [] => 0
  | b :: bs => b.toNat + 256 * leNat bs

/-- The `n` low bytes of a number, lowest first. -/
def leBytes : Nat → Nat → List Byte
  | 0, _ => []
  | n + 1, v => BitVec.ofNat 8 v :: leBytes n (v / 256)

/-- Read an `n`-byte little-endian number. -/
def mnum (m : List Host.Cell) (a n : Nat) : Nat := leNat (mbytes m a n)

/-- Write an `n`-byte little-endian number. -/
def mputn (m : List Host.Cell) (a n v : Nat) : List Host.Cell := mwrite m a (leBytes n v)

/-- Bits `[lo + w - 1 : lo]` of a number. -/
def bits (v lo w : Nat) : Nat := v / 2 ^ lo % 2 ^ w

/-- Bit `i` of a number. -/
def bit (v i : Nat) : Bool := v / 2 ^ i % 2 = 1

/-- A number with bit `i` set or cleared. -/
def setBit (v i : Nat) (b : Bool) : Nat := if bit v i = b then v else if b then v + 2 ^ i else v - 2 ^ i

/-- 1 for true. -/
def flag (b : Bool) : Nat := if b then 1 else 0

/-- A number of `w` bits read as two's complement. -/
def sext (w v : Nat) : Int := if v % 2 ^ w ≥ 2 ^ (w - 1) then (v % 2 ^ w : Int) - 2 ^ w else (v % 2 ^ w : Int)

/-- The `w`-bit two's complement code of an integer. -/
def wrap (w : Nat) (v : Int) : Nat := (v % (2 ^ w : Int)).toNat

/-- Number of ones among the low `w` bits. -/
def popCount (v : Nat) : Nat → Nat
  | 0 => 0
  | w + 1 => flag (bit v w) + popCount v w

/-- Insert into a sorted list, after the elements it does not precede. -/
def insertBy {α : Type} (le : α → α → Bool) (x : α) : List α → List α
  | [] => [x]
  | y :: l => if le y x then y :: insertBy le x l else x :: y :: l

/-- Sort a list by a total order; elements of equal order keep their places. -/
def sortBy {α : Type} (le : α → α → Bool) (l : List α) : List α := l.foldl (fun acc x => insertBy le x acc) []

/-- Smallest of a list of numbers. -/
def minOf : List Nat → Option Nat
  | [] => none
  | x :: l => match minOf l with
    | none => some x
    | some y => some (Nat.min x y)

/-- The lowest index below `w` whose bit is set. -/
def lowestBit (v w : Nat) : Option Nat := (List.range w).find? (fun i => bit v i)

end Sys2Proof.Machine
end

