-- ==== Sys2Proof/Machine/Keccak.lean ====
section
/-! DEFINITION. SHAKE256, which the spec names by FIPS 202 (R131, R180, R376); the permutation is PRESUMED from that
standard, with its round constants and rotations derived as the standard derives them, by a shift register and by a walk
over the lanes (notes/assumptions/7.md). A sponge is its 25 lanes, lane (x, y) at place x + 5y. -/

namespace Sys2Proof.Machine

/-- A step of the shift register that gives the bits of the round constants: x^8 + x^6 + x^5 + x^4 + 1. -/
def stirBit (reg : Nat) : Nat := if reg < 128 then 2 * reg else Nat.xor (2 * reg) 0x171

/-- Seven bits of the register, the j-th placed at bit 2^j - 1 of a round constant, and the register after them. -/
def stirWord (reg : Nat) : Nat × Nat :=
  [0, 1, 3, 7, 15, 31, 63].foldl (fun p place => (p.1 + p.2 % 2 * 2 ^ place, stirBit p.2)) (0, reg)

/-- A move of the lanes: where a lane comes from, where it goes, and how far it turns. -/
structure LaneMove where
  source : Nat
  target : Nat
  turn : Nat

/-- The walk over the 24 lanes that move: from (x, y), the first (1, 0), to (y, 2x + 3y), each turned by the next
triangular number. -/
def laneWalk : Nat → Nat → Nat → Nat → List LaneMove
  | 0, _, _, _ => []
  | left + 1, x, y, turn =>
    let y' := (2 * x + 3 * y) % 5
    ⟨x + 5 * y, y + 5 * y', turn % 64⟩ :: laneWalk left y y' (turn + 26 - left - 1)

/-- Every lane takes the parities of the column before it and, turned by one, of the column after it. -/
def mixColumns (lanes : List (BitVec 64)) : List (BitVec 64) :=
  let parity := fun x => ((List.range 25).filter (fun i => i % 5 = x % 5)).foldl (fun p i => p ^^^ lanes.getD i 0) 0#64
  lanes.zipIdx.map (fun p => p.1 ^^^ parity (p.2 + 4) ^^^ (parity (p.2 + 1)).rotateLeft 1)

/-- The lanes moved and turned along the walk; lane (0, 0) stays. -/
def moveLanes (lanes : List (BitVec 64)) : List (BitVec 64) :=
  (laneWalk 24 1 0 1).foldl (fun out m => out.set m.target ((lanes.getD m.source 0).rotateLeft m.turn)) lanes

/-- Every lane takes the next lane but one of its row where the next one is clear. -/
def mixRows (lanes : List (BitVec 64)) : List (BitVec 64) :=
  let along := fun i n => lanes.getD (i / 5 * 5 + (i + n) % 5) 0
  lanes.zipIdx.map (fun p => p.1 ^^^ (along p.2 2 &&& ~~~ along p.2 1))

/-- `n` rounds of the permutation, with the shift register as it stands. -/
def stirRounds : Nat → Nat → List (BitVec 64) → List (BitVec 64)
  | 0, _, lanes => lanes
  | n + 1, reg, lanes =>
    let (word, reg) := stirWord reg
    stirRounds n reg ((mixRows (moveLanes (mixColumns lanes))).modifyHead (· ^^^ BitVec.ofNat 64 word))

/-- A 136-byte block enters the sponge, which is then stirred for 24 rounds. -/
def soak (sponge : List (BitVec 64)) (block : List Byte) : List (BitVec 64) :=
  stirRounds 24 1 (sponge.zipIdx.map (fun p => p.1 ^^^ BitVec.ofNat 64 (leNat (mbytesOf block (8 * p.2)))))
where
  /-- Eight bytes of a block. -/
  mbytesOf (block : List Byte) (at0 : Nat) : List Byte := (block.drop at0).take 8

/-- What is left of a message, with SHAKE256's suffix and padding: 136 bytes. -/
def sealBlock (rest : List Byte) : List Byte :=
  let gap := 135 - rest.length
  rest ++ (if gap = 0 then [0x9F#8] else 0x1F#8 :: List.replicate (gap - 1) 0#8 ++ [0x80#8])

/-- A message of `whole` blocks and a rest soaks into the sponge. -/
def soakAll (whole : Nat) (msg : List Byte) : List (BitVec 64) :=
  soak ((List.range whole).foldl (fun s k => soak s ((msg.drop (136 * k)).take 136)) (List.replicate 25 0))
    (sealBlock (msg.drop (136 * whole)))

/-- The first `len` bytes of SHAKE256's output, at most 136. -/
def shake256 (msg : List Byte) (len : Nat) : List Byte :=
  ((soakAll (msg.length / 136) msg).flatMap (fun lane => leBytes 8 lane.toNat)).take len

/-- SHAKE256 with 256-bit output (R376, R178). -/
def shake256Digest (msg : List Byte) : List Byte := shake256 msg 32

end Sys2Proof.Machine
end

