-- ==== Sys2Proof/Machine/Events.lean ====
section
/-! DEFINITION. The events of the device: their severities (R9, Table 0.5a) and one constant per row of each
events table, with the code that R502 gives it (block code of Table 19.4 and position in the block's table). -/

namespace Sys2Proof.Machine

/-- Severity of an event (R9, Table 0.5a), in the numbering of Table 19.3. -/
inductive Sev where
  | note | warn | fault | fatal | nmi
  deriving DecidableEq, Repr

/-- Byte 10 of an event record (Table 19.3). -/
def Sev.num : Sev → Nat
  | .note => 0 | .warn => 1 | .fault => 2 | .fatal => 3 | .nmi => 4

/-- An event: block code (Table 19.4), row in the block's events table counted from 1 (R502), severity. -/
structure Ev where
  block : Nat
  row : Nat
  sev : Sev
  deriving DecidableEq, Repr

/-- The 16-bit code of an event record (R502): block code in bits 15:8, row in bits 7:0. -/
def Ev.code (e : Ev) : Nat := e.block * 256 + e.row

/-- EV_KEEPER_ACCESS (Table 19.6): R17. -/
def E.KEEPER_ACCESS : Ev := ⟨1, 1, .fatal⟩
/-- EV_ROUTER_UE (Table 19.6): R497. -/
def E.ROUTER_UE : Ev := ⟨1, 2, .fault⟩
/-- EV_ROUTER_CRC (Table 19.6): R497. -/
def E.ROUTER_CRC : Ev := ⟨1, 3, .warn⟩
/-- EV_LIFE_WRITE_FAIL (Table 19.6): R511. -/
def E.LIFE_WRITE_FAIL : Ev := ⟨1, 4, .warn⟩
/-- EV_COUNTER_SATURATED (Table 19.6): R7. -/
def E.COUNTER_SATURATED : Ev := ⟨1, 5, .note⟩
/-- EV_PERF_OVERFLOW (Table 19.6): R7. -/
def E.PERF_OVERFLOW : Ev := ⟨1, 6, .note⟩
/-- EV_MODE_CHANGED (Table 19.6): R23. -/
def E.MODE_CHANGED : Ev := ⟨1, 7, .note⟩
/-- EV_ABSENT_ENGINE (Table 19.6): R28. -/
def E.ABSENT_ENGINE : Ev := ⟨1, 8, .note⟩
/-- EV_TIDE_OVERRUN (Table 2.6): 0x01  R49. -/
def E.TIDE_OVERRUN : Ev := ⟨2, 1, .fault⟩
/-- EV_LAG_LIMIT (Table 2.6): 0x02  R52. -/
def E.LAG_LIMIT : Ev := ⟨2, 2, .fault⟩
/-- EV_LANDING_MISSED (Table 2.6): 0x03  R45. -/
def E.LANDING_MISSED : Ev := ⟨2, 3, .fault⟩
/-- EV_LANDING_OVERRUN (Table 2.6): 0x04  R46. -/
def E.LANDING_OVERRUN : Ev := ⟨2, 4, .fault⟩
/-- EV_HOLD_LIMIT (Table 2.6): 0x05  R55. -/
def E.HOLD_LIMIT : Ev := ⟨2, 5, .fault⟩
/-- EV_CROSSING_RESIDUE (Table 2.6): 0x06  R42. -/
def E.CROSSING_RESIDUE : Ev := ⟨2, 6, .fault⟩
/-- EV_LAUNCH_LATE (Table 2.6): 0x07  R57. -/
def E.LAUNCH_LATE : Ev := ⟨2, 7, .fault⟩
/-- EV_TIDE_DEFERRED (Table 2.6): —  R50. -/
def E.TIDE_DEFERRED : Ev := ⟨2, 8, .note⟩
/-- EV_TIDE_CONFIG_REFUSED (Table 2.6): —  R31. -/
def E.TIDE_CONFIG_REFUSED : Ev := ⟨2, 9, .note⟩
/-- EV_CW_PARITY (Table 3.17): 0x20  R68. -/
def E.CW_PARITY : Ev := ⟨3, 1, .fault⟩
/-- EV_CW_FORMAT (Table 3.17): 0x21  R68, and where a rule of this chapter names it. -/
def E.CW_FORMAT : Ev := ⟨3, 2, .fault⟩
/-- EV_LOOP_DEPTH (Table 3.17): 0x22  R91. -/
def E.LOOP_DEPTH : Ev := ⟨3, 3, .fault⟩
/-- EV_LOOP_NEST (Table 3.17): 0x23  R81, R91. -/
def E.LOOP_NEST : Ev := ⟨3, 4, .fault⟩
/-- EV_SEQ_STREAM_STALE (Table 3.17): 0x24  R99. -/
def E.SEQ_STREAM_STALE : Ev := ⟨3, 5, .fault⟩
/-- EV_DESC_BOUNDS (Table 3.17): 0x25  R95. -/
def E.DESC_BOUNDS : Ev := ⟨3, 6, .fault⟩
/-- EV_DESC_INVALID (Table 3.17): 0x26  R78, R95. -/
def E.DESC_INVALID : Ev := ⟨3, 7, .fault⟩
/-- EV_CW_WEIGHT_RACE (Table 3.17): 0x27  R75. -/
def E.CW_WEIGHT_RACE : Ev := ⟨3, 8, .fault⟩
/-- EV_CW_UNIT_BUSY (Table 3.17): 0x28  R77. -/
def E.CW_UNIT_BUSY : Ev := ⟨3, 9, .fault⟩
/-- EV_ABSENT_TARGET (Table 3.17): 0x29  R29, R102. -/
def E.ABSENT_TARGET : Ev := ⟨3, 10, .fault⟩
/-- EV_PLAN_END_MISMATCH (Table 3.17): 0x2A  R92. -/
def E.PLAN_END_MISMATCH : Ev := ⟨3, 11, .fault⟩
/-- EV_LOOP_CEILING (Table 3.17): —  R88. -/
def E.LOOP_CEILING : Ev := ⟨3, 12, .warn⟩
/-- EV_SEQ_WRITE_REFUSED (Table 3.17): —  Table 3.16. -/
def E.SEQ_WRITE_REFUSED : Ev := ⟨3, 13, .note⟩
/-- EV_ARITH_FORMAT (Table 4.10): 0x30  R138. -/
def E.ARITH_FORMAT : Ev := ⟨4, 1, .fault⟩
/-- EV_ACC_RANGE (Table 4.10): —  R139. -/
def E.ACC_RANGE : Ev := ⟨4, 2, .warn⟩
/-- EV_ACC_SPECIAL (Table 4.10): —  R139. -/
def E.ACC_SPECIAL : Ev := ⟨4, 3, .note⟩
/-- EV_SP_UNCORRECTABLE (Table 5.7): 0x40  R155. -/
def E.SP_UNCORRECTABLE : Ev := ⟨5, 1, .fault⟩
/-- EV_SP_CLASS (Table 5.7): 0x41  R153. -/
def E.SP_CLASS : Ev := ⟨5, 2, .fault⟩
/-- EV_SP_RANGE (Table 5.7): 0x42  R142. -/
def E.SP_RANGE : Ev := ⟨5, 3, .fault⟩
/-- EV_SP_ACT_UNDERFLOW (Table 5.7): 0x43  R150, R547. -/
def E.SP_ACT_UNDERFLOW : Ev := ⟨5, 4, .fault⟩
/-- EV_SP_ACT_OVERFLOW (Table 5.7): 0x44  R150, R547. -/
def E.SP_ACT_OVERFLOW : Ev := ⟨5, 5, .fault⟩
/-- EV_PLAN_SLIP (Table 5.7): —  R146. -/
def E.PLAN_SLIP : Ev := ⟨5, 6, .warn⟩
/-- EV_SP_CORRECTED (Table 5.7): —  R154. -/
def E.SP_CORRECTED : Ev := ⟨5, 7, .warn⟩
/-- EV_SP_SCRUB_UE (Table 5.7): —  R156. -/
def E.SP_SCRUB_UE : Ev := ⟨5, 8, .warn⟩
/-- EV_HARBOUR_VIOLATION (Table 5.7): —  R161, R162. -/
def E.HARBOUR_VIOLATION : Ev := ⟨5, 9, .warn⟩
/-- EV_HARBOUR_CONFIG (Table 5.7): —  R164. -/
def E.HARBOUR_CONFIG : Ev := ⟨5, 10, .note⟩
/-- EV_HBM_UE_PLAN (Table 6.9): R171. -/
def E.HBM_UE_PLAN : Ev := ⟨6, 1, .fault⟩
/-- EV_HBM_UE (Table 6.9): R171, R172. -/
def E.HBM_UE : Ev := ⟨6, 2, .warn⟩
/-- EV_HBM_CORRECTED (Table 6.9): R170. -/
def E.HBM_CORRECTED : Ev := ⟨6, 3, .warn⟩
/-- EV_SHARD_BAD (Table 6.9): R197, R200. -/
def E.SHARD_BAD : Ev := ⟨6, 4, .warn⟩
/-- EV_MODEL_FAILED (Table 6.9): R193, and whenever a model enters FAILED. -/
def E.MODEL_FAILED : Ev := ⟨6, 5, .warn⟩
/-- EV_HOST_WAIT_EXPIRED (Table 6.9): R186. -/
def E.HOST_WAIT_EXPIRED_FERRY : Ev := ⟨6, 6, .warn⟩
/-- EV_REHASH_BEHIND (Table 6.9): R201. -/
def E.REHASH_BEHIND : Ev := ⟨6, 7, .warn⟩
/-- EV_SHARD_REPAIRED (Table 6.9): R198. -/
def E.SHARD_REPAIRED : Ev := ⟨6, 8, .note⟩
/-- EV_FERRY_DONE (Table 6.9): R181. -/
def E.FERRY_DONE : Ev := ⟨6, 9, .note⟩
/-- EV_MODEL_NEEDED (Table 6.9): R186. -/
def E.MODEL_NEEDED : Ev := ⟨6, 10, .note⟩
/-- EV_EVICT_NEEDED (Table 6.9): R194. -/
def E.EVICT_NEEDED : Ev := ⟨6, 11, .note⟩
/-- EV_HB_AREA_CONFIG (Table 6.9): R169. -/
def E.HB_AREA_CONFIG : Ev := ⟨6, 12, .note⟩
/-- EV_SVC_STEP_LOST (Table 7.12): R237. -/
def E.SVC_STEP_LOST : Ev := ⟨7, 1, .warn⟩
/-- EV_SVC_PLAN_DISABLED (Table 7.12): R237. -/
def E.SVC_PLAN_DISABLED : Ev := ⟨7, 2, .warn⟩
/-- EV_SVC_RESULT (Table 7.12): R215. -/
def E.SVC_RESULT : Ev := ⟨7, 3, .warn⟩
/-- EV_STRAND_OVERWRITE (Table 7.12): R238. -/
def E.STRAND_OVERWRITE : Ev := ⟨7, 4, .warn⟩
/-- EV_HOST_WAIT_EXPIRED (Table 7.12): R220. -/
def E.HOST_WAIT_EXPIRED_SVC : Ev := ⟨7, 5, .warn⟩
/-- EV_ADMIT_PENDING (Table 7.12): R220. -/
def E.ADMIT_PENDING : Ev := ⟨7, 6, .note⟩
/-- EV_SVC_CONFIG (Table 7.12): R207. -/
def E.SVC_CONFIG : Ev := ⟨7, 7, .note⟩
/-- EV_OUTPUT_STALL (Table 8.6): R262. -/
def E.OUTPUT_STALL : Ev := ⟨8, 1, .warn⟩
/-- EV_METER_FEED_STALL (Table 8.6): R267. -/
def E.METER_FEED_STALL : Ev := ⟨8, 2, .warn⟩
/-- EV_BUDGET_LOW (Table 8.6): R260. -/
def E.BUDGET_LOW : Ev := ⟨8, 3, .note⟩
/-- EV_IST_DOWN (Table 9.4): R276. -/
def E.IST_DOWN : Ev := ⟨9, 1, .fatal⟩
/-- EV_IST_SIDEBAND_LOST (Table 9.4): R279. -/
def E.IST_SIDEBAND_LOST : Ev := ⟨9, 2, .fault⟩
/-- EV_IST_RETRAIN (Table 9.4): R276. -/
def E.IST_RETRAIN : Ev := ⟨9, 3, .warn⟩
/-- EV_IST_DEGRADED (Table 9.4): R277. -/
def E.IST_DEGRADED : Ev := ⟨9, 4, .warn⟩
/-- EV_IST_BUDGET_BREACH (Table 9.4): R277. -/
def E.IST_BUDGET_BREACH : Ev := ⟨9, 5, .warn⟩
/-- EV_IST_SIDEBAND (Table 9.4): R279. -/
def E.IST_SIDEBAND : Ev := ⟨9, 6, .warn⟩
/-- EV_IST_TIME (Table 9.4): R280. -/
def E.IST_TIME : Ev := ⟨9, 7, .warn⟩
/-- EV_IST_CRC (Table 9.4): R275. -/
def E.IST_CRC : Ev := ⟨9, 8, .warn⟩
/-- EV_CW_PLAN_LINK_LOST (Table 10.8): R308. -/
def E.CW_PLAN_LINK_LOST : Ev := ⟨10, 1, .fault⟩
/-- EV_CW_PLAN_HEADER (Table 10.8): R301. -/
def E.CW_PLAN_HEADER : Ev := ⟨10, 2, .fault⟩
/-- EV_CW_DOWN (Table 10.8): R308, Table 10.4. -/
def E.CW_DOWN : Ev := ⟨10, 3, .warn⟩
/-- EV_CW_LANE_FAIL (Table 10.8): Table 10.4. -/
def E.CW_LANE_FAIL : Ev := ⟨10, 4, .warn⟩
/-- EV_CW_DEGRADED (Table 10.8): Table 10.4. -/
def E.CW_DEGRADED : Ev := ⟨10, 5, .warn⟩
/-- EV_LINK_BUDGET_BREACH (Table 10.8): Table 10.4. -/
def E.LINK_BUDGET_BREACH : Ev := ⟨10, 6, .warn⟩
/-- EV_CW_SPILL_FULL (Table 10.8): R299. -/
def E.CW_SPILL_FULL : Ev := ⟨10, 7, .warn⟩
/-- EV_CW_CREDIT (Table 10.8): R303. -/
def E.CW_CREDIT : Ev := ⟨10, 8, .warn⟩
/-- EV_CW_FLAPPING (Table 10.8): R312. -/
def E.CW_FLAPPING : Ev := ⟨10, 9, .warn⟩
/-- EV_CW_MISWIRED (Table 10.8): R311. -/
def E.CW_MISWIRED : Ev := ⟨10, 10, .warn⟩
/-- EV_CW_REPLAY (Table 10.8): At most once per second per link while replays occur. -/
def E.CW_REPLAY : Ev := ⟨10, 11, .warn⟩
/-- EV_HOST_WAIT_EXPIRED (Table 10.8): R306, R309. -/
def E.HOST_WAIT_EXPIRED_CW : Ev := ⟨10, 12, .warn⟩
/-- EV_CW_UP (Table 10.8): R310. -/
def E.CW_UP : Ev := ⟨10, 13, .note⟩
/-- EV_CW_TRAIN_REQUEST (Table 10.8): R306, R309. -/
def E.CW_TRAIN_REQUEST : Ev := ⟨10, 14, .note⟩
/-- EV_DRIFT_TIMEOUT (Table 11.8): R334. -/
def E.DRIFT_TIMEOUT : Ev := ⟨11, 1, .warn⟩
/-- EV_DRIFT_NO_ROUTE (Table 11.8): R330. -/
def E.DRIFT_NO_ROUTE : Ev := ⟨11, 2, .warn⟩
/-- EV_DRIFT_MALFORMED (Table 11.8): R322. -/
def E.DRIFT_MALFORMED : Ev := ⟨11, 3, .warn⟩
/-- EV_ARB_STARVED (Table 11.8): R342. -/
def E.ARB_STARVED : Ev := ⟨11, 4, .warn⟩
/-- EV_ARB_SHARE (Table 11.8): R319. -/
def E.ARB_SHARE : Ev := ⟨11, 5, .warn⟩
/-- EV_TIME_HOLDOVER (Table 12.5): State enters HOLDOVER. -/
def E.TIME_HOLDOVER : Ev := ⟨12, 1, .warn⟩
/-- EV_TIME_OFFSET (Table 12.5): R358. -/
def E.TIME_OFFSET : Ev := ⟨12, 2, .warn⟩
/-- EV_TIME_LOOP (Table 12.5): R354. -/
def E.TIME_LOOP : Ev := ⟨12, 3, .warn⟩
/-- EV_HOST_WAIT_EXPIRED (Table 12.5): R357. -/
def E.HOST_WAIT_EXPIRED_TIME : Ev := ⟨12, 4, .warn⟩
/-- EV_TIME_PARENT_CHANGED (Table 12.5): The active source changes. -/
def E.TIME_PARENT_CHANGED : Ev := ⟨12, 5, .note⟩
/-- EV_TIME_LOCKED (Table 12.5): State enters LOCKED. -/
def E.TIME_LOCKED : Ev := ⟨12, 6, .note⟩
/-- EV_TIME_STEP (Table 12.5): R359. -/
def E.TIME_STEP : Ev := ⟨12, 7, .note⟩
/-- EV_TIME_PULSE_LATE (Table 12.5): R365. -/
def E.TIME_PULSE_LATE : Ev := ⟨12, 8, .note⟩
/-- EV_TIME_CAPTURE_OVERRUN (Table 12.5): R364. -/
def E.TIME_CAPTURE_OVERRUN : Ev := ⟨12, 9, .note⟩
/-- EV_TIME_CONFIG (Table 12.5): Table 12.1. -/
def E.TIME_CONFIG : Ev := ⟨12, 10, .note⟩
/-- EV_STRAP_PARITY (Table 13.13): R371. -/
def E.STRAP_PARITY : Ev := ⟨13, 1, .warn⟩
/-- EV_HALL_TABLE (Table 13.13): R374. -/
def E.HALL_TABLE : Ev := ⟨13, 2, .warn⟩
/-- EV_LAUNCH_RELAY_LOST (Table 13.13): R385. -/
def E.LAUNCH_RELAY_LOST : Ev := ⟨13, 3, .warn⟩
/-- EV_LAUNCH_REFUSED (Table 13.13): R382. -/
def E.LAUNCH_REFUSED : Ev := ⟨13, 4, .warn⟩
/-- EV_HOST_WAIT_EXPIRED (Table 13.13): R387. -/
def E.HOST_WAIT_EXPIRED_LAUNCH : Ev := ⟨13, 5, .warn⟩
/-- EV_ADMIT_DONE (Table 13.13): R379. -/
def E.ADMIT_DONE : Ev := ⟨13, 6, .note⟩
/-- EV_LAUNCH_DONE (Table 13.13): R386. -/
def E.LAUNCH_DONE : Ev := ⟨13, 7, .note⟩
/-- EV_LAUNCH_RELAY_REQUEST (Table 13.13): R387. -/
def E.LAUNCH_RELAY_REQUEST : Ev := ⟨13, 8, .note⟩
/-- EV_ADMIT_REFUSED (Table 14.8): R400. -/
def E.ADMIT_REFUSED : Ev := ⟨14, 1, .warn⟩
/-- EV_HOST_LINK_DOWN (Table 15.6): R411. -/
def E.HOST_LINK_DOWN : Ev := ⟨15, 1, .warn⟩
/-- EV_HOST_POISON (Table 15.6): R407. -/
def E.HOST_POISON : Ev := ⟨15, 2, .warn⟩
/-- EV_QUAY_LINK_DOWN (Table 15.6): R419. -/
def E.QUAY_LINK_DOWN : Ev := ⟨15, 3, .warn⟩
/-- EV_QUAY_TARGET_ERROR (Table 15.6): R418. -/
def E.QUAY_TARGET_ERROR : Ev := ⟨15, 4, .warn⟩
/-- EV_AVS_FAULT (Table 15.6): R421. -/
def E.AVS_FAULT : Ev := ⟨15, 5, .warn⟩
/-- EV_HOST_LINK_UP (Table 15.6): R411. -/
def E.HOST_LINK_UP : Ev := ⟨15, 6, .note⟩
/-- EV_QUAY_LINK_UP (Table 15.6): R419. -/
def E.QUAY_LINK_UP : Ev := ⟨15, 7, .note⟩
/-- EV_CLK_FAIL (Table 16.13): R427. -/
def E.CLK_FAIL : Ev := ⟨16, 1, .nmi⟩
/-- EV_SUPPLY_RESET (Table 16.13): R444. -/
def E.SUPPLY_RESET : Ev := ⟨16, 2, .fatal⟩
/-- EV_THERMAL_TRIP (Table 16.13): R438. -/
def E.THERMAL_TRIP : Ev := ⟨16, 3, .fatal⟩
/-- EV_SUPPLY_DIP (Table 16.13): R443. -/
def E.SUPPLY_DIP : Ev := ⟨16, 4, .warn⟩
/-- EV_NEIGHBOUR_LIMIT (Table 16.13): R440. -/
def E.NEIGHBOUR_LIMIT : Ev := ⟨16, 5, .warn⟩
/-- EV_THERMAL (Table 16.13): R438. -/
def E.THERMAL : Ev := ⟨16, 6, .warn⟩
/-- EV_DFLL_FLOOR (Table 16.13): R435. -/
def E.DFLL_FLOOR : Ev := ⟨16, 7, .warn⟩
/-- EV_CLK_RECOVERED (Table 16.13): R431. -/
def E.CLK_RECOVERED : Ev := ⟨16, 8, .note⟩
/-- EV_POWER_CAP (Table 16.13): R439. -/
def E.POWER_CAP : Ev := ⟨16, 9, .note⟩
/-- EV_PWR_STATE (Table 16.13): R448. -/
def E.PWR_STATE : Ev := ⟨16, 10, .note⟩
/-- EV_PWR_CONFIG (Table 16.13): Table 16.4. -/
def E.PWR_CONFIG : Ev := ⟨16, 11, .note⟩
/-- EV_QUIESCE (Table 16.13): R451. -/
def E.QUIESCE : Ev := ⟨16, 12, .note⟩
/-- EV_QUIESCE_RELEASED (Table 16.13): R452. -/
def E.QUIESCE_RELEASED : Ev := ⟨16, 13, .note⟩
/-- EV_DEBUG_UNLOCKED (Table 17.10): R476. -/
def E.DEBUG_UNLOCKED : Ev := ⟨17, 1, .warn⟩
/-- EV_UPDATE_FAILED (Table 17.10): R466, R467. -/
def E.UPDATE_FAILED : Ev := ⟨17, 2, .warn⟩
/-- EV_CONFIG_RECORD (Table 17.10): R456. -/
def E.CONFIG_RECORD : Ev := ⟨17, 3, .warn⟩
/-- EV_ACCESS_REFUSED (Table 17.10): R475. -/
def E.ACCESS_REFUSED : Ev := ⟨17, 4, .warn⟩
/-- EV_BOOT_DONE (Table 17.10): R458. -/
def E.BOOT_DONE : Ev := ⟨17, 5, .note⟩
/-- EV_RECOVERY_WAIT (Table 17.10): R460. -/
def E.RECOVERY_WAIT : Ev := ⟨17, 6, .note⟩
/-- EV_UPDATE_DONE (Table 17.10): R467. -/
def E.UPDATE_DONE : Ev := ⟨17, 7, .note⟩
/-- EV_REGION_SERVICE (Table 17.10): R468. -/
def E.REGION_SERVICE : Ev := ⟨17, 8, .note⟩
/-- EV_METER_STALE (Table 18.7): No refresh for 3 s. -/
def E.METER_STALE : Ev := ⟨18, 1, .warn⟩
/-- EV_METER_SEAL_OPEN (Table 18.7): seal_open becomes 1. -/
def E.METER_SEAL_OPEN : Ev := ⟨18, 2, .warn⟩
/-- EV_METER_TIMEBASE (Table 18.7): timebase_degraded becomes 1. -/
def E.METER_TIMEBASE : Ev := ⟨18, 3, .warn⟩
/-- EV_METER_OVERRANGE (Table 18.7): An overrange bit becomes 1. -/
def E.METER_OVERRANGE : Ev := ⟨18, 4, .warn⟩
/-- EV_METER_FEED_INTERRUPTED (Table 18.7): feed_interruptions increases. -/
def E.METER_FEED_INTERRUPTED : Ev := ⟨18, 5, .warn⟩
/-- EV_METER_PARAM (Table 18.7): param_events increases. -/
def E.METER_PARAM : Ev := ⟨18, 6, .note⟩
/-- EV_METER_RECORD (Table 18.7): record_number increases. -/
def E.METER_RECORD : Ev := ⟨18, 7, .note⟩

end Sys2Proof.Machine
end

