-- ==== Sys2Proof/Machine/ControlWord.lean ====
section
/-! DEFINITION. Control words bit for bit (R65 to R84): encoding and decoding of slots, of the header, of parity, and
the checks of R68 on a word. -/

namespace Sys2Proof

open Sys2Proof.Machine

/-! ### Slots -/

/-- The op codes of Table 3.6. -/
def VecOp.code : VecOp → BitVec 6
  | .add => 0x01 | .sub => 0x02 | .mul => 0x03 | .fma => 0x04 | .max => 0x05 | .min => 0x06
  | .exp2 => 0x08 | .log2 => 0x09 | .rcp => 0x0A | .rsqrt => 0x0B
  | .cvt => 0x10 | .ld => 0x11 | .st => 0x12 | .rdacc => 0x13
  | .cmp => 0x18 | .topk => 0x19 | .sample => 0x1A | .reduce => 0x1B

/-- The operation of an op code; none: the code is reserved (R68). -/
def vecOpOf (c : BitVec 6) : Option VecOp :=
  [VecOp.add, .sub, .mul, .fma, .max, .min, .exp2, .log2, .rcp, .rsqrt, .cvt, .ld, .st, .rdacc, .cmp, .topk,
    .sample, .reduce].find? (fun o => o.code = c)

/-- One bit of an encoding. -/
def bv1 (b : Bool) : BitVec 1 := if b then 1 else 0

/-- The 48 bits of an array slot (Table 3.4). -/
def encArr : ArrSlot → BitVec 48
  | .clear acc win => 0x1#4 ++ 0#2 ++ acc ++ win ++ 0#32
  | .mac xport acc => 0x2#4 ++ xport ++ acc ++ 0#40
  | .wload sparse h => 0x3#4 ++ 0#12 ++ bv1 sparse ++ 0#15 ++ h
  | .wswap => 0x4#4 ++ 0#44
  | .drain acc gen h => 0x5#4 ++ gen ++ acc ++ 0#24 ++ h

/-- An array slot from its 48 bits; none: reserved opcode or non-zero reserved field (R68). -/
def decArr (w : BitVec 48) : Option ArrSlot :=
  let s : Option ArrSlot := match (w.extractLsb' 44 4).toNat with
    | 1 => some (.clear (w.extractLsb' 40 2) (w.extractLsb' 32 8))
    | 2 => some (.mac (w.extractLsb' 42 2) (w.extractLsb' 40 2))
    | 3 => some (.wload (w.getLsbD 31) (w.extractLsb' 0 16))
    | 4 => some .wswap
    | 5 => some (.drain (w.extractLsb' 40 2) (w.extractLsb' 42 2) (w.extractLsb' 0 16))
    | _ => none
  s.filter (fun s => encArr s = w)

/-- The 48 bits of a vector slot (Table 3.5). -/
def encVec (s : VecSlot) : BitVec 48 :=
  s.op.code ++ bv1 s.bf16 ++ s.vd ++ s.va ++ s.vb ++ s.vc ++ s.mod ++ s.arg

/-- A vector slot from its 48 bits; none: reserved op. -/
def decVec (w : BitVec 48) : Option VecSlot :=
  (vecOpOf (w.extractLsb' 42 6)).map (fun o =>
    { op := o, bf16 := w.getLsbD 41, vd := w.extractLsb' 36 5, va := w.extractLsb' 31 5, vb := w.extractLsb' 26 5,
      vc := w.extractLsb' 21 5, mod := w.extractLsb' 16 5, arg := w.extractLsb' 0 16 })

/-- The 48 bits of an address-generator slot (Table 3.7). -/
def encGen : GenSlot → BitVec 48
  | .start h => 0x1#4 ++ 0#28 ++ h
  | .step n => 0x2#4 ++ 0#4 ++ n ++ 0#16
  | .setpos n => 0x3#4 ++ 0#4 ++ n ++ 0#16

def decGen (w : BitVec 48) : Option GenSlot :=
  let s : Option GenSlot := match (w.extractLsb' 44 4).toNat with
    | 1 => some (.start (w.extractLsb' 0 16))
    | 2 => some (.step (w.extractLsb' 16 24))
    | 3 => some (.setpos (w.extractLsb' 16 24))
    | _ => none
  s.filter (fun s => encGen s = w)

/-- The 48 bits of a crossbar slot (Table 3.8). -/
def encXbar (s : XbarSlot) : BitVec 48 :=
  (if s.scatter then 0x2#4 else 0x1#4) ++ s.gen ++ s.unit ++ s.mask ++ 0#30

def decXbar (w : BitVec 48) : Option XbarSlot :=
  let op := (w.extractLsb' 44 4).toNat
  let s : XbarSlot := { scatter := op = 2, gen := w.extractLsb' 42 2, unit := w.extractLsb' 38 4,
                        mask := w.extractLsb' 30 8 }
  if encXbar s = w then some s else none

/-- The 48 bits of a transfer slot (Table 3.9). -/
def encXfer : XferSlot → BitVec 48
  | .csend cell h => 0x1#4 ++ cell ++ 0#25 ++ h
  | .bsend block cell h => 0x2#4 ++ block ++ cell ++ 0#23 ++ h
  | .xsend ch => 0x3#4 ++ ch ++ 0#41
  | .xrecv src ch h => 0x4#4 ++ src ++ ch ++ 0#21 ++ h
  | .lsend link index stream h => 0x5#4 ++ link ++ index ++ stream ++ 0#1 ++ h
  | .land id => 0x6#4 ++ id ++ 0#36
  | .lread id h => 0x7#4 ++ id ++ 0#20 ++ h

def decXfer (w : BitVec 48) : Option XferSlot :=
  let h := w.extractLsb' 0 16
  let s : Option XferSlot := match (w.extractLsb' 44 4).toNat with
    | 1 => some (.csend (w.extractLsb' 41 3) h)
    | 2 => some (.bsend (w.extractLsb' 42 2) (w.extractLsb' 39 3) h)
    | 3 => some (.xsend (w.extractLsb' 41 3))
    | 4 => some (.xrecv (w.extractLsb' 40 4) (w.extractLsb' 37 3) h)
    | 5 => some (.lsend (w.extractLsb' 41 3) (w.extractLsb' 25 16) (w.extractLsb' 17 8) h)
    | 6 => some (.land (w.extractLsb' 36 8))
    | 7 => some (.lread (w.extractLsb' 36 8) h)
    | _ => none
  s.filter (fun s => encXfer s = w)

/-- The 48 bits of a loop and branch slot (Table 3.10). -/
def encLoop : LoopSlot → BitVec 48
  | .loopf last count => 0x1#4 ++ 0#3 ++ last ++ count
  | .loopb src last n ceiling => 0x2#4 ++ bv1 src ++ 0#2 ++ last ++ n ++ ceiling
  | .jmp target => 0x3#4 ++ 0#3 ++ target ++ 0#20
  | .done => 0x4#4 ++ 0#44

def decLoop (w : BitVec 48) : Option LoopSlot :=
  let s : Option LoopSlot := match (w.extractLsb' 44 4).toNat with
    | 1 => some (.loopf (w.extractLsb' 20 21) (w.extractLsb' 0 20))
    | 2 => some (.loopb (w.getLsbD 43) (w.extractLsb' 20 21) (w.extractLsb' 16 4) (w.extractLsb' 0 16))
    | 3 => some (.jmp (w.extractLsb' 20 21))
    | 4 => some .done
    | _ => none
  s.filter (fun s => encLoop s = w)

/-- The 48 bits of a descriptor slot (Table 3.11). -/
def encDesc : DescSlot → BitVec 48
  | .dload gen h => 0x1#4 ++ gen ++ 0#26 ++ h
  | .dbase gen h => 0x2#4 ++ gen ++ 0#26 ++ h
  | .cntsrc dim h => 0x3#4 ++ 0#25 ++ dim ++ h
  | .cntld dim n h => 0x4#4 ++ 0#21 ++ dim ++ n ++ h
  | .cntset value n => 0x5#4 ++ value ++ n ++ 0#16

def decDesc (w : BitVec 48) : Option DescSlot :=
  let h := w.extractLsb' 0 16
  let s : Option DescSlot := match (w.extractLsb' 44 4).toNat with
    | 1 => some (.dload (w.extractLsb' 42 2) h)
    | 2 => some (.dbase (w.extractLsb' 42 2) h)
    | 3 => some (.cntsrc (w.extractLsb' 16 3) h)
    | 4 => some (.cntld (w.extractLsb' 20 3) (w.extractLsb' 16 4) h)
    | 5 => some (.cntset (w.extractLsb' 20 24) (w.extractLsb' 16 4))
    | _ => none
  s.filter (fun s => encDesc s = w)

/-- The 48 bits of a predicate slot (Table 3.12). -/
def encPred : PredSlot → BitVec 48
  | .pcix pd sel cmp imm => 0x1#4 ++ pd ++ sel ++ cmp ++ 0#11 ++ imm
  | .plog pd pa pb op => 0x2#4 ++ pd ++ pa ++ pb ++ op ++ 0#30
  | .pvec pd reg lane => 0x3#4 ++ pd ++ 0#3 ++ reg ++ lane ++ 0#25
  | .pcnt pd n imm => 0x4#4 ++ pd ++ n ++ 0#12 ++ imm

def decPred (w : BitVec 48) : Option PredSlot :=
  let pd := w.extractLsb' 40 4
  let s : Option PredSlot := match (w.extractLsb' 44 4).toNat with
    | 1 => some (.pcix pd (w.extractLsb' 38 2) (w.extractLsb' 35 3) (w.extractLsb' 0 24))
    | 2 => some (.plog pd (w.extractLsb' 36 4) (w.extractLsb' 32 4) (w.extractLsb' 30 2))
    | 3 => some (.pvec pd (w.extractLsb' 32 5) (w.extractLsb' 25 7))
    | 4 => some (.pcnt pd (w.extractLsb' 36 4) (w.extractLsb' 0 24))
    | _ => none
  s.filter (fun s => encPred s = w)

/-- Presence bit of a slot (Table 3.2). -/
def Slot.index : Slot → Nat
  | .arr i _ => i
  | .vec p _ => 8 + p
  | .gen i _ => 10 + i
  | .xbar p _ => 14 + p
  | .xfer p _ => 16 + p
  | .loop _ => 18
  | .desc _ => 19
  | .pred _ => 20

/-- The 48 bits of a slot. -/
def encSlot : Slot → BitVec 48
  | .arr _ s => encArr s
  | .vec _ s => encVec s
  | .gen _ s => encGen s
  | .xbar _ s => encXbar s
  | .xfer _ s => encXfer s
  | .loop s => encLoop s
  | .desc s => encDesc s
  | .pred s => encPred s

/-- The slot of presence bit `i` from its 48 bits; none: R68 finds a reserved opcode, op or field. -/
def decSlot (i : Nat) (w : BitVec 48) : Option Slot :=
  if h : i < 8 then (decArr w).map (.arr ⟨i, h⟩)
  else if i = 8 then (decVec w).map (.vec 0)
  else if i = 9 then (decVec w).map (.vec 1)
  else if h : i < 14 then (decGen w).map (.gen ⟨i - 10, by omega⟩)
  else if i = 14 then (decXbar w).map (.xbar 0)
  else if i = 15 then (decXbar w).map (.xbar 1)
  else if i = 16 then (decXfer w).map (.xfer 0)
  else if i = 17 then (decXfer w).map (.xfer 1)
  else if i = 18 then (decLoop w).map .loop
  else if i = 19 then (decDesc w).map .desc
  else if i = 20 then (decPred w).map .pred
  else none

/-- The mod and arg fields that Table 3.6 gives each operation: (mask of mod bits in use, mask of arg bits in use). -/
def VecOp.fields : VecOp → BitVec 5 × BitVec 16
  | .cvt => (0x1F, 0) | .ld => (0, 1) | .st => (3, 0xFFFF) | .rdacc => (0xF, 0)
  | .cmp => (0x1F, 0) | .topk => (0x1F, 0) | .sample => (0, 0xFFFF) | .reduce => (0x1F, 0)
  | _ => (0, 0)

/-- A handle's reserved bits [15:14] are zero (R94). -/
def handleOk (h : BitVec 16) : Bool := h.extractLsb' 14 2 = 0

/-- The limits that chapter 03 places on a slot's fields (R68): array ports, unit codes, links, comparison codes,
predicates, dimensions, ceilings and handles. The modifier codes of CMP and REDUCE beyond Table 3.6 are refused with
them (notes/assumptions/8.md). -/
def Slot.legal : Slot → Bool
  | .arr _ (.mac xport _) => decide (xport.toNat ≤ 1)
  | .arr _ (.wload _ h) => handleOk h
  | .arr _ (.drain _ _ h) => handleOk h
  | .arr _ _ => true
  | .vec _ s =>
    (s.mod &&& ~~~ s.op.fields.1 = 0) && (s.arg &&& ~~~ s.op.fields.2 = 0) &&
    (match s.op with
      | .st => handleOk s.arg
      | .sample => handleOk s.arg
      | .cmp => decide (s.mod.toNat ≤ 5)
      | .reduce => decide (s.mod.toNat ≤ 2)
      | _ => true)
  | .gen _ (.start h) => handleOk h
  | .gen _ _ => true
  | .xbar _ s => if s.scatter then decide (8 ≤ s.unit.toNat ∧ s.unit.toNat ≤ 10) else decide (s.unit.toNat ≤ 10)
  | .xfer _ (.csend _ h) => handleOk h
  | .xfer _ (.bsend _ _ h) => handleOk h
  | .xfer _ (.xsend _) => true
  | .xfer _ (.xrecv _ _ h) => handleOk h
  | .xfer _ (.lsend link _ _ h) => decide (link.toNat ≤ 5) && handleOk h
  | .xfer _ (.land _) => true
  | .xfer _ (.lread _ h) => handleOk h
  | .loop (.loopb _ _ _ ceiling) => ceiling ≠ 0
  | .loop _ => true
  | .desc (.dload _ h) => handleOk h
  | .desc (.dbase _ h) => handleOk h
  | .desc (.cntsrc dim h) => decide (dim.toNat ≤ 4) && handleOk h
  | .desc (.cntld dim _ h) => decide (dim.toNat ≤ 4) && handleOk h
  | .desc (.cntset _ _) => true
  | .pred (.pcix pd _ cmp _) => pd ≠ 0 && decide (cmp.toNat ≤ 3)
  | .pred (.plog pd _ _ _) => pd ≠ 0
  | .pred (.pvec pd _ _) => pd ≠ 0
  | .pred (.pcnt pd _ _) => pd ≠ 0

/-- A LOOPB that takes its count from a descriptor has a CNTSRC in its word's D slot (Table 3.10). -/
def CWord.countSource (w : CWord) : Bool :=
  let needs := w.slots.any (fun s => match s with | .loop (.loopb true _ _ _) => true | _ => false)
  let has := w.slots.any (fun s => match s with | .desc (.cntsrc _ _) => true | _ => false)
  !needs || has

/-! ### Words -/

/-- Bits of a word with n slots (R65). -/
def wordBits (n : Nat) : Nat := 64 + 48 * n

/-- 16-bit units of a word with n slots (R65). -/
def wordUnits (n : Nat) : Nat := 4 + 3 * n

/-- Even parity of group i over the bits of a word below bit `b`, parity field apart (Table 3.1). -/
def parityBelow (w i : Nat) : Nat → Bool
  | 0 => false
  | b + 1 => xor (decide (b % 4 = i) && !(decide (60 ≤ b) && decide (b < 64)) && bit w b) (parityBelow w i b)

/-- The four parity bits of a word of n slots. -/
def parityOf (w n : Nat) : Nat :=
  flag (parityBelow w 0 (wordBits n)) + 2 * flag (parityBelow w 1 (wordBits n)) +
  4 * flag (parityBelow w 2 (wordBits n)) + 8 * flag (parityBelow w 3 (wordBits n))

/-- A word's bits with its parity field still zero (R65, R66). -/
def CWord.body (w : CWord) : Nat :=
  let present := (w.slots.map (fun s => 2 ^ s.index)).foldl (· + ·) 0
  let header := present + w.slots.length * 2 ^ 24 + w.rep.toNat * 2 ^ 32 + w.gov.pred.toNat * 2 ^ 44 +
    flag w.gov.inv * 2 ^ 48
  header + ((w.slots.map (fun s => (encSlot s).toNat)).foldr (fun s acc => s + 2 ^ 48 * acc) 0) * 2 ^ 64

/-- A word's bits. -/
def encodeWord (w : CWord) : Nat := w.body + parityOf w.body w.slots.length * 2 ^ 60

/-- The slots of a presence mask from the bits after the header. -/
def decodeSlots : List Nat → Nat → Option (List Slot)
  | [], _ => some []
  | i :: is, rest =>
    match decSlot i (BitVec.ofNat 48 rest), decodeSlots is (rest / 2 ^ 48) with
    | some s, some ss => some (s :: ss)
    | _, _ => none

/-- The set presence bits, ascending. -/
def presentBits (mask : Nat) : List Nat := (List.range 24).filter (fun i => bit mask i)

/-- Decode a word from the bits at its address (R68): EV_CW_PARITY first, then EV_CW_FORMAT. The length of the word is
that of its presence mask. -/
def decodeWord (raw : Nat) : Except Ev CWord :=
  let mask := bits raw 0 24
  let idx := presentBits mask
  let n := idx.length
  let w := raw % 2 ^ wordBits n
  if parityOf w n ≠ bits w 60 4 then .error E.CW_PARITY
  else if bits w 24 5 ≠ n ∨ bits w 29 3 ≠ 0 ∨ bits w 49 11 ≠ 0 ∨ mask ≥ 2 ^ 21 then .error E.CW_FORMAT
  else match decodeSlots idx (w / 2 ^ 64) with
    | none => .error E.CW_FORMAT
    | some ss =>
      let word : CWord :=
        { rep := BitVec.ofNat 12 (bits w 32 12),
          gov := { pred := BitVec.ofNat 4 (bits w 44 4), inv := bit w 48 }, slots := ss }
      if ss.all Slot.legal && word.countSource then .ok word else .error E.CW_FORMAT

/-- The presence bits of a word rise strictly (R65). -/
def ascending : List Nat → Bool
  | [] => true
  | [_] => true
  | a :: b :: l => decide (a < b) && ascending (b :: l)

/-- A word that the encoding admits: slots in ascending order of presence bit, every slot within its limits. -/
def CWord.wf (w : CWord) : Bool :=
  ascending (w.slots.map Slot.index) && w.slots.all Slot.legal && w.countSource

end Sys2Proof
end

