-- ==== Sys2Proof/Config.lean ====
section
/-! DEFINITION. What the spec leaves open: free values, which nothing in Lean can evaluate, and the cryptographic
functions that the spec names by their standards and does not write out. Each is named in a log entry. -/

namespace Sys2Proof

/-- A fresh value that the spec leaves open, by the count of free values drawn so far (notes/assumptions/5.md). -/
opaque Config.freeValue : Nat → Nat

/-- A value that a plan's arithmetic or data movement leaves open, by virtual region, virtual cell, plan tick and use, so
that two runs of one plan meet the same one (R135, notes/assumptions/101.md). -/
opaque Config.planValue : Nat → Nat → Nat → Nat → Nat

/-- The AES-256-GCM key stream (R180, R199): key, iv, byte offset, number of bytes. -/
opaque Config.gcmStream : List Byte → List Byte → Nat → Nat → List Byte

/-- The AES-256-GCM tag of 16 bytes (R180, R199): key, iv, additional data, ciphertext. -/
opaque Config.gcmTag : List Byte → List Byte → List Byte → List Byte → List Byte

/-- ML-KEM-1024 decapsulation under the device's own key (R179): the shared secret of a ciphertext, by device serial. -/
opaque Config.kemDecap : Nat → List Byte → List Byte

/-- A digital signature by one of the device's keys (R472, R490): purpose, what the key is derived from, message. -/
opaque Config.sign : Nat → List Byte → List Byte → List Byte

/-- Whether a signature over a message verifies under a public key (17_boot_update_security). -/
opaque Config.verify : List Byte → List Byte → List Byte → Bool

/-- The value that the JTAG instruction IDCODE reads (R422 gives none): bit 0 is 1 by the standard. -/
opaque Config.idcode : BitVec 31

/-- The certificates that the identity key signs (R470): purpose and what the certified key is derived from. -/
opaque Config.certificate : Nat → List Byte → List Byte

/-- The vendor's public key in the boot ROM (R457). -/
opaque Config.vendorKey : List Byte

end Sys2Proof
end

