-- ==== Sys2Proof/Machine/RegMap.lean ====
section
/-! DEFINITION. The register map (20_registers.md): every register word of Table 20.6 with its place in BAR0
(Table 20.1), its index dimensions, its reset domain (Table 20.2), its part in the BAR2 view (Table 20.4), and every
field with its bits, access type (Table 0.4) and reset value, as the owning chapter's table gives them.
A field constant R.X_y names field y of register X; a register written as several words keeps one name. -/

namespace Sys2Proof.Machine

/-- A register field: the number of its register word in the register map, its lowest bit, its width, and its
reset value. -/
structure Fld where
  word : Nat
  lo : Nat
  width : Nat
  rst : Nat
  deriving DecidableEq, Repr

/-- Access types of Table 0.4; a locked field names its lock (Table 20.3). -/
inductive Access where
  | ro | rw | wc | ws | wo | lkBoot | lkAdmit
  deriving DecidableEq, Repr

/-- Reset domains of Table 20.2. The per-instance ones say which index of the register picks the die. -/
inductive RegDom where
  | lh | coreH | coreE | byRegion | byLink | byStack | byDie | byArb | hp
  deriving DecidableEq, Repr

/-- One field of the register map. -/
structure FieldRow where
  fld : Fld
  access : Access
  /-- Writable through BAR2 (Table 20.4, last column). -/
  bar2w : Bool := false
  /-- Hidden (reads zero) through BAR2 (Table 20.4). -/
  hidden : Bool := false
  deriving DecidableEq, Repr

/-- One 64-bit register word of the register map, with its instances: BAR0 offset of instance 0, and (count,
stride) of each index, outermost first. -/
structure RegWord where
  word : Nat
  name : String
  base : Nat
  dims : List (Nat × Nat)
  dom : RegDom
  bar2 : Bool
  fields : List FieldRow
  deriving DecidableEq, Repr

/-- A class S counter (R7): its count field, the register field that holds its sat bit, and the bit's place there. -/
structure Counter where
  cnt : Fld
  sat : Fld
  satBit : Nat
  deriving DecidableEq, Repr

/-- DEV_FUNC_MODE bits 0:0 (01 R24). -/
def R.DEV_FUNC_MODE_boot_src : Fld := ⟨0, 0, 1, 0⟩
/-- DEV_FUNC_MODE bits 1:1 (01 R24). -/
def R.DEV_FUNC_MODE_link_train : Fld := ⟨0, 1, 1, 0⟩
/-- DEV_FUNC_MODE bits 2:2 (01 R24). -/
def R.DEV_FUNC_MODE_time_servo : Fld := ⟨0, 2, 1, 0⟩
/-- DEV_FUNC_MODE bits 3:3 (01 R24). -/
def R.DEV_FUNC_MODE_weight_load : Fld := ⟨0, 3, 1, 0⟩
/-- DEV_FUNC_MODE bits 4:4 (01 R24). -/
def R.DEV_FUNC_MODE_eviction : Fld := ⟨0, 4, 1, 0⟩
/-- DEV_FUNC_MODE bits 5:5 (01 R24). -/
def R.DEV_FUNC_MODE_launch_relay : Fld := ⟨0, 5, 1, 0⟩
/-- DEV_FUNC_MODE bits 6:6 (01 R24). -/
def R.DEV_FUNC_MODE_drift_retry : Fld := ⟨0, 6, 1, 0⟩
/-- DEV_FUNC_MODE bits 7:7 (01 R24). -/
def R.DEV_FUNC_MODE_scrub_refetch : Fld := ⟨0, 7, 1, 0⟩
/-- DEV_FUNC_MODE bits 8:8 (01 R24). -/
def R.DEV_FUNC_MODE_admission : Fld := ⟨0, 8, 1, 0⟩
/-- DEV_FUNC_MODE bits 9:9 (01 R24). -/
def R.DEV_FUNC_MODE_budget_refill : Fld := ⟨0, 9, 1, 0⟩
/-- DEV_FUNC_MODE_ACTIVE bits 9:0 (01 R24). -/
def R.DEV_FUNC_MODE_ACTIVE_active : Fld := ⟨1, 0, 10, 0⟩
/-- TIDE_CTL bits 0:0 (02 R64). -/
def R.TIDE_CTL_overrun_policy : Fld := ⟨2, 0, 1, 1⟩
/-- TIDE_CTL bits 7:4 (02 R64). -/
def R.TIDE_CTL_lag_limit : Fld := ⟨2, 4, 4, 4⟩
/-- TIDE_CTL bits 19:8 (02 R64). -/
def R.TIDE_CTL_landing_grace : Fld := ⟨2, 8, 12, 400⟩
/-- TIDE_CTL bits 33:20 (02 R64). -/
def R.TIDE_CTL_tick_cap : Fld := ⟨2, 20, 14, 8192⟩
/-- TIDE_CTL bits 47:40 (02 R64). -/
def R.TIDE_CTL_wake_lead : Fld := ⟨2, 40, 8, 64⟩
/-- TIDE_PERIOD bits 20:0 (02 R64). -/
def R.TIDE_PERIOD_period : Fld := ⟨3, 0, 21, 196608⟩
/-- TIDE_ORIGIN bits 63:0 (02 R64). -/
def R.TIDE_ORIGIN_origin : Fld := ⟨4, 0, 64, 0⟩
/-- TIDE_NUMBER bits 47:0 (02 R64). -/
def R.TIDE_NUMBER_tide : Fld := ⟨5, 0, 48, 0⟩
/-- TIDE_STATUS bits 2:0 (02 R64). -/
def R.TIDE_STATUS_state : Fld := ⟨6, 0, 3, 0⟩
/-- TIDE_STATUS bits 3:3 (02 R64). -/
def R.TIDE_STATUS_lagging : Fld := ⟨6, 3, 1, 0⟩
/-- TIDE_STATUS bits 4:4 (02 R64). -/
def R.TIDE_STATUS_deferred : Fld := ⟨6, 4, 1, 0⟩
/-- TIDE_STATUS bits 20:5 (02 R64). -/
def R.TIDE_STATUS_hold_mask : Fld := ⟨6, 5, 16, 0⟩
/-- TIDE_LAG bits 31:0 (02 R64). -/
def R.TIDE_LAG_lag : Fld := ⟨7, 0, 32, 0⟩
/-- TIDE_LAG bits 63:32 (02 R64). -/
def R.TIDE_LAG_lag_peak : Fld := ⟨7, 32, 32, 0⟩
/-- TIDE_HOLD_LIMIT bits 21:0 (02 R64). -/
def R.TIDE_HOLD_LIMIT_limit : Fld := ⟨8, 0, 22, 196608⟩
/-- TIDE_FAULT bits 7:0 (02 R64). -/
def R.TIDE_FAULT_cause : Fld := ⟨9, 0, 8, 0⟩
/-- TIDE_FAULT bits 12:8 (02 R64). -/
def R.TIDE_FAULT_source : Fld := ⟨9, 8, 5, 0⟩
/-- TIDE_FAULT bits 13:13 (02 R64). -/
def R.TIDE_FAULT_more : Fld := ⟨9, 13, 1, 0⟩
/-- TIDE_FAULT bits 29:16 (02 R64). -/
def R.TIDE_FAULT_tick : Fld := ⟨9, 16, 14, 0⟩
/-- TIDE_LAUNCH bits 47:0 (02 R64). -/
def R.TIDE_LAUNCH_launch_tide : Fld := ⟨10, 0, 48, 0⟩
/-- TIDE_LAUNCH bits 48:48 (02 R64). -/
def R.TIDE_LAUNCH_valid : Fld := ⟨10, 48, 1, 0⟩
/-- TIDE_LAUNCH bits 49:49 (02 R64). -/
def R.TIDE_LAUNCH_late : Fld := ⟨10, 49, 1, 0⟩
/-- TIDE_COUNTS bits 15:0 (02 R64). -/
def R.TIDE_COUNTS_overruns : Fld := ⟨11, 0, 16, 0⟩
/-- TIDE_COUNTS bits 31:16 (02 R64). -/
def R.TIDE_COUNTS_lagged_starts : Fld := ⟨11, 16, 16, 0⟩
/-- TIDE_COUNTS bits 47:32 (02 R64). -/
def R.TIDE_COUNTS_late_landings : Fld := ⟨11, 32, 16, 0⟩
/-- TIDE_COUNTS bits 55:48 (02 R64). -/
def R.TIDE_COUNTS_stale_flits : Fld := ⟨11, 48, 8, 0⟩
/-- TIDE_COUNTS bits 59:56 (02 R64). -/
def R.TIDE_COUNTS_sat : Fld := ⟨11, 56, 4, 0⟩
/-- TIDE_COUNTS bits 63:63 (02 R64). -/
def R.TIDE_COUNTS_clear : Fld := ⟨11, 63, 1, 0⟩
/-- TIDE_REGION bits 31:0 (02 R64). -/
def R.TIDE_REGION_end_offset : Fld := ⟨12, 0, 32, 0⟩
/-- TIDE_REGION bits 47:32 (02 R64). -/
def R.TIDE_REGION_hold_ticks_last : Fld := ⟨12, 32, 16, 0⟩
/-- TIDE_HOLD_TICKS bits 47:0 (02 R64). -/
def R.TIDE_HOLD_TICKS_hold_ticks : Fld := ⟨13, 0, 48, 0⟩
/-- SEQ_STATUS bits 20:0 (03 R104). -/
def R.SEQ_STATUS_pc : Fld := ⟨14, 0, 21, 0⟩
/-- SEQ_STATUS bits 24:21 (03 R104). -/
def R.SEQ_STATUS_depth : Fld := ⟨14, 21, 4, 0⟩
/-- SEQ_STATUS bits 25:25 (03 R104). -/
def R.SEQ_STATUS_stream_hold : Fld := ⟨14, 25, 1, 0⟩
/-- SEQ_STATUS bits 26:26 (03 R104). -/
def R.SEQ_STATUS_loop_shadow : Fld := ⟨14, 26, 1, 0⟩
/-- SEQ_STATUS bits 27:27 (03 R104). -/
def R.SEQ_STATUS_ended : Fld := ⟨14, 27, 1, 0⟩
/-- SEQ_STATUS bits 45:32 (03 R104). -/
def R.SEQ_STATUS_tick : Fld := ⟨14, 32, 14, 0⟩
/-- SEQ_TARGET bits 31:0 (03 R104). -/
def R.SEQ_TARGET_target : Fld := ⟨15, 0, 32, 0⟩
/-- SEQ_TARGET bits 63:32 (03 R104). -/
def R.SEQ_TARGET_present : Fld := ⟨15, 32, 32, 0⟩
/-- SEQ_FAULT bits 7:0 (03 R104). -/
def R.SEQ_FAULT_cause : Fld := ⟨16, 0, 8, 0⟩
/-- SEQ_FAULT bits 8:8 (03 R104). -/
def R.SEQ_FAULT_more : Fld := ⟨16, 8, 1, 0⟩
/-- SEQ_FAULT bits 36:16 (03 R104). -/
def R.SEQ_FAULT_pc : Fld := ⟨16, 16, 21, 0⟩
/-- SEQ_FAULT bits 50:37 (03 R104). -/
def R.SEQ_FAULT_tick : Fld := ⟨16, 37, 14, 0⟩
/-- SEQ_STREAM bits 6:0 (03 R104). -/
def R.SEQ_STREAM_resident_pages : Fld := ⟨17, 0, 7, 0⟩
/-- SEQ_STREAM bits 13:7 (03 R104). -/
def R.SEQ_STREAM_ring_pages : Fld := ⟨17, 7, 7, 0⟩
/-- SEQ_STREAM bits 33:14 (03 R104). -/
def R.SEQ_STREAM_fill_page : Fld := ⟨17, 14, 20, 0⟩
/-- SEQ_STREAM bits 53:34 (03 R104). -/
def R.SEQ_STREAM_pc_page : Fld := ⟨17, 34, 20, 0⟩
/-- SEQ_COUNTS bits 15:0 (03 R104). -/
def R.SEQ_COUNTS_ceiling_clamps : Fld := ⟨18, 0, 16, 0⟩
/-- SEQ_COUNTS bits 31:16 (03 R104). -/
def R.SEQ_COUNTS_stream_holds : Fld := ⟨18, 16, 16, 0⟩
/-- SEQ_COUNTS bits 33:32 (03 R104). -/
def R.SEQ_COUNTS_sat : Fld := ⟨18, 32, 2, 0⟩
/-- SEQ_COUNTS bits 63:63 (03 R104). -/
def R.SEQ_COUNTS_clear : Fld := ⟨18, 63, 1, 0⟩
/-- SEQ_SHADOW_TICKS bits 47:0 (03 R104). -/
def R.SEQ_SHADOW_TICKS_shadow_ticks : Fld := ⟨19, 0, 48, 0⟩
/-- SEQ_LEAD_CELL bits 4:0 (03 R104). -/
def R.SEQ_LEAD_CELL_cell : Fld := ⟨20, 0, 5, 0⟩
/-- SEQ_LOOP_COUNT bits 31:0 (03 R104). -/
def R.SEQ_LOOP_COUNT_count : Fld := ⟨21, 0, 32, 0⟩
/-- SEQ_CIX bits 23:0 (03 R104). -/
def R.SEQ_CIX_index : Fld := ⟨22, 0, 24, 0⟩
/-- SEQ_ARITH bits 23:0 (04 R140). -/
def R.SEQ_ARITH_below : Fld := ⟨23, 0, 24, 0⟩
/-- SEQ_ARITH bits 39:24 (04 R140). -/
def R.SEQ_ARITH_range_lanes : Fld := ⟨23, 24, 16, 0⟩
/-- SEQ_ARITH bits 51:40 (04 R140). -/
def R.SEQ_ARITH_special_lanes : Fld := ⟨23, 40, 12, 0⟩
/-- SEQ_ARITH bits 54:52 (04 R140). -/
def R.SEQ_ARITH_sat : Fld := ⟨23, 52, 3, 0⟩
/-- SEQ_ARITH bits 63:63 (04 R140). -/
def R.SEQ_ARITH_clear : Fld := ⟨23, 63, 1, 0⟩
/-- SEQ_ARITH_FIRST bits 20:0 (04 R140). -/
def R.SEQ_ARITH_FIRST_pc : Fld := ⟨24, 0, 21, 0⟩
/-- SEQ_ARITH_FIRST bits 34:21 (04 R140). -/
def R.SEQ_ARITH_FIRST_tick : Fld := ⟨24, 21, 14, 0⟩
/-- SEQ_ARITH_FIRST bits 39:35 (04 R140). -/
def R.SEQ_ARITH_FIRST_cell : Fld := ⟨24, 35, 5, 0⟩
/-- SEQ_ARITH_FIRST bits 42:40 (04 R140). -/
def R.SEQ_ARITH_FIRST_array : Fld := ⟨24, 40, 3, 0⟩
/-- SEQ_ARITH_FIRST bits 44:43 (04 R140). -/
def R.SEQ_ARITH_FIRST_set : Fld := ⟨24, 43, 2, 0⟩
/-- SEQ_ARITH_FIRST bits 45:45 (04 R140). -/
def R.SEQ_ARITH_FIRST_valid : Fld := ⟨24, 45, 1, 0⟩
/-- DEV_TIMING_CHOICE_COUNT bits 30:0 (04 R140). -/
def R.DEV_TIMING_CHOICE_COUNT_collisions : Fld := ⟨25, 0, 31, 0⟩
/-- DEV_TIMING_CHOICE_COUNT bits 31:31 (04 R140). -/
def R.DEV_TIMING_CHOICE_COUNT_collisions_sat : Fld := ⟨25, 31, 1, 0⟩
/-- DEV_TIMING_CHOICE_COUNT bits 62:32 (04 R140). -/
def R.DEV_TIMING_CHOICE_COUNT_first_ready : Fld := ⟨25, 32, 31, 0⟩
/-- DEV_TIMING_CHOICE_COUNT bits 63:63 (04 R140). -/
def R.DEV_TIMING_CHOICE_COUNT_first_ready_sat : Fld := ⟨25, 63, 1, 0⟩
/-- SP_SEG_CLASS bits 63:0 (05 R166). -/
def R.SP_SEG_CLASS_weight : Fld := ⟨26, 0, 64, 0⟩
/-- SP_COUNTS bits 15:0 (05 R166). -/
def R.SP_COUNTS_corrected : Fld := ⟨27, 0, 16, 0⟩
/-- SP_COUNTS bits 23:16 (05 R166). -/
def R.SP_COUNTS_uncorrectable : Fld := ⟨27, 16, 8, 0⟩
/-- SP_COUNTS bits 39:24 (05 R166). -/
def R.SP_COUNTS_slips : Fld := ⟨27, 24, 16, 0⟩
/-- SP_COUNTS bits 55:40 (05 R166). -/
def R.SP_COUNTS_harbour_violations : Fld := ⟨27, 40, 16, 0⟩
/-- SP_COUNTS bits 59:56 (05 R166). -/
def R.SP_COUNTS_sat : Fld := ⟨27, 56, 4, 0⟩
/-- SP_COUNTS bits 63:63 (05 R166). -/
def R.SP_COUNTS_clear : Fld := ⟨27, 63, 1, 0⟩
/-- SP_ECC_LAST bits 18:0 (05 R166). -/
def R.SP_ECC_LAST_word : Fld := ⟨28, 0, 19, 0⟩
/-- SP_ECC_LAST bits 19:19 (05 R166). -/
def R.SP_ECC_LAST_weight : Fld := ⟨28, 19, 1, 0⟩
/-- SP_ECC_LAST bits 20:20 (05 R166). -/
def R.SP_ECC_LAST_uncorrectable : Fld := ⟨28, 20, 1, 0⟩
/-- SP_ECC_LAST bits 22:21 (05 R166). -/
def R.SP_ECC_LAST_bits : Fld := ⟨28, 21, 2, 0⟩
/-- SP_ECC_LAST bits 23:23 (05 R166). -/
def R.SP_ECC_LAST_valid : Fld := ⟨28, 23, 1, 0⟩
/-- SP_SLIP_FIRST bits 20:0 (05 R166). -/
def R.SP_SLIP_FIRST_pc : Fld := ⟨29, 0, 21, 0⟩
/-- SP_SLIP_FIRST bits 34:21 (05 R166). -/
def R.SP_SLIP_FIRST_tick : Fld := ⟨29, 21, 14, 0⟩
/-- SP_SLIP_FIRST bits 39:35 (05 R166). -/
def R.SP_SLIP_FIRST_bank : Fld := ⟨29, 35, 5, 0⟩
/-- SP_SLIP_FIRST bits 40:40 (05 R166). -/
def R.SP_SLIP_FIRST_valid : Fld := ⟨29, 40, 1, 0⟩
/-- SP_HARBOUR_LAST bits 19:0 (05 R166). -/
def R.SP_HARBOUR_LAST_device : Fld := ⟨30, 0, 20, 0⟩
/-- SP_HARBOUR_LAST bits 41:20 (05 R166). -/
def R.SP_HARBOUR_LAST_offset : Fld := ⟨30, 20, 22, 0⟩
/-- SP_HARBOUR_LAST bits 43:42 (05 R166). -/
def R.SP_HARBOUR_LAST_source : Fld := ⟨30, 42, 2, 0⟩
/-- SP_HARBOUR_LAST bits 44:44 (05 R166). -/
def R.SP_HARBOUR_LAST_write : Fld := ⟨30, 44, 1, 0⟩
/-- SP_HARBOUR_LAST bits 45:45 (05 R166). -/
def R.SP_HARBOUR_LAST_valid : Fld := ⟨30, 45, 1, 0⟩
/-- SP_SEG_BAD bits 63:0 (05 R166). -/
def R.SP_SEG_BAD_bad : Fld := ⟨31, 0, 64, 0⟩
/-- SP_HARBOUR bits 0:0 (05 R166). -/
def R.SP_HARBOUR_open : Fld := ⟨32, 0, 1, 0⟩
/-- SP_HARBOUR bits 7:4 (05 R166). -/
def R.SP_HARBOUR_write_rights : Fld := ⟨32, 4, 4, 0⟩
/-- SP_HARBOUR bits 11:8 (05 R166). -/
def R.SP_HARBOUR_read_rights : Fld := ⟨32, 8, 4, 0⟩
/-- SP_HARBOUR bits 31:16 (05 R166). -/
def R.SP_HARBOUR_base : Fld := ⟨32, 16, 16, 0⟩
/-- SP_HARBOUR bits 48:32 (05 R166). -/
def R.SP_HARBOUR_size : Fld := ⟨32, 32, 17, 0⟩
/-- HB_AREA bits 23:0 (06 R205). -/
def R.HB_AREA_base : Fld := ⟨33, 0, 24, 0⟩
/-- HB_AREA bits 47:24 (06 R205). -/
def R.HB_AREA_size : Fld := ⟨33, 24, 24, 0⟩
/-- HB_ECC_COUNTS bits 23:0 (06 R205). -/
def R.HB_ECC_COUNTS_corrected : Fld := ⟨34, 0, 24, 0⟩
/-- HB_ECC_COUNTS bits 39:24 (06 R205). -/
def R.HB_ECC_COUNTS_uncorrectable : Fld := ⟨34, 24, 16, 0⟩
/-- HB_ECC_COUNTS bits 41:40 (06 R205). -/
def R.HB_ECC_COUNTS_sat : Fld := ⟨34, 40, 2, 0⟩
/-- HB_ECC_COUNTS bits 63:63 (06 R205). -/
def R.HB_ECC_COUNTS_clear : Fld := ⟨34, 63, 1, 0⟩
/-- HB_ECC_LAST bits 38:0 (06 R205). -/
def R.HB_ECC_LAST_address : Fld := ⟨35, 0, 39, 0⟩
/-- HB_ECC_LAST bits 41:39 (06 R205). -/
def R.HB_ECC_LAST_area : Fld := ⟨35, 39, 3, 0⟩
/-- HB_ECC_LAST bits 43:42 (06 R205). -/
def R.HB_ECC_LAST_found_by : Fld := ⟨35, 42, 2, 0⟩
/-- HB_ECC_LAST bits 44:44 (06 R205). -/
def R.HB_ECC_LAST_valid : Fld := ⟨35, 44, 1, 0⟩
/-- HB_SCRUB bits 7:0 (06 R205). -/
def R.HB_SCRUB_period : Fld := ⟨36, 0, 8, 12⟩
/-- HB_SCRUB bits 8:8 (06 R205). -/
def R.HB_SCRUB_enable : Fld := ⟨36, 8, 1, 1⟩
/-- HB_RESERVE bits 5:0 (06 R205). -/
def R.HB_RESERVE_slots : Fld := ⟨37, 0, 6, 0⟩
/-- FERRY_RING_BASE bits 63:0 (06 R205). -/
def R.FERRY_RING_BASE_base : Fld := ⟨38, 0, 64, 0⟩
/-- FERRY_RING_CTL bits 2:0 (06 R205). -/
def R.FERRY_RING_CTL_size : Fld := ⟨39, 0, 3, 0⟩
/-- FERRY_RING_CTL bits 3:3 (06 R205). -/
def R.FERRY_RING_CTL_enable : Fld := ⟨39, 3, 1, 0⟩
/-- FERRY_RING_TAIL bits 11:0 (06 R205). -/
def R.FERRY_RING_TAIL_tail : Fld := ⟨40, 0, 12, 0⟩
/-- FERRY_RING_HEAD bits 11:0 (06 R205). -/
def R.FERRY_RING_HEAD_head : Fld := ⟨41, 0, 12, 0⟩
/-- FERRY_CTL bits 13:0 (06 R205). -/
def R.FERRY_CTL_host_wait : Fld := ⟨42, 0, 14, 100⟩
/-- FERRY_CTL bits 23:14 (06 R205). -/
def R.FERRY_CTL_rehash_interval : Fld := ⟨42, 14, 10, 24⟩
/-- FERRY_CTL bits 32:24 (06 R205). -/
def R.FERRY_CTL_rehash_rate : Fld := ⟨42, 24, 9, 10⟩
/-- FERRY_COUNTS bits 23:0 (06 R205). -/
def R.FERRY_COUNTS_verified : Fld := ⟨43, 0, 24, 0⟩
/-- FERRY_COUNTS bits 39:24 (06 R205). -/
def R.FERRY_COUNTS_bad : Fld := ⟨43, 24, 16, 0⟩
/-- FERRY_COUNTS bits 55:40 (06 R205). -/
def R.FERRY_COUNTS_repaired : Fld := ⟨43, 40, 16, 0⟩
/-- FERRY_COUNTS bits 58:56 (06 R205). -/
def R.FERRY_COUNTS_sat : Fld := ⟨43, 56, 3, 0⟩
/-- FERRY_COUNTS bits 63:63 (06 R205). -/
def R.FERRY_COUNTS_clear : Fld := ⟨43, 63, 1, 0⟩
/-- FERRY_MODEL_CMD bits 6:0 (06 R205). -/
def R.FERRY_MODEL_CMD_entry : Fld := ⟨44, 0, 7, 0⟩
/-- FERRY_MODEL_CMD bits 9:7 (06 R205). -/
def R.FERRY_MODEL_CMD_action : Fld := ⟨44, 7, 3, 0⟩
/-- FERRY_MODEL_W0 bits 63:0 (06 R205). -/
def R.FERRY_MODEL_model_id : Fld := ⟨45, 0, 64, 0⟩
/-- FERRY_MODEL_W1 bits 31:0 (06 R205). -/
def R.FERRY_MODEL_generation : Fld := ⟨46, 0, 32, 0⟩
/-- FERRY_MODEL_W1 bits 37:32 (06 R205). -/
def R.FERRY_MODEL_key_index : Fld := ⟨46, 32, 6, 0⟩
/-- FERRY_MODEL_W1 bits 39:38 (06 R205). -/
def R.FERRY_MODEL_die_mask : Fld := ⟨46, 38, 2, 0⟩
/-- FERRY_MODEL_W1 bits 40:40 (06 R205). -/
def R.FERRY_MODEL_pin : Fld := ⟨46, 40, 1, 0⟩
/-- FERRY_MODEL_W1 bits 43:41 (06 R205). -/
def R.FERRY_MODEL_state : Fld := ⟨46, 41, 3, 0⟩
/-- FERRY_MODEL_W2 bits 39:0 (06 R205). -/
def R.FERRY_MODEL_size : Fld := ⟨47, 0, 40, 0⟩
/-- FERRY_MODEL_W2 bits 63:40 (06 R205). -/
def R.FERRY_MODEL_shard_count : Fld := ⟨47, 40, 24, 0⟩
/-- FERRY_MODEL_W3 bits 38:0 (06 R205). -/
def R.FERRY_MODEL_est_base : Fld := ⟨48, 0, 39, 0⟩
/-- FERRY_MODEL_W4 bits 38:0 (06 R205). -/
def R.FERRY_MODEL_head_base : Fld := ⟨49, 0, 39, 0⟩
/-- FERRY_MODEL_W5 bits 63:0 (06 R205). -/
def R.FERRY_MODEL_manifest : Fld := ⟨50, 0, 64, 0⟩
/-- FERRY_MODEL_W6 bits 47:0 (06 R205). -/
def R.FERRY_MODEL_last_use : Fld := ⟨51, 0, 48, 0⟩
/-- FERRY_MODEL_W6 bits 63:48 (06 R205). -/
def R.FERRY_MODEL_users : Fld := ⟨51, 48, 16, 0⟩
/-- FERRY_MODEL_W7 bits 15:0 (06 R205). -/
def R.FERRY_MODEL_bad_copies : Fld := ⟨52, 0, 16, 0⟩
/-- FERRY_MODEL_W7 bits 47:16 (06 R205). -/
def R.FERRY_MODEL_verified_shards : Fld := ⟨52, 16, 32, 0⟩
/-- SVC_CTL bits 0:0 (07 R241). -/
def R.SVC_CTL_enable : Fld := ⟨53, 0, 1, 0⟩
/-- SVC_CTL bits 8:1 (07 R241). -/
def R.SVC_CTL_admit_max : Fld := ⟨53, 1, 8, 32⟩
/-- SVC_CTL bits 24:9 (07 R241). -/
def R.SVC_CTL_model_wait : Fld := ⟨53, 9, 16, 2000⟩
/-- SVC_CTL bits 38:25 (07 R241). -/
def R.SVC_CTL_host_wait : Fld := ⟨53, 25, 14, 100⟩
/-- SVC_CTL bits 42:39 (07 R241). -/
def R.SVC_CTL_retry : Fld := ⟨53, 39, 4, 1⟩
/-- SVC_CTL bits 50:43 (07 R241). -/
def R.SVC_CTL_switch_lead : Fld := ⟨53, 43, 8, 4⟩
/-- SVC_STATUS bits 2:0 (07 R241). -/
def R.SVC_STATUS_state : Fld := ⟨54, 0, 3, 0⟩
/-- SVC_STATUS bits 6:3 (07 R241). -/
def R.SVC_STATUS_plan : Fld := ⟨54, 3, 4, 0⟩
/-- SVC_STATUS bits 55:8 (07 R241). -/
def R.SVC_STATUS_step : Fld := ⟨54, 8, 48, 0⟩
/-- SVC_COUNTS bits 15:0 (07 R241). -/
def R.SVC_COUNTS_admitted : Fld := ⟨55, 0, 16, 0⟩
/-- SVC_COUNTS bits 31:16 (07 R241). -/
def R.SVC_COUNTS_rejected : Fld := ⟨55, 16, 16, 0⟩
/-- SVC_COUNTS bits 39:32 (07 R241). -/
def R.SVC_COUNTS_steps_lost : Fld := ⟨55, 32, 8, 0⟩
/-- SVC_COUNTS bits 55:40 (07 R241). -/
def R.SVC_COUNTS_page_holds : Fld := ⟨55, 40, 16, 0⟩
/-- SVC_COUNTS bits 59:56 (07 R241). -/
def R.SVC_COUNTS_sat : Fld := ⟨55, 56, 4, 0⟩
/-- SVC_COUNTS bits 63:63 (07 R241). -/
def R.SVC_COUNTS_clear : Fld := ⟨55, 63, 1, 0⟩
/-- SVC_ADMIT_PENDING bits 15:0 (07 R241). -/
def R.SVC_ADMIT_PENDING_rings : Fld := ⟨56, 0, 16, 0⟩
/-- SVC_ADMIT_DECISION bits 3:0 (07 R241). -/
def R.SVC_ADMIT_DECISION_ring : Fld := ⟨57, 0, 4, 0⟩
/-- SVC_ADMIT_DECISION bits 5:4 (07 R241). -/
def R.SVC_ADMIT_DECISION_action : Fld := ⟨57, 4, 2, 0⟩
/-- SVC_RECORD_BASE bits 63:0 (07 R241). -/
def R.SVC_RECORD_BASE_base : Fld := ⟨58, 0, 64, 0⟩
/-- SVC_RESULT_BASE bits 63:0 (07 R241). -/
def R.SVC_RESULT_BASE_base : Fld := ⟨59, 0, 64, 0⟩
/-- SVC_KV_POOL bits 23:0 (07 R241). -/
def R.SVC_KV_POOL_free : Fld := ⟨60, 0, 24, 0⟩
/-- SVC_KV_POOL bits 47:24 (07 R241). -/
def R.SVC_KV_POOL_frames : Fld := ⟨60, 24, 24, 0⟩
/-- SVC_KV_CTL bits 6:0 (07 R241). -/
def R.SVC_KV_CTL_low_water : Fld := ⟨61, 0, 7, 5⟩
/-- SVC_KV_CTL bits 13:7 (07 R241). -/
def R.SVC_KV_CTL_high_water : Fld := ⟨61, 7, 7, 10⟩
/-- SVC_KV_CTL bits 37:14 (07 R241). -/
def R.SVC_KV_CTL_stage_frames : Fld := ⟨61, 14, 24, 1024⟩
/-- SVC_KV_CTL bits 38:38 (07 R241). -/
def R.SVC_KV_CTL_slow_enable : Fld := ⟨61, 38, 1, 0⟩
/-- SVC_KV_CTL bits 62:39 (07 R241). -/
def R.SVC_KV_CTL_slow_frames : Fld := ⟨61, 39, 24, 0⟩
/-- SVC_KV_SLOW_BASE bits 63:0 (07 R241). -/
def R.SVC_KV_SLOW_BASE_base : Fld := ⟨62, 0, 64, 0⟩
/-- SVC_LOG_BASE bits 63:0 (07 R241). -/
def R.SVC_LOG_BASE_base : Fld := ⟨63, 0, 64, 0⟩
/-- SVC_LOG_CTL bits 4:0 (07 R241). -/
def R.SVC_LOG_CTL_size : Fld := ⟨64, 0, 5, 16⟩
/-- SVC_LOG_CTL bits 25:5 (07 R241). -/
def R.SVC_LOG_CTL_prompt_max : Fld := ⟨64, 5, 21, 4096⟩
/-- SVC_LOG_CTL bits 26:26 (07 R241). -/
def R.SVC_LOG_CTL_enable : Fld := ⟨64, 26, 1, 0⟩
/-- SVC_LOG_CTL bits 47:32 (07 R241). -/
def R.SVC_LOG_CTL_lost : Fld := ⟨64, 32, 16, 0⟩
/-- SVC_LOG_CTL bits 48:48 (07 R241). -/
def R.SVC_LOG_CTL_lost_sat : Fld := ⟨64, 48, 1, 0⟩
/-- SVC_LOG_HEAD bits 31:0 (07 R241). -/
def R.SVC_LOG_HEAD_head : Fld := ⟨65, 0, 32, 0⟩
/-- SVC_LOG_TAIL bits 31:0 (07 R241). -/
def R.SVC_LOG_TAIL_tail : Fld := ⟨66, 0, 32, 0⟩
/-- SVC_PLAN_W0 bits 63:0 (07 R241). -/
def R.SVC_PLAN_image : Fld := ⟨67, 0, 64, 0⟩
/-- SVC_PLAN_W1 bits 6:0 (07 R241). -/
def R.SVC_PLAN_model : Fld := ⟨68, 0, 7, 0⟩
/-- SVC_PLAN_W1 bits 15:8 (07 R241). -/
def R.SVC_PLAN_quantum : Fld := ⟨68, 8, 8, 8⟩
/-- SVC_PLAN_W1 bits 31:16 (07 R241). -/
def R.SVC_PLAN_step_tides : Fld := ⟨68, 16, 16, 1⟩
/-- SVC_PLAN_W1 bits 40:32 (07 R241). -/
def R.SVC_PLAN_decode_width : Fld := ⟨68, 32, 9, 0⟩
/-- SVC_PLAN_W1 bits 46:41 (07 R241). -/
def R.SVC_PLAN_prefill_width : Fld := ⟨68, 41, 6, 0⟩
/-- SVC_PLAN_W1 bits 52:47 (07 R241). -/
def R.SVC_PLAN_prefill_units : Fld := ⟨68, 47, 6, 0⟩
/-- SVC_PLAN_W1 bits 60:53 (07 R241). -/
def R.SVC_PLAN_layers : Fld := ⟨68, 53, 8, 1⟩
/-- SVC_PLAN_W1 bits 63:63 (07 R241). -/
def R.SVC_PLAN_enable : Fld := ⟨68, 63, 1, 0⟩
/-- SVC_PLAN_W2 bits 15:0 (07 R241). -/
def R.SVC_PLAN_page_ceiling : Fld := ⟨69, 0, 16, 1⟩
/-- SVC_PLAN_W2 bits 31:16 (07 R241). -/
def R.SVC_PLAN_tokens_per_page : Fld := ⟨69, 16, 16, 1⟩
/-- SVC_PLAN_W2 bits 63:32 (07 R241). -/
def R.SVC_PLAN_eos : Fld := ⟨69, 32, 32, 0⟩
/-- SVC_INTAKE_W0 bits 63:0 (07 R241). -/
def R.SVC_INTAKE_base : Fld := ⟨70, 0, 64, 0⟩
/-- SVC_INTAKE_CTL bits 3:0 (07 R241). -/
def R.SVC_INTAKE_size : Fld := ⟨71, 0, 4, 0⟩
/-- SVC_INTAKE_CTL bits 4:4 (07 R241). -/
def R.SVC_INTAKE_enable : Fld := ⟨71, 4, 1, 0⟩
/-- SVC_INTAKE_TAIL bits 11:0 (07 R241). -/
def R.SVC_INTAKE_tail : Fld := ⟨72, 0, 12, 0⟩
/-- SVC_INTAKE_HEAD bits 11:0 (07 R241). -/
def R.SVC_INTAKE_head : Fld := ⟨73, 0, 12, 0⟩
/-- SVC_SLOT bits 2:0 (07 R241). -/
def R.SVC_SLOT_state : Fld := ⟨74, 0, 3, 0⟩
/-- SVC_SLOT bits 6:3 (07 R241). -/
def R.SVC_SLOT_plan : Fld := ⟨74, 3, 4, 0⟩
/-- SVC_SLOT bits 11:7 (07 R241). -/
def R.SVC_SLOT_lane : Fld := ⟨74, 7, 5, 0⟩
/-- SVC_SLOT bits 13:12 (07 R241). -/
def R.SVC_SLOT_held : Fld := ⟨74, 12, 2, 0⟩
/-- SVC_SLOT bits 55:16 (07 R241). -/
def R.SVC_SLOT_committed : Fld := ⟨74, 16, 40, 0⟩
/-- SVC_BUDGET_CTL bits 15:0 (08 R269). -/
def R.SVC_BUDGET_CTL_refill_period : Fld := ⟨75, 0, 16, 1000⟩
/-- SVC_BUDGET_CTL bits 23:16 (08 R269). -/
def R.SVC_BUDGET_CTL_hold_limit : Fld := ⟨75, 16, 8, 64⟩
/-- SVC_BUDGET_ADJ bits 11:0 (08 R269). -/
def R.SVC_BUDGET_ADJ_customer : Fld := ⟨76, 0, 12, 0⟩
/-- SVC_BUDGET_ADJ bits 59:12 (08 R269). -/
def R.SVC_BUDGET_ADJ_delta : Fld := ⟨76, 12, 48, 0⟩
/-- SVC_METER_FEED bits 12:0 (08 R269). -/
def R.SVC_METER_FEED_queued : Fld := ⟨77, 0, 13, 0⟩
/-- SVC_METER_FEED bits 13:13 (08 R269). -/
def R.SVC_METER_FEED_stalled : Fld := ⟨77, 13, 1, 0⟩
/-- SVC_OUT_W0 bits 63:0 (08 R269). -/
def R.SVC_OUT_base : Fld := ⟨78, 0, 64, 0⟩
/-- SVC_OUT_CTL bits 3:0 (08 R269). -/
def R.SVC_OUT_size : Fld := ⟨79, 0, 4, 0⟩
/-- SVC_OUT_CTL bits 4:4 (08 R269). -/
def R.SVC_OUT_enable : Fld := ⟨79, 4, 1, 0⟩
/-- SVC_OUT_CTL bits 10:5 (08 R269). -/
def R.SVC_OUT_vector : Fld := ⟨79, 5, 6, 0⟩
/-- SVC_OUT_TAIL_ADDR bits 63:0 (08 R269). -/
def R.SVC_OUT_addr : Fld := ⟨80, 0, 64, 0⟩
/-- SVC_OUT_HEAD bits 18:0 (08 R269). -/
def R.SVC_OUT_head : Fld := ⟨81, 0, 19, 0⟩
/-- SVC_OUT_HEAD bits 38:19 (08 R269). -/
def R.SVC_OUT_tail : Fld := ⟨81, 19, 20, 0⟩
/-- SVC_BUDGET_W0 bits 47:0 (08 R269). -/
def R.SVC_BUDGET_balance : Fld := ⟨82, 0, 48, 0⟩
/-- SVC_BUDGET_W1 bits 15:0 (08 R269). -/
def R.SVC_BUDGET_reserved : Fld := ⟨83, 0, 16, 0⟩
/-- SVC_BUDGET_W1 bits 23:16 (08 R269). -/
def R.SVC_BUDGET_tenant : Fld := ⟨83, 16, 8, 0⟩
/-- SVC_BUDGET_W1 bits 24:24 (08 R269). -/
def R.SVC_BUDGET_enable : Fld := ⟨83, 24, 1, 0⟩
/-- SVC_BUDGET_W1 bits 25:25 (08 R269). -/
def R.SVC_BUDGET_unlimited : Fld := ⟨83, 25, 1, 0⟩
/-- SVC_BUDGET_W1 bits 26:26 (08 R269). -/
def R.SVC_BUDGET_low : Fld := ⟨83, 26, 1, 0⟩
/-- SVC_BUDGET_W1 bits 34:27 (08 R269). -/
def R.SVC_BUDGET_budget_holds : Fld := ⟨83, 27, 8, 0⟩
/-- SVC_BUDGET_W2 bits 46:0 (08 R269). -/
def R.SVC_BUDGET_refill_cap : Fld := ⟨84, 0, 47, 0⟩
/-- SVC_BUDGET_W3 bits 31:0 (08 R269). -/
def R.SVC_BUDGET_refill_amount : Fld := ⟨85, 0, 32, 0⟩
/-- SVC_BUDGET_W3 bits 63:32 (08 R269). -/
def R.SVC_BUDGET_low_mark : Fld := ⟨85, 32, 32, 0⟩
/-- IST_CTL bits 3:0 (09 R282). -/
def R.IST_CTL_replay_limit : Fld := ⟨86, 0, 4, 8⟩
/-- IST_CTL bits 7:4 (09 R282). -/
def R.IST_CTL_retrain_max : Fld := ⟨86, 4, 4, 3⟩
/-- IST_STATUS bits 1:0 (09 R282). -/
def R.IST_STATUS_state : Fld := ⟨87, 0, 2, 0⟩
/-- IST_STATUS bits 15:8 (09 R282). -/
def R.IST_STATUS_modules : Fld := ⟨87, 8, 8, 0⟩
/-- IST_STATUS bits 16:16 (09 R282). -/
def R.IST_STATUS_sb_locked : Fld := ⟨87, 16, 1, 0⟩
/-- IST_RESERVE bits 4:0 (09 R282). -/
def R.IST_RESERVE_reserved : Fld := ⟨88, 0, 5, 0⟩
/-- IST_RESERVE bits 12:8 (09 R282). -/
def R.IST_RESERVE_capacity : Fld := ⟨88, 8, 5, 0⟩
/-- IST_COUNTS bits 23:0 (09 R282). -/
def R.IST_COUNTS_crc_errors : Fld := ⟨89, 0, 24, 0⟩
/-- IST_COUNTS bits 31:24 (09 R282). -/
def R.IST_COUNTS_retrains : Fld := ⟨89, 24, 8, 0⟩
/-- IST_COUNTS bits 47:32 (09 R282). -/
def R.IST_COUNTS_sb_frames_lost : Fld := ⟨89, 32, 16, 0⟩
/-- IST_COUNTS bits 55:48 (09 R282). -/
def R.IST_COUNTS_lane_repairs : Fld := ⟨89, 48, 8, 0⟩
/-- IST_COUNTS bits 59:56 (09 R282). -/
def R.IST_COUNTS_sat : Fld := ⟨89, 56, 4, 0⟩
/-- IST_COUNTS bits 63:63 (09 R282). -/
def R.IST_COUNTS_clear : Fld := ⟨89, 63, 1, 0⟩
/-- IST_SB bits 15:0 (09 R282). -/
def R.IST_SB_offset : Fld := ⟨90, 0, 16, 0⟩
/-- IST_SB bits 31:16 (09 R282). -/
def R.IST_SB_delay : Fld := ⟨90, 16, 16, 0⟩
/-- CW_CTL bits 13:0 (10 R316). -/
def R.CW_CTL_down_time : Fld := ⟨91, 0, 14, 100⟩
/-- CW_CTL bits 23:14 (10 R316). -/
def R.CW_CTL_ack_timeout : Fld := ⟨91, 14, 10, 40⟩
/-- CW_CTL bits 39:24 (10 R316). -/
def R.CW_CTL_lane_err_limit : Fld := ⟨91, 24, 16, 4096⟩
/-- CW_TRAIN bits 10:0 (10 R316). -/
def R.CW_TRAIN_train_timeout : Fld := ⟨92, 0, 11, 200⟩
/-- CW_TRAIN bits 26:11 (10 R316). -/
def R.CW_TRAIN_retry_wait : Fld := ⟨92, 11, 16, 1000⟩
/-- CW_TRAIN bits 30:27 (10 R316). -/
def R.CW_TRAIN_flap_limit : Fld := ⟨92, 27, 4, 4⟩
/-- CW_TRAIN bits 38:31 (10 R316). -/
def R.CW_TRAIN_flap_window : Fld := ⟨92, 31, 8, 60⟩
/-- CW_TRAIN bits 46:39 (10 R316). -/
def R.CW_TRAIN_damp_time : Fld := ⟨92, 39, 8, 60⟩
/-- CW_TRAIN bits 60:47 (10 R316). -/
def R.CW_TRAIN_host_wait : Fld := ⟨92, 47, 14, 100⟩
/-- CW_FENCE bits 0:0 (10 R316). -/
def R.CW_FENCE_fence : Fld := ⟨93, 0, 1, 1⟩
/-- CW_STATUS bits 2:0 (10 R316). -/
def R.CW_STATUS_state : Fld := ⟨94, 0, 3, 0⟩
/-- CW_STATUS bits 6:3 (10 R316). -/
def R.CW_STATUS_width : Fld := ⟨94, 3, 4, 0⟩
/-- CW_STATUS bits 10:7 (10 R316). -/
def R.CW_STATUS_tx_width : Fld := ⟨94, 7, 4, 0⟩
/-- CW_STATUS bits 14:11 (10 R316). -/
def R.CW_STATUS_cause : Fld := ⟨94, 11, 4, 0⟩
/-- CW_STATUS bits 15:15 (10 R316). -/
def R.CW_STATUS_lock : Fld := ⟨94, 15, 1, 0⟩
/-- CW_STATUS bits 16:16 (10 R316). -/
def R.CW_STATUS_spill_active : Fld := ⟨94, 16, 1, 0⟩
/-- CW_STATUS bits 17:17 (10 R316). -/
def R.CW_STATUS_drift_stopped : Fld := ⟨94, 17, 1, 0⟩
/-- CW_STATUS bits 18:18 (10 R316). -/
def R.CW_STATUS_replaying : Fld := ⟨94, 18, 1, 0⟩
/-- CW_LANES bits 8:0 (10 R316). -/
def R.CW_LANES_rx_active : Fld := ⟨95, 0, 9, 0⟩
/-- CW_LANES bits 17:9 (10 R316). -/
def R.CW_LANES_rx_failed : Fld := ⟨95, 9, 9, 0⟩
/-- CW_LANES bits 26:18 (10 R316). -/
def R.CW_LANES_tx_active : Fld := ⟨95, 18, 9, 0⟩
/-- CW_LANES bits 35:27 (10 R316). -/
def R.CW_LANES_tx_failed : Fld := ⟨95, 27, 9, 0⟩
/-- CW_LANES bits 36:36 (10 R316). -/
def R.CW_LANES_rx_spare_used : Fld := ⟨95, 36, 1, 0⟩
/-- CW_LANES bits 37:37 (10 R316). -/
def R.CW_LANES_tx_spare_used : Fld := ⟨95, 37, 1, 0⟩
/-- CW_PEER_EXPECT bits 19:0 (10 R316). -/
def R.CW_PEER_EXPECT_device : Fld := ⟨96, 0, 20, 0⟩
/-- CW_PEER_EXPECT bits 22:20 (10 R316). -/
def R.CW_PEER_EXPECT_link : Fld := ⟨96, 20, 3, 0⟩
/-- CW_PEER_EXPECT bits 23:23 (10 R316). -/
def R.CW_PEER_EXPECT_check : Fld := ⟨96, 23, 1, 0⟩
/-- CW_PEER bits 19:0 (10 R316). -/
def R.CW_PEER_device : Fld := ⟨97, 0, 20, 0⟩
/-- CW_PEER bits 22:20 (10 R316). -/
def R.CW_PEER_link : Fld := ⟨97, 20, 3, 0⟩
/-- CW_PEER bits 23:23 (10 R316). -/
def R.CW_PEER_valid : Fld := ⟨97, 23, 1, 0⟩
/-- CW_PEER bits 27:24 (10 R316). -/
def R.CW_PEER_beacon : Fld := ⟨97, 24, 4, 0⟩
/-- CW_RESERVE bits 15:0 (10 R316). -/
def R.CW_RESERVE_reserved : Fld := ⟨98, 0, 16, 0⟩
/-- CW_RESERVE bits 31:16 (10 R316). -/
def R.CW_RESERVE_capacity : Fld := ⟨98, 16, 16, 0⟩
/-- CW_REPLAY bits 11:0 (10 R316). -/
def R.CW_REPLAY_store : Fld := ⟨99, 0, 12, 0⟩
/-- CW_REPLAY bits 30:12 (10 R316). -/
def R.CW_REPLAY_spill : Fld := ⟨99, 12, 19, 0⟩
/-- CW_REPLAY bits 45:31 (10 R316). -/
def R.CW_REPLAY_unacked : Fld := ⟨99, 31, 15, 0⟩
/-- CW_COUNTS bits 23:0 (10 R316). -/
def R.CW_COUNTS_crc_errors : Fld := ⟨100, 0, 24, 0⟩
/-- CW_COUNTS bits 39:24 (10 R316). -/
def R.CW_COUNTS_replays : Fld := ⟨100, 24, 16, 0⟩
/-- CW_COUNTS bits 47:40 (10 R316). -/
def R.CW_COUNTS_downs : Fld := ⟨100, 40, 8, 0⟩
/-- CW_COUNTS bits 55:48 (10 R316). -/
def R.CW_COUNTS_lane_failures : Fld := ⟨100, 48, 8, 0⟩
/-- CW_COUNTS bits 60:56 (10 R316). -/
def R.CW_COUNTS_sat : Fld := ⟨100, 56, 5, 0⟩
/-- CW_COUNTS bits 63:63 (10 R316). -/
def R.CW_COUNTS_clear : Fld := ⟨100, 63, 1, 0⟩
/-- CW_DISCARD bits 31:0 (10 R316). -/
def R.CW_DISCARD_plan_discarded : Fld := ⟨101, 0, 32, 0⟩
/-- CW_FEC bits 47:0 (10 R316). -/
def R.CW_FEC_corrected : Fld := ⟨102, 0, 48, 0⟩
/-- CW_FEC_UE bits 47:0 (10 R316). -/
def R.CW_FEC_UE_uncorrectable : Fld := ⟨103, 0, 48, 0⟩
/-- CW_CREDIT bits 15:0 (10 R316). -/
def R.CW_CREDIT_sent : Fld := ⟨104, 0, 16, 0⟩
/-- CW_CREDIT bits 31:16 (10 R316). -/
def R.CW_CREDIT_freed : Fld := ⟨104, 16, 16, 0⟩
/-- CW_CREDIT bits 47:32 (10 R316). -/
def R.CW_CREDIT_resyncs : Fld := ⟨104, 32, 16, 0⟩
/-- CW_CREDIT bits 48:48 (10 R316). -/
def R.CW_CREDIT_resyncs_sat : Fld := ⟨104, 48, 1, 0⟩
/-- CW_CMD bits 2:0 (10 R316). -/
def R.CW_CMD_action : Fld := ⟨105, 0, 3, 0⟩
/-- CW_CMD bits 6:3 (10 R316). -/
def R.CW_CMD_lane : Fld := ⟨105, 3, 4, 0⟩
/-- DRIFT_CTL bits 15:0 (11 R347). -/
def R.DRIFT_CTL_req_timeout : Fld := ⟨106, 0, 16, 10000⟩
/-- DRIFT_CTL bits 16:16 (11 R347). -/
def R.DRIFT_CTL_detour : Fld := ⟨106, 16, 1, 1⟩
/-- DRIFT_ROUTE bits 4:0 (11 R347). -/
def R.DRIFT_ROUTE_x : Fld := ⟨107, 0, 5, 0⟩
/-- DRIFT_ROUTE bits 12:8 (11 R347). -/
def R.DRIFT_ROUTE_y : Fld := ⟨107, 8, 5, 0⟩
/-- DRIFT_ROUTE bits 20:16 (11 R347). -/
def R.DRIFT_ROUTE_z : Fld := ⟨107, 16, 5, 0⟩
/-- DRIFT_ROUTE bits 29:24 (11 R347). -/
def R.DRIFT_ROUTE_nx : Fld := ⟨107, 24, 6, 0⟩
/-- DRIFT_ROUTE bits 37:32 (11 R347). -/
def R.DRIFT_ROUTE_ny : Fld := ⟨107, 32, 6, 0⟩
/-- DRIFT_ROUTE bits 45:40 (11 R347). -/
def R.DRIFT_ROUTE_nz : Fld := ⟨107, 40, 6, 0⟩
/-- DRIFT_COUNTS bits 15:0 (11 R347). -/
def R.DRIFT_COUNTS_detours : Fld := ⟨108, 0, 16, 0⟩
/-- DRIFT_COUNTS bits 31:16 (11 R347). -/
def R.DRIFT_COUNTS_bounced : Fld := ⟨108, 16, 16, 0⟩
/-- DRIFT_COUNTS bits 47:32 (11 R347). -/
def R.DRIFT_COUNTS_discarded : Fld := ⟨108, 32, 16, 0⟩
/-- DRIFT_COUNTS bits 55:48 (11 R347). -/
def R.DRIFT_COUNTS_timeouts : Fld := ⟨108, 48, 8, 0⟩
/-- DRIFT_COUNTS bits 59:56 (11 R347). -/
def R.DRIFT_COUNTS_sat : Fld := ⟨108, 56, 4, 0⟩
/-- DRIFT_COUNTS bits 63:63 (11 R347). -/
def R.DRIFT_COUNTS_clear : Fld := ⟨108, 63, 1, 0⟩
/-- DRIFT_COUNTS2 bits 15:0 (11 R347). -/
def R.DRIFT_COUNTS2_stale : Fld := ⟨109, 0, 16, 0⟩
/-- DRIFT_COUNTS2 bits 31:16 (11 R347). -/
def R.DRIFT_COUNTS2_malformed : Fld := ⟨109, 16, 16, 0⟩
/-- DRIFT_COUNTS2 bits 47:32 (11 R347). -/
def R.DRIFT_COUNTS2_link_lost : Fld := ⟨109, 32, 16, 0⟩
/-- DRIFT_COUNTS2 bits 50:48 (11 R347). -/
def R.DRIFT_COUNTS2_sat : Fld := ⟨109, 48, 3, 0⟩
/-- DRIFT_TAGS bits 12:0 (11 R347). -/
def R.DRIFT_TAGS_outstanding : Fld := ⟨110, 0, 13, 0⟩
/-- DRIFT_TAGS bits 28:16 (11 R347). -/
def R.DRIFT_TAGS_peak : Fld := ⟨110, 16, 13, 0⟩
/-- ARB_MODE bits 0:0 (11 R347). -/
def R.ARB_MODE_mode : Fld := ⟨111, 0, 1, 0⟩
/-- ARB_MODE bits 31:16 (11 R347). -/
def R.ARB_MODE_starve_limit : Fld := ⟨111, 16, 16, 4096⟩
/-- ARB_MODE bits 63:63 (11 R347). -/
def R.ARB_MODE_clear : Fld := ⟨111, 63, 1, 0⟩
/-- ARB_PRIO bits 63:0 (11 R347). -/
def R.ARB_PRIO_prio : Fld := ⟨112, 0, 64, 0⟩
/-- ARB_STATUS bits 15:0 (11 R347). -/
def R.ARB_STATUS_starved : Fld := ⟨113, 0, 16, 0⟩
/-- ARB_STATUS bits 31:16 (11 R347). -/
def R.ARB_STATUS_masked : Fld := ⟨113, 16, 16, 0⟩
/-- ARB_STATUS bits 47:32 (11 R347). -/
def R.ARB_STATUS_pending : Fld := ⟨113, 32, 16, 0⟩
/-- ARB_WATCH bits 23:0 (11 R347). -/
def R.ARB_WATCH_grants : Fld := ⟨114, 0, 24, 0⟩
/-- ARB_WATCH bits 43:24 (11 R347). -/
def R.ARB_WATCH_waits : Fld := ⟨114, 24, 20, 0⟩
/-- ARB_WATCH bits 59:44 (11 R347). -/
def R.ARB_WATCH_longest : Fld := ⟨114, 44, 16, 0⟩
/-- ARB_WATCH bits 62:60 (11 R347). -/
def R.ARB_WATCH_sat : Fld := ⟨114, 60, 3, 0⟩
/-- TIME_NOW bits 63:0 (12 R368). -/
def R.TIME_NOW_now : Fld := ⟨115, 0, 64, 0⟩
/-- TIME_CTL bits 7:0 (12 R368). -/
def R.TIME_CTL_slew_max : Fld := ⟨116, 0, 8, 100⟩
/-- TIME_CTL bits 23:8 (12 R368). -/
def R.TIME_CTL_step_threshold : Fld := ⟨116, 8, 16, 1000⟩
/-- TIME_CTL bits 27:24 (12 R368). -/
def R.TIME_CTL_exchange : Fld := ⟨116, 24, 4, 2⟩
/-- TIME_CTL bits 35:28 (12 R368). -/
def R.TIME_CTL_loss_count : Fld := ⟨116, 28, 8, 16⟩
/-- TIME_CTL bits 49:36 (12 R368). -/
def R.TIME_CTL_host_wait : Fld := ⟨116, 36, 14, 100⟩
/-- TIME_CTL bits 53:50 (12 R368). -/
def R.TIME_CTL_servo_period : Fld := ⟨116, 50, 4, 3⟩
/-- TIME_PARENT bits 3:0 (12 R368). -/
def R.TIME_PARENT_primary : Fld := ⟨117, 0, 4, 0⟩
/-- TIME_PARENT bits 7:4 (12 R368). -/
def R.TIME_PARENT_fallback : Fld := ⟨117, 4, 4, 0⟩
/-- TIME_STATUS bits 1:0 (12 R368). -/
def R.TIME_STATUS_state : Fld := ⟨118, 0, 2, 0⟩
/-- TIME_STATUS bits 5:2 (12 R368). -/
def R.TIME_STATUS_source : Fld := ⟨118, 2, 4, 0⟩
/-- TIME_STATUS bits 6:6 (12 R368). -/
def R.TIME_STATUS_traceable : Fld := ⟨118, 6, 1, 0⟩
/-- TIME_STATUS bits 12:7 (12 R368). -/
def R.TIME_STATUS_hops : Fld := ⟨118, 7, 6, 0⟩
/-- TIME_STATUS bits 32:13 (12 R368). -/
def R.TIME_STATUS_root : Fld := ⟨118, 13, 20, 0⟩
/-- TIME_STATUS bits 33:33 (12 R368). -/
def R.TIME_STATUS_restricted : Fld := ⟨118, 33, 1, 0⟩
/-- TIME_OFFSET bits 31:0 (12 R368). -/
def R.TIME_OFFSET_theta : Fld := ⟨119, 0, 32, 0⟩
/-- TIME_OFFSET bits 63:32 (12 R368). -/
def R.TIME_OFFSET_delay : Fld := ⟨119, 32, 32, 0⟩
/-- TIME_RATE bits 31:0 (12 R368). -/
def R.TIME_RATE_rate : Fld := ⟨120, 0, 32, 0⟩
/-- TIME_ADJ bits 31:0 (12 R368). -/
def R.TIME_ADJ_rate : Fld := ⟨121, 0, 32, 0⟩
/-- TIME_ADJ bits 59:32 (12 R368). -/
def R.TIME_ADJ_phase : Fld := ⟨121, 32, 28, 0⟩
/-- TIME_ADJ bits 60:60 (12 R368). -/
def R.TIME_ADJ_step : Fld := ⟨121, 60, 1, 0⟩
/-- TIME_EPOCH bits 47:0 (12 R368). -/
def R.TIME_EPOCH_seconds : Fld := ⟨122, 0, 48, 1735689637⟩
/-- TIME_UTC bits 15:0 (12 R368). -/
def R.TIME_UTC_utc_offset : Fld := ⟨123, 0, 16, 37⟩
/-- TIME_UTC bits 16:16 (12 R368). -/
def R.TIME_UTC_from_ptp : Fld := ⟨123, 16, 1, 0⟩
/-- TIME_PTP_W0 bits 63:0 (12 R368). -/
def R.TIME_PTP_gm_identity : Fld := ⟨124, 0, 64, 0⟩
/-- TIME_PTP_W1 bits 7:0 (12 R368). -/
def R.TIME_PTP_domain : Fld := ⟨125, 0, 8, 0⟩
/-- TIME_PTP_W1 bits 8:8 (12 R368). -/
def R.TIME_PTP_transport : Fld := ⟨125, 8, 1, 0⟩
/-- TIME_PTP_W1 bits 9:9 (12 R368). -/
def R.TIME_PTP_enable : Fld := ⟨125, 9, 1, 0⟩
/-- TIME_PTP_W1 bits 13:10 (12 R368). -/
def R.TIME_PTP_delay_req_log : Fld := ⟨125, 10, 4, 3⟩
/-- TIME_PTP_W1 bits 20:14 (12 R368). -/
def R.TIME_PTP_announce_timeout : Fld := ⟨125, 14, 7, 3⟩
/-- TIME_PTP_W2 bits 1:0 (12 R368). -/
def R.TIME_PTP_state : Fld := ⟨126, 0, 2, 0⟩
/-- TIME_LINK bits 15:0 (12 R368). -/
def R.TIME_LINK_asym : Fld := ⟨127, 0, 16, 0⟩
/-- TIME_LINK bits 47:16 (12 R368). -/
def R.TIME_LINK_delay : Fld := ⟨127, 16, 32, 0⟩
/-- TIME_CAPTURE_W0 bits 63:0 (12 R368). -/
def R.TIME_CAPTURE_value : Fld := ⟨128, 0, 64, 0⟩
/-- TIME_CAPTURE_CTL bits 15:0 (12 R368). -/
def R.TIME_CAPTURE_count : Fld := ⟨129, 0, 16, 0⟩
/-- TIME_CAPTURE_CTL bits 16:16 (12 R368). -/
def R.TIME_CAPTURE_overrun : Fld := ⟨129, 16, 1, 0⟩
/-- TIME_CAPTURE_CTL bits 17:17 (12 R368). -/
def R.TIME_CAPTURE_edge : Fld := ⟨129, 17, 1, 0⟩
/-- TIME_CAPTURE_CTL bits 18:18 (12 R368). -/
def R.TIME_CAPTURE_enable : Fld := ⟨129, 18, 1, 0⟩
/-- TIME_PULSE_W0 bits 63:0 (12 R368). -/
def R.TIME_PULSE_start : Fld := ⟨130, 0, 64, 0⟩
/-- TIME_PULSE_PERIOD bits 39:0 (12 R368). -/
def R.TIME_PULSE_period : Fld := ⟨131, 0, 40, 0⟩
/-- TIME_PULSE_CTL bits 15:0 (12 R368). -/
def R.TIME_PULSE_width : Fld := ⟨132, 0, 16, 100⟩
/-- TIME_PULSE_CTL bits 16:16 (12 R368). -/
def R.TIME_PULSE_arm : Fld := ⟨132, 16, 1, 0⟩
/-- TIME_PULSE_CTL bits 17:17 (12 R368). -/
def R.TIME_PULSE_armed : Fld := ⟨132, 17, 1, 0⟩
/-- TIME_PULSE_CTL bits 18:18 (12 R368). -/
def R.TIME_PULSE_late : Fld := ⟨132, 18, 1, 0⟩
/-- TIME_PPS bits 0:0 (12 R368). -/
def R.TIME_PPS_edge : Fld := ⟨133, 0, 1, 0⟩
/-- TIME_PPS bits 1:1 (12 R368). -/
def R.TIME_PPS_enable : Fld := ⟨133, 1, 1, 0⟩
/-- TIME_CALENDAR bits 39:0 (12 R368). -/
def R.TIME_CALENDAR_seconds : Fld := ⟨134, 0, 40, 0⟩
/-- TIME_CALENDAR bits 49:40 (12 R368). -/
def R.TIME_CALENDAR_fraction : Fld := ⟨134, 40, 10, 0⟩
/-- TIME_CALENDAR bits 50:50 (12 R368). -/
def R.TIME_CALENDAR_synced : Fld := ⟨134, 50, 1, 0⟩
/-- TIME_COUNTS bits 15:0 (12 R368). -/
def R.TIME_COUNTS_parent_changes : Fld := ⟨135, 0, 16, 0⟩
/-- TIME_COUNTS bits 31:16 (12 R368). -/
def R.TIME_COUNTS_holdovers : Fld := ⟨135, 16, 16, 0⟩
/-- TIME_COUNTS bits 39:32 (12 R368). -/
def R.TIME_COUNTS_steps : Fld := ⟨135, 32, 8, 0⟩
/-- TIME_COUNTS bits 47:40 (12 R368). -/
def R.TIME_COUNTS_loops : Fld := ⟨135, 40, 8, 0⟩
/-- TIME_COUNTS bits 51:48 (12 R368). -/
def R.TIME_COUNTS_sat : Fld := ⟨135, 48, 4, 0⟩
/-- TIME_COUNTS bits 63:63 (12 R368). -/
def R.TIME_COUNTS_clear : Fld := ⟨135, 63, 1, 0⟩
/-- DEV_ADDR bits 19:0 (13 R389). -/
def R.DEV_ADDR_address : Fld := ⟨136, 0, 20, 0⟩
/-- DEV_ADDR bits 20:20 (13 R389). -/
def R.DEV_ADDR_valid : Fld := ⟨136, 20, 1, 0⟩
/-- DEV_ADDR bits 47:24 (13 R389). -/
def R.DEV_ADDR_straps : Fld := ⟨136, 24, 24, 0⟩
/-- DEV_REGION_MAP bits 63:0 (13 R389). -/
def R.DEV_REGION_MAP_phys : Fld := ⟨137, 0, 64, 18364758544493064720⟩
/-- DEV_ADMIT_IMAGE bits 63:0 (13 R389). -/
def R.DEV_ADMIT_IMAGE_image : Fld := ⟨138, 0, 64, 0⟩
/-- DEV_ADMIT_MAP bits 63:0 (13 R389). -/
def R.DEV_ADMIT_MAP_map : Fld := ⟨139, 0, 64, 0⟩
/-- DEV_ADMIT_CMD bits 1:0 (13 R389). -/
def R.DEV_ADMIT_CMD_action : Fld := ⟨140, 0, 2, 0⟩
/-- DEV_ADMIT_STATUS bits 1:0 (13 R389). -/
def R.DEV_ADMIT_STATUS_state : Fld := ⟨141, 0, 2, 0⟩
/-- DEV_ADMIT_STATUS bits 9:2 (13 R389). -/
def R.DEV_ADMIT_STATUS_check : Fld := ⟨141, 2, 8, 0⟩
/-- DEV_ADMIT_STATUS bits 24:10 (13 R389). -/
def R.DEV_ADMIT_STATUS_virtual_device : Fld := ⟨141, 10, 15, 0⟩
/-- DEV_LAUNCH_CTL bits 15:0 (13 R389). -/
def R.DEV_LAUNCH_CTL_launch_wait : Fld := ⟨142, 0, 16, 500⟩
/-- DEV_LAUNCH_CTL bits 29:16 (13 R389). -/
def R.DEV_LAUNCH_CTL_host_wait : Fld := ⟨142, 16, 14, 100⟩
/-- DEV_LAUNCH_CMD bits 1:0 (13 R389). -/
def R.DEV_LAUNCH_CMD_action : Fld := ⟨143, 0, 2, 0⟩
/-- DEV_LAUNCH_CMD bits 49:2 (13 R389). -/
def R.DEV_LAUNCH_CMD_arg : Fld := ⟨143, 2, 48, 0⟩
/-- DEV_LAUNCH_STATUS bits 1:0 (13 R389). -/
def R.DEV_LAUNCH_STATUS_state : Fld := ⟨144, 0, 2, 0⟩
/-- DEV_LAUNCH_STATUS bits 17:2 (13 R389). -/
def R.DEV_LAUNCH_STATUS_acked : Fld := ⟨144, 2, 16, 0⟩
/-- DEV_LAUNCH_STATUS bits 33:18 (13 R389). -/
def R.DEV_LAUNCH_STATUS_missing : Fld := ⟨144, 18, 16, 0⟩
/-- DEV_LAUNCH_STATUS bits 48:34 (13 R389). -/
def R.DEV_LAUNCH_STATUS_first_missing : Fld := ⟨144, 34, 15, 0⟩
/-- DEV_LAUNCH_STATUS bits 49:49 (13 R389). -/
def R.DEV_LAUNCH_STATUS_origin : Fld := ⟨144, 49, 1, 0⟩
/-- DEV_ADMIT_DETAIL bits 3:0 (14 R400). -/
def R.DEV_ADMIT_DETAIL_region : Fld := ⟨145, 0, 4, 0⟩
/-- DEV_ADMIT_DETAIL bits 4:4 (14 R400). -/
def R.DEV_ADMIT_DETAIL_region_valid : Fld := ⟨145, 4, 1, 0⟩
/-- DEV_ADMIT_DETAIL bits 7:5 (14 R400). -/
def R.DEV_ADMIT_DETAIL_table : Fld := ⟨145, 5, 3, 0⟩
/-- DEV_ADMIT_DETAIL bits 31:8 (14 R400). -/
def R.DEV_ADMIT_DETAIL_entry : Fld := ⟨145, 8, 24, 0⟩
/-- HOST_STATUS bits 0:0 (15 R424). -/
def R.HOST_STATUS_link_up : Fld := ⟨146, 0, 1, 0⟩
/-- HOST_STATUS bits 5:1 (15 R424). -/
def R.HOST_STATUS_width : Fld := ⟨146, 1, 5, 0⟩
/-- HOST_STATUS bits 6:6 (15 R424). -/
def R.HOST_STATUS_rate : Fld := ⟨146, 6, 1, 0⟩
/-- HOST_STATUS bits 7:7 (15 R424). -/
def R.HOST_STATUS_pending : Fld := ⟨146, 7, 1, 0⟩
/-- HOST_HDM bits 0:0 (15 R424). -/
def R.HOST_HDM_committed : Fld := ⟨147, 0, 1, 0⟩
/-- HOST_HDM bits 23:8 (15 R424). -/
def R.HOST_HDM_size : Fld := ⟨147, 8, 16, 0⟩
/-- HOST_HDM bits 63:28 (15 R424). -/
def R.HOST_HDM_base : Fld := ⟨147, 28, 36, 0⟩
/-- HOST_SNOOP bits 20:0 (15 R424). -/
def R.HOST_SNOOP_held : Fld := ⟨148, 0, 21, 0⟩
/-- HOST_COUNTS bits 7:0 (15 R424). -/
def R.HOST_COUNTS_link_downs : Fld := ⟨149, 0, 8, 0⟩
/-- HOST_COUNTS bits 31:8 (15 R424). -/
def R.HOST_COUNTS_replays : Fld := ⟨149, 8, 24, 0⟩
/-- HOST_COUNTS bits 39:32 (15 R424). -/
def R.HOST_COUNTS_poisoned : Fld := ⟨149, 32, 8, 0⟩
/-- HOST_COUNTS bits 42:40 (15 R424). -/
def R.HOST_COUNTS_sat : Fld := ⟨149, 40, 3, 0⟩
/-- HOST_COUNTS bits 63:63 (15 R424). -/
def R.HOST_COUNTS_clear : Fld := ⟨149, 63, 1, 0⟩
/-- QUAY_PORT_W0 bits 47:0 (15 R424). -/
def R.QUAY_PORT_mac : Fld := ⟨150, 0, 48, 0⟩
/-- QUAY_PORT_W0 bits 48:48 (15 R424). -/
def R.QUAY_PORT_enable : Fld := ⟨150, 48, 1, 0⟩
/-- QUAY_PORT_W1 bits 31:0 (15 R424). -/
def R.QUAY_PORT_ipv4 : Fld := ⟨151, 0, 32, 0⟩
/-- QUAY_PORT_W1 bits 43:32 (15 R424). -/
def R.QUAY_PORT_vlan : Fld := ⟨151, 32, 12, 0⟩
/-- QUAY_PORT_W1 bits 44:44 (15 R424). -/
def R.QUAY_PORT_vlan_en : Fld := ⟨151, 44, 1, 0⟩
/-- QUAY_PORT_W1 bits 47:45 (15 R424). -/
def R.QUAY_PORT_pcp : Fld := ⟨151, 45, 3, 3⟩
/-- QUAY_PORT_STATUS bits 0:0 (15 R424). -/
def R.QUAY_PORT_link_up : Fld := ⟨152, 0, 1, 0⟩
/-- QUAY_PORT_STATUS bits 1:1 (15 R424). -/
def R.QUAY_PORT_paused : Fld := ⟨152, 1, 1, 0⟩
/-- QUAY_COUNTS bits 15:0 (15 R424). -/
def R.QUAY_COUNTS_fcs_errors : Fld := ⟨153, 0, 16, 0⟩
/-- QUAY_COUNTS bits 31:16 (15 R424). -/
def R.QUAY_COUNTS_icrc_errors : Fld := ⟨153, 16, 16, 0⟩
/-- QUAY_COUNTS bits 47:32 (15 R424). -/
def R.QUAY_COUNTS_retransmits : Fld := ⟨153, 32, 16, 0⟩
/-- QUAY_COUNTS bits 55:48 (15 R424). -/
def R.QUAY_COUNTS_link_downs : Fld := ⟨153, 48, 8, 0⟩
/-- QUAY_COUNTS bits 59:56 (15 R424). -/
def R.QUAY_COUNTS_sat : Fld := ⟨153, 56, 4, 0⟩
/-- QUAY_COUNTS bits 63:63 (15 R424). -/
def R.QUAY_COUNTS_clear : Fld := ⟨153, 63, 1, 0⟩
/-- QUAY_TARGET_W0 bits 31:0 (15 R424). -/
def R.QUAY_TARGET_ipv4 : Fld := ⟨154, 0, 32, 0⟩
/-- QUAY_TARGET_W0 bits 55:32 (15 R424). -/
def R.QUAY_TARGET_dqpn : Fld := ⟨154, 32, 24, 0⟩
/-- QUAY_TARGET_W0 bits 56:56 (15 R424). -/
def R.QUAY_TARGET_port : Fld := ⟨154, 56, 1, 0⟩
/-- QUAY_TARGET_W0 bits 57:57 (15 R424). -/
def R.QUAY_TARGET_enable : Fld := ⟨154, 57, 1, 0⟩
/-- QUAY_TARGET_W0 bits 59:58 (15 R424). -/
def R.QUAY_TARGET_state : Fld := ⟨154, 58, 2, 0⟩
/-- QUAY_TARGET_W1 bits 47:0 (15 R424). -/
def R.QUAY_TARGET_next_hop : Fld := ⟨155, 0, 48, 0⟩
/-- QUAY_TARGET_W2 bits 31:0 (15 R424). -/
def R.QUAY_TARGET_rkey : Fld := ⟨156, 0, 32, 0⟩
/-- QUAY_TARGET_W2 bits 55:32 (15 R424). -/
def R.QUAY_TARGET_sq_psn : Fld := ⟨156, 32, 24, 0⟩
/-- QUAY_TARGET_W3 bits 23:0 (15 R424). -/
def R.QUAY_TARGET_local_qpn : Fld := ⟨157, 0, 24, 256⟩
/-- QUAY_TARGET_W3 bits 28:24 (15 R424). -/
def R.QUAY_TARGET_outstanding : Fld := ⟨157, 24, 5, 0⟩
/-- CLK_SRC_STATUS bits 3:0 (16 R454). -/
def R.CLK_SRC_STATUS_failed : Fld := ⟨158, 0, 4, 0⟩
/-- CLK_SRC_STATUS bits 19:4 (16 R454). -/
def R.CLK_SRC_STATUS_dfll_failed : Fld := ⟨158, 4, 16, 0⟩
/-- CLK_SRC_STATUS bits 20:20 (16 R454). -/
def R.CLK_SRC_STATUS_px_on_fosc : Fld := ⟨158, 20, 1, 0⟩
/-- CLK_MON_COUNTS bits 7:0 (16 R454). -/
def R.CLK_MON_COUNTS_xtal_a : Fld := ⟨159, 0, 8, 0⟩
/-- CLK_MON_COUNTS bits 15:8 (16 R454). -/
def R.CLK_MON_COUNTS_xtal_b : Fld := ⟨159, 8, 8, 0⟩
/-- CLK_MON_COUNTS bits 23:16 (16 R454). -/
def R.CLK_MON_COUNTS_pll_main : Fld := ⟨159, 16, 8, 0⟩
/-- CLK_MON_COUNTS bits 31:24 (16 R454). -/
def R.CLK_MON_COUNTS_dfll : Fld := ⟨159, 24, 8, 0⟩
/-- CLK_MON_COUNTS bits 35:32 (16 R454). -/
def R.CLK_MON_COUNTS_sat : Fld := ⟨159, 32, 4, 0⟩
/-- CLK_MON_COUNTS bits 63:63 (16 R454). -/
def R.CLK_MON_COUNTS_clear : Fld := ⟨159, 63, 1, 0⟩
/-- CLK_CMD bits 1:0 (16 R454). -/
def R.CLK_CMD_action : Fld := ⟨160, 0, 2, 0⟩
/-- CLK_CMD bits 6:2 (16 R454). -/
def R.CLK_CMD_target : Fld := ⟨160, 2, 5, 0⟩
/-- CLK_GATE_CMD bits 3:0 (16 R454). -/
def R.CLK_GATE_CMD_region : Fld := ⟨161, 0, 4, 0⟩
/-- CLK_GATE_CMD bits 6:4 (16 R454). -/
def R.CLK_GATE_CMD_level : Fld := ⟨161, 4, 3, 0⟩
/-- CLK_GATE_CMD bits 8:7 (16 R454). -/
def R.CLK_GATE_CMD_block : Fld := ⟨161, 7, 2, 0⟩
/-- CLK_GATE_CMD bits 11:9 (16 R454). -/
def R.CLK_GATE_CMD_cell : Fld := ⟨161, 9, 3, 0⟩
/-- CLK_GATE_CMD bits 15:12 (16 R454). -/
def R.CLK_GATE_CMD_unit : Fld := ⟨161, 12, 4, 0⟩
/-- CLK_GATE_CMD bits 16:16 (16 R454). -/
def R.CLK_GATE_CMD_on : Fld := ⟨161, 16, 1, 0⟩
/-- CLK_GATE_STATUS bits 1:0 (16 R454). -/
def R.CLK_GATE_STATUS_result : Fld := ⟨162, 0, 2, 0⟩
/-- CLK_REGION bits 0:0 (16 R454). -/
def R.CLK_REGION_mode : Fld := ⟨163, 0, 1, 1⟩
/-- CLK_REGION bits 10:1 (16 R454). -/
def R.CLK_REGION_f_min : Fld := ⟨163, 1, 10, 350⟩
/-- CLK_REGION bits 20:11 (16 R454). -/
def R.CLK_REGION_f_max : Fld := ⟨163, 11, 10, 800⟩
/-- CLK_REGION bits 30:21 (16 R454). -/
def R.CLK_REGION_f_set : Fld := ⟨163, 21, 10, 700⟩
/-- CLK_REGION bits 38:31 (16 R454). -/
def R.CLK_REGION_margin_min : Fld := ⟨163, 31, 8, 30⟩
/-- CLK_REGION_STATUS bits 9:0 (16 R454). -/
def R.CLK_REGION_STATUS_f_now : Fld := ⟨164, 0, 10, 0⟩
/-- CLK_REGION_STATUS bits 11:10 (16 R454). -/
def R.CLK_REGION_STATUS_stretch : Fld := ⟨164, 10, 2, 0⟩
/-- CLK_REGION_STATUS bits 12:12 (16 R454). -/
def R.CLK_REGION_STATUS_clamped : Fld := ⟨164, 12, 1, 0⟩
/-- CLK_REGION_STATUS bits 13:13 (16 R454). -/
def R.CLK_REGION_STATUS_throttled : Fld := ⟨164, 13, 1, 0⟩
/-- CLK_REGION_STATUS bits 14:14 (16 R454). -/
def R.CLK_REGION_STATUS_capped : Fld := ⟨164, 14, 1, 0⟩
/-- CLK_REGION_STATUS bits 15:15 (16 R454). -/
def R.CLK_REGION_STATUS_on_fosc : Fld := ⟨164, 15, 1, 0⟩
/-- CLK_REGION_STATUS bits 31:16 (16 R454). -/
def R.CLK_REGION_STATUS_temp : Fld := ⟨164, 16, 16, 0⟩
/-- CLK_REGION_STATUS bits 39:32 (16 R454). -/
def R.CLK_REGION_STATUS_margin : Fld := ⟨164, 32, 8, 0⟩
/-- CLK_STRETCH bits 47:0 (16 R454). -/
def R.CLK_STRETCH_periods : Fld := ⟨165, 0, 48, 0⟩
/-- PWR_CTL bits 10:0 (16 R454). -/
def R.PWR_CTL_power_cap : Fld := ⟨166, 0, 11, 1600⟩
/-- PWR_CTL bits 17:11 (16 R454). -/
def R.PWR_CTL_thermal_limit : Fld := ⟨166, 11, 7, 100⟩
/-- PWR_CTL bits 19:18 (16 R454). -/
def R.PWR_CTL_dip_stretch : Fld := ⟨166, 18, 2, 2⟩
/-- PWR_STRETCH bits 7:0 (16 R454). -/
def R.PWR_STRETCH_level1 : Fld := ⟨167, 0, 8, 6⟩
/-- PWR_STRETCH bits 15:8 (16 R454). -/
def R.PWR_STRETCH_level2 : Fld := ⟨167, 8, 8, 10⟩
/-- PWR_STRETCH bits 23:16 (16 R454). -/
def R.PWR_STRETCH_level3 : Fld := ⟨167, 16, 8, 16⟩
/-- PWR_STATE bits 1:0 (16 R454). -/
def R.PWR_STATE_state : Fld := ⟨168, 0, 2, 3⟩
/-- PWR_STATE bits 2:2 (16 R454). -/
def R.PWR_STATE_quiesce : Fld := ⟨168, 2, 1, 0⟩
/-- PWR_STATE bits 3:3 (16 R454). -/
def R.PWR_STATE_refused : Fld := ⟨168, 3, 1, 0⟩
/-- PWR_STATE bits 4:4 (16 R454). -/
def R.PWR_STATE_pwr_good : Fld := ⟨168, 4, 1, 1⟩
/-- PWR_CMD bits 1:0 (16 R454). -/
def R.PWR_CMD_action : Fld := ⟨169, 0, 2, 0⟩
/-- PWR_RAIL bits 9:0 (16 R454). -/
def R.PWR_RAIL_setpoint : Fld := ⟨170, 0, 10, 750⟩
/-- PWR_RAIL bits 19:10 (16 R454). -/
def R.PWR_RAIL_confirmed : Fld := ⟨170, 10, 10, 0⟩
/-- PWR_RAIL bits 29:20 (16 R454). -/
def R.PWR_RAIL_measured : Fld := ⟨170, 20, 10, 0⟩
/-- PWR_DIP bits 9:0 (16 R454). -/
def R.PWR_DIP_min_mv : Fld := ⟨171, 0, 10, 0⟩
/-- PWR_DIP bits 31:10 (16 R454). -/
def R.PWR_DIP_duration : Fld := ⟨171, 10, 22, 0⟩
/-- PWR_DIP bits 47:32 (16 R454). -/
def R.PWR_DIP_dips : Fld := ⟨171, 32, 16, 0⟩
/-- PWR_DIP bits 55:48 (16 R454). -/
def R.PWR_DIP_resets : Fld := ⟨171, 48, 8, 0⟩
/-- PWR_DIP bits 57:56 (16 R454). -/
def R.PWR_DIP_sat : Fld := ⟨171, 56, 2, 0⟩
/-- PWR_DIP bits 63:63 (16 R454). -/
def R.PWR_DIP_clear : Fld := ⟨171, 63, 1, 0⟩
/-- PWR_POWER bits 15:0 (16 R454). -/
def R.PWR_POWER_power : Fld := ⟨172, 0, 16, 0⟩
/-- PWR_POWER bits 31:16 (16 R454). -/
def R.PWR_POWER_peak : Fld := ⟨172, 16, 16, 0⟩
/-- PWR_POWER bits 63:63 (16 R454). -/
def R.PWR_POWER_clear : Fld := ⟨172, 63, 1, 0⟩
/-- SEC_BOOT bits 3:0 (17 R478). -/
def R.SEC_BOOT_stage : Fld := ⟨173, 0, 4, 0⟩
/-- SEC_BOOT bits 7:4 (17 R478). -/
def R.SEC_BOOT_failed_stage : Fld := ⟨173, 4, 4, 0⟩
/-- SEC_BOOT bits 8:8 (17 R478). -/
def R.SEC_BOOT_recovered : Fld := ⟨173, 8, 1, 0⟩
/-- SEC_CTL bits 9:0 (17 R478). -/
def R.SEC_CTL_recovery_wait : Fld := ⟨174, 0, 10, 60⟩
/-- SEC_CTL bits 10:10 (17 R478). -/
def R.SEC_CTL_remote_bar2 : Fld := ⟨174, 10, 1, 0⟩
/-- SEC_SVN bits 31:0 (17 R478). -/
def R.SEC_SVN_fused : Fld := ⟨175, 0, 32, 0⟩
/-- SEC_SVN bits 63:32 (17 R478). -/
def R.SEC_SVN_active : Fld := ⟨175, 32, 32, 0⟩
/-- SEC_CMD bits 1:0 (17 R478). -/
def R.SEC_CMD_action : Fld := ⟨176, 0, 2, 0⟩
/-- SEC_CMD bits 4:2 (17 R478). -/
def R.SEC_CMD_component : Fld := ⟨176, 2, 3, 0⟩
/-- SEC_OWNER bits 63:0 (17 R478). -/
def R.SEC_OWNER_digest : Fld := ⟨177, 0, 64, 0⟩
/-- SEC_UPDATE_ADDR bits 63:0 (17 R478). -/
def R.SEC_UPDATE_ADDR_addr : Fld := ⟨178, 0, 64, 0⟩
/-- SEC_UPDATE_CMD bits 0:0 (17 R478). -/
def R.SEC_UPDATE_CMD_stage : Fld := ⟨179, 0, 1, 0⟩
/-- SEC_UPDATE_STATUS bits 2:0 (17 R478). -/
def R.SEC_UPDATE_STATUS_state : Fld := ⟨180, 0, 3, 0⟩
/-- SEC_UPDATE_STATUS bits 5:3 (17 R478). -/
def R.SEC_UPDATE_STATUS_component : Fld := ⟨180, 3, 3, 0⟩
/-- SEC_UPDATE_STATUS bits 21:6 (17 R478). -/
def R.SEC_UPDATE_STATUS_done_mask : Fld := ⟨180, 6, 16, 0⟩
/-- SEC_KEY_ADDR bits 63:0 (17 R478). -/
def R.SEC_KEY_ADDR_addr : Fld := ⟨181, 0, 64, 0⟩
/-- SEC_KEY_CMD bits 1:0 (17 R478). -/
def R.SEC_KEY_CMD_action : Fld := ⟨182, 0, 2, 0⟩
/-- SEC_KEY_CMD bits 7:2 (17 R478). -/
def R.SEC_KEY_CMD_entry : Fld := ⟨182, 2, 6, 0⟩
/-- SEC_KEY_CMD bits 15:8 (17 R478). -/
def R.SEC_KEY_CMD_tenant : Fld := ⟨182, 8, 8, 0⟩
/-- SEC_KEY_STATUS bits 1:0 (17 R478). -/
def R.SEC_KEY_STATUS_result : Fld := ⟨183, 0, 2, 0⟩
/-- SEC_KEY_VALID bits 63:0 (17 R478). -/
def R.SEC_KEY_VALID_valid : Fld := ⟨184, 0, 64, 0⟩
/-- SEC_DEBUG bits 0:0 (17 R478). -/
def R.SEC_DEBUG_unlocked : Fld := ⟨185, 0, 1, 0⟩
/-- SEC_COUNTS bits 15:0 (17 R478). -/
def R.SEC_COUNTS_refused : Fld := ⟨186, 0, 16, 0⟩
/-- SEC_COUNTS bits 16:16 (17 R478). -/
def R.SEC_COUNTS_sat : Fld := ⟨186, 16, 1, 0⟩
/-- SEC_COUNTS bits 63:63 (17 R478). -/
def R.SEC_COUNTS_clear : Fld := ⟨186, 63, 1, 0⟩
/-- DEV_REGION_SERVICE bits 15:0 (17 R478). -/
def R.DEV_REGION_SERVICE_in_service : Fld := ⟨187, 0, 16, 65535⟩
/-- DEV_CELL_SERVICE bits 31:0 (17 R478). -/
def R.DEV_CELL_SERVICE_in_service : Fld := ⟨188, 0, 32, 4294967295⟩
/-- METER_STATUS bits 0:0 (18 R495). -/
def R.METER_STATUS_seal_open : Fld := ⟨189, 0, 1, 0⟩
/-- METER_STATUS bits 1:1 (18 R495). -/
def R.METER_STATUS_timebase_degraded : Fld := ⟨189, 1, 1, 0⟩
/-- METER_STATUS bits 2:2 (18 R495). -/
def R.METER_STATUS_feed_absent : Fld := ⟨189, 2, 1, 0⟩
/-- METER_STATUS bits 3:3 (18 R495). -/
def R.METER_STATUS_stale : Fld := ⟨189, 3, 1, 0⟩
/-- METER_STATUS bits 9:4 (18 R495). -/
def R.METER_STATUS_overrange : Fld := ⟨189, 4, 6, 0⟩
/-- METER_COUNTS bits 30:0 (18 R495). -/
def R.METER_COUNTS_param_events : Fld := ⟨190, 0, 31, 0⟩
/-- METER_COUNTS bits 31:31 (18 R495). -/
def R.METER_COUNTS_param_events_sat : Fld := ⟨190, 31, 1, 0⟩
/-- METER_COUNTS bits 62:32 (18 R495). -/
def R.METER_COUNTS_feed_interruptions : Fld := ⟨190, 32, 31, 0⟩
/-- METER_COUNTS bits 63:63 (18 R495). -/
def R.METER_COUNTS_feed_interruptions_sat : Fld := ⟨190, 63, 1, 0⟩
/-- METER_RECORD_NUMBER bits 63:0 (18 R495). -/
def R.METER_RECORD_NUMBER_number : Fld := ⟨191, 0, 64, 0⟩
/-- METER_SECONDS bits 63:0 (18 R495). -/
def R.METER_SECONDS_seconds : Fld := ⟨192, 0, 64, 0⟩
/-- METER_ENERGY bits 62:0 (18 R495). -/
def R.METER_ENERGY_energy : Fld := ⟨193, 0, 63, 0⟩
/-- METER_ENERGY bits 63:63 (18 R495). -/
def R.METER_ENERGY_sat : Fld := ⟨193, 63, 1, 0⟩
/-- METER_PARAM bits 63:0 (18 R495). -/
def R.METER_PARAM_param : Fld := ⟨194, 0, 64, 0⟩
/-- METER_RECORD bits 63:0 (18 R495). -/
def R.METER_RECORD_record : Fld := ⟨195, 0, 64, 0⟩
/-- METER_SNAPSHOT bits 63:0 (18 R495). -/
def R.METER_SNAPSHOT_table : Fld := ⟨196, 0, 64, 0⟩
/-- METER_CERT bits 63:0 (18 R495). -/
def R.METER_CERT_cert : Fld := ⟨197, 0, 64, 0⟩
/-- EVT_RING_BASE bits 63:0 (19 R517). -/
def R.EVT_RING_BASE_base : Fld := ⟨198, 0, 64, 0⟩
/-- EVT_RING_HEAD bits 11:0 (19 R517). -/
def R.EVT_RING_HEAD_head : Fld := ⟨199, 0, 12, 0⟩
/-- EVT_RING_TAIL bits 11:0 (19 R517). -/
def R.EVT_RING_TAIL_tail : Fld := ⟨200, 0, 12, 0⟩
/-- EVT_CTL bits 0:0 (19 R517). -/
def R.EVT_CTL_enable : Fld := ⟨201, 0, 1, 0⟩
/-- EVT_CTL bits 6:1 (19 R517). -/
def R.EVT_CTL_vec_warn : Fld := ⟨201, 1, 6, 60⟩
/-- EVT_CTL bits 12:7 (19 R517). -/
def R.EVT_CTL_vec_fault : Fld := ⟨201, 7, 6, 61⟩
/-- EVT_CTL bits 18:13 (19 R517). -/
def R.EVT_CTL_vec_fatal : Fld := ⟨201, 13, 6, 62⟩
/-- EVT_CTL bits 24:19 (19 R517). -/
def R.EVT_CTL_vec_nmi : Fld := ⟨201, 19, 6, 63⟩
/-- EVT_CTL bits 34:25 (19 R517). -/
def R.EVT_CTL_coalesce : Fld := ⟨201, 25, 10, 10⟩
/-- EVT_STATUS bits 0:0 (19 R517). -/
def R.EVT_STATUS_nmi_seen : Fld := ⟨202, 0, 1, 0⟩
/-- EVT_STATUS bits 1:1 (19 R517). -/
def R.EVT_STATUS_fatal_seen : Fld := ⟨202, 1, 1, 0⟩
/-- EVT_STATUS bits 2:2 (19 R517). -/
def R.EVT_STATUS_fault_seen : Fld := ⟨202, 2, 1, 0⟩
/-- EVT_STATUS bits 3:3 (19 R517). -/
def R.EVT_STATUS_boot_alert : Fld := ⟨202, 3, 1, 0⟩
/-- EVT_STATUS bits 4:4 (19 R517). -/
def R.EVT_STATUS_full : Fld := ⟨202, 4, 1, 0⟩
/-- EVT_STATUS bits 5:5 (19 R517). -/
def R.EVT_STATUS_alert : Fld := ⟨202, 5, 1, 0⟩
/-- EVT_COUNTS bits 23:0 (19 R517). -/
def R.EVT_COUNTS_written : Fld := ⟨203, 0, 24, 0⟩
/-- EVT_COUNTS bits 39:24 (19 R517). -/
def R.EVT_COUNTS_dropped : Fld := ⟨203, 24, 16, 0⟩
/-- EVT_COUNTS bits 55:40 (19 R517). -/
def R.EVT_COUNTS_masked : Fld := ⟨203, 40, 16, 0⟩
/-- EVT_COUNTS bits 58:56 (19 R517). -/
def R.EVT_COUNTS_sat : Fld := ⟨203, 56, 3, 0⟩
/-- EVT_COUNTS bits 63:63 (19 R517). -/
def R.EVT_COUNTS_clear : Fld := ⟨203, 63, 1, 0⟩
/-- EVT_LAST_SEVERE_W0 bits 63:0 (19 R517). -/
def R.EVT_LAST_SEVERE_time : Fld := ⟨204, 0, 64, 0⟩
/-- EVT_LAST_SEVERE_W1 bits 15:0 (19 R517). -/
def R.EVT_LAST_SEVERE_code : Fld := ⟨205, 0, 16, 0⟩
/-- EVT_LAST_SEVERE_W1 bits 18:16 (19 R517). -/
def R.EVT_LAST_SEVERE_severity : Fld := ⟨205, 16, 3, 0⟩
/-- EVT_LAST_SEVERE_W1 bits 19:19 (19 R517). -/
def R.EVT_LAST_SEVERE_valid : Fld := ⟨205, 19, 1, 0⟩
/-- EVT_LAST_SEVERE_W1 bits 27:20 (19 R517). -/
def R.EVT_LAST_SEVERE_region : Fld := ⟨205, 20, 8, 0⟩
/-- EVT_CMD bits 1:0 (19 R517). -/
def R.EVT_CMD_action : Fld := ⟨206, 0, 2, 0⟩
/-- EVT_MASK bits 63:0 (19 R517). -/
def R.EVT_MASK_mask : Fld := ⟨207, 0, 64, 0⟩
/-- EVT_ROUTER bits 23:0 (19 R517). -/
def R.EVT_ROUTER_resends : Fld := ⟨208, 0, 24, 0⟩
/-- EVT_ROUTER bits 31:24 (19 R517). -/
def R.EVT_ROUTER_failures : Fld := ⟨208, 24, 8, 0⟩
/-- EVT_ROUTER bits 33:32 (19 R517). -/
def R.EVT_ROUTER_sat : Fld := ⟨208, 32, 2, 0⟩
/-- EVT_ROUTER bits 63:63 (19 R517). -/
def R.EVT_ROUTER_clear : Fld := ⟨208, 63, 1, 0⟩
/-- LIFE_CTL bits 0:0 (19 R517). -/
def R.LIFE_CTL_enable : Fld := ⟨209, 0, 1, 1⟩
/-- LIFE_CTL bits 1:1 (19 R517). -/
def R.LIFE_CTL_flush : Fld := ⟨209, 1, 1, 0⟩
/-- LIFE_STATUS bits 31:0 (19 R517). -/
def R.LIFE_STATUS_seq : Fld := ⟨210, 0, 32, 0⟩
/-- LIFE_STATUS bits 40:32 (19 R517). -/
def R.LIFE_STATUS_queued : Fld := ⟨210, 32, 9, 0⟩
/-- LIFE_STATUS bits 41:41 (19 R517). -/
def R.LIFE_STATUS_busy : Fld := ⟨210, 41, 1, 0⟩
/-- LIFE_STATUS bits 42:42 (19 R517). -/
def R.LIFE_STATUS_write_failed : Fld := ⟨210, 42, 1, 0⟩
/-- LIFE_TOTALS bits 31:0 (19 R517). -/
def R.LIFE_TOTALS_power_on_hours : Fld := ⟨211, 0, 32, 0⟩
/-- LIFE_TOTALS bits 55:32 (19 R517). -/
def R.LIFE_TOTALS_thermal_cycles : Fld := ⟨211, 32, 24, 0⟩
/-- LIFE_TOTALS bits 57:56 (19 R517). -/
def R.LIFE_TOTALS_sat : Fld := ⟨211, 56, 2, 0⟩
/-- LIFE_TIDES bits 47:0 (19 R517). -/
def R.LIFE_TIDES_tides : Fld := ⟨212, 0, 48, 0⟩
/-- LIFE_TIDES bits 48:48 (19 R517). -/
def R.LIFE_TIDES_sat : Fld := ⟨212, 48, 1, 0⟩
/-- DEV_ID bits 15:0 (20 R528). -/
def R.DEV_ID_vendor : Fld := ⟨213, 0, 16, 0⟩
/-- DEV_ID bits 31:16 (20 R528). -/
def R.DEV_ID_device : Fld := ⟨213, 16, 16, 0⟩
/-- DEV_ID bits 35:32 (20 R528). -/
def R.DEV_ID_family : Fld := ⟨213, 32, 4, 1⟩
/-- DEV_ID bits 39:36 (20 R528). -/
def R.DEV_ID_member : Fld := ⟨213, 36, 4, 9⟩
/-- DEV_ID bits 41:40 (20 R528). -/
def R.DEV_ID_grade : Fld := ⟨213, 40, 2, 0⟩
/-- DEV_ID bits 55:48 (20 R528). -/
def R.DEV_ID_stepping : Fld := ⟨213, 48, 8, 0⟩
/-- DEV_SERIAL bits 63:0 (20 R528). -/
def R.DEV_SERIAL_serial : Fld := ⟨214, 0, 64, 0⟩
/-- DEV_STATUS bits 0:0 (20 R528). -/
def R.DEV_STATUS_core_h : Fld := ⟨215, 0, 1, 0⟩
/-- DEV_STATUS bits 1:1 (20 R528). -/
def R.DEV_STATUS_core_e : Fld := ⟨215, 1, 1, 0⟩
/-- DEV_STATUS bits 2:2 (20 R528). -/
def R.DEV_STATUS_boot_lock : Fld := ⟨215, 2, 1, 0⟩
/-- DEV_STATUS bits 3:3 (20 R528). -/
def R.DEV_STATUS_admit_lock : Fld := ⟨215, 3, 1, 0⟩
/-- ENGINE_PRESENT bits 5:0 (20 R528). -/
def R.ENGINE_PRESENT_links : Fld := ⟨216, 0, 6, 0⟩
/-- ENGINE_PRESENT bits 7:6 (20 R528). -/
def R.ENGINE_PRESENT_quay : Fld := ⟨216, 6, 2, 0⟩
/-- ENGINE_PRESENT bits 15:8 (20 R528). -/
def R.ENGINE_PRESENT_stacks : Fld := ⟨216, 8, 8, 0⟩
/-- ENGINE_PRESENT bits 31:16 (20 R528). -/
def R.ENGINE_PRESENT_regions : Fld := ⟨216, 16, 16, 0⟩
/-- ENGINE_PRESENT bits 32:32 (20 R528). -/
def R.ENGINE_PRESENT_ferry : Fld := ⟨216, 32, 1, 0⟩
/-- ENGINE_PRESENT bits 33:33 (20 R528). -/
def R.ENGINE_PRESENT_serving : Fld := ⟨216, 33, 1, 0⟩
/-- ENGINE_PRESENT bits 34:34 (20 R528). -/
def R.ENGINE_PRESENT_meter : Fld := ⟨216, 34, 1, 0⟩
/-- ENGINE_PRESENT_W bits 63:0 (20 R528). -/
def R.ENGINE_PRESENT_W_cells : Fld := ⟨217, 0, 64, 0⟩

/-- Class S counter TIDE_COUNTS_overruns with its sat bit (R7, R8). -/
def C.TIDE_COUNTS_overruns : Counter := ⟨R.TIDE_COUNTS_overruns, R.TIDE_COUNTS_sat, 0⟩

/-- Class S counter TIDE_COUNTS_lagged_starts with its sat bit (R7, R8). -/
def C.TIDE_COUNTS_lagged_starts : Counter := ⟨R.TIDE_COUNTS_lagged_starts, R.TIDE_COUNTS_sat, 1⟩

/-- Class S counter TIDE_COUNTS_late_landings with its sat bit (R7, R8). -/
def C.TIDE_COUNTS_late_landings : Counter := ⟨R.TIDE_COUNTS_late_landings, R.TIDE_COUNTS_sat, 2⟩

/-- Class S counter TIDE_COUNTS_stale_flits with its sat bit (R7, R8). -/
def C.TIDE_COUNTS_stale_flits : Counter := ⟨R.TIDE_COUNTS_stale_flits, R.TIDE_COUNTS_sat, 3⟩

/-- Class S counter SEQ_COUNTS_ceiling_clamps with its sat bit (R7, R8). -/
def C.SEQ_COUNTS_ceiling_clamps : Counter := ⟨R.SEQ_COUNTS_ceiling_clamps, R.SEQ_COUNTS_sat, 0⟩

/-- Class S counter SEQ_COUNTS_stream_holds with its sat bit (R7, R8). -/
def C.SEQ_COUNTS_stream_holds : Counter := ⟨R.SEQ_COUNTS_stream_holds, R.SEQ_COUNTS_sat, 1⟩

/-- Class S counter SEQ_ARITH_below with its sat bit (R7, R8). -/
def C.SEQ_ARITH_below : Counter := ⟨R.SEQ_ARITH_below, R.SEQ_ARITH_sat, 0⟩

/-- Class S counter SEQ_ARITH_range_lanes with its sat bit (R7, R8). -/
def C.SEQ_ARITH_range_lanes : Counter := ⟨R.SEQ_ARITH_range_lanes, R.SEQ_ARITH_sat, 1⟩

/-- Class S counter SEQ_ARITH_special_lanes with its sat bit (R7, R8). -/
def C.SEQ_ARITH_special_lanes : Counter := ⟨R.SEQ_ARITH_special_lanes, R.SEQ_ARITH_sat, 2⟩

/-- Class S counter DEV_TIMING_CHOICE_COUNT_collisions with its sat bit (R7, R8). -/
def C.DEV_TIMING_CHOICE_COUNT_collisions : Counter := ⟨R.DEV_TIMING_CHOICE_COUNT_collisions, R.DEV_TIMING_CHOICE_COUNT_collisions_sat, 0⟩

/-- Class S counter DEV_TIMING_CHOICE_COUNT_first_ready with its sat bit (R7, R8). -/
def C.DEV_TIMING_CHOICE_COUNT_first_ready : Counter := ⟨R.DEV_TIMING_CHOICE_COUNT_first_ready, R.DEV_TIMING_CHOICE_COUNT_first_ready_sat, 0⟩

/-- Class S counter SP_COUNTS_corrected with its sat bit (R7, R8). -/
def C.SP_COUNTS_corrected : Counter := ⟨R.SP_COUNTS_corrected, R.SP_COUNTS_sat, 0⟩

/-- Class S counter SP_COUNTS_uncorrectable with its sat bit (R7, R8). -/
def C.SP_COUNTS_uncorrectable : Counter := ⟨R.SP_COUNTS_uncorrectable, R.SP_COUNTS_sat, 1⟩

/-- Class S counter SP_COUNTS_slips with its sat bit (R7, R8). -/
def C.SP_COUNTS_slips : Counter := ⟨R.SP_COUNTS_slips, R.SP_COUNTS_sat, 2⟩

/-- Class S counter SP_COUNTS_harbour_violations with its sat bit (R7, R8). -/
def C.SP_COUNTS_harbour_violations : Counter := ⟨R.SP_COUNTS_harbour_violations, R.SP_COUNTS_sat, 3⟩

/-- Class S counter HB_ECC_COUNTS_corrected with its sat bit (R7, R8). -/
def C.HB_ECC_COUNTS_corrected : Counter := ⟨R.HB_ECC_COUNTS_corrected, R.HB_ECC_COUNTS_sat, 0⟩

/-- Class S counter HB_ECC_COUNTS_uncorrectable with its sat bit (R7, R8). -/
def C.HB_ECC_COUNTS_uncorrectable : Counter := ⟨R.HB_ECC_COUNTS_uncorrectable, R.HB_ECC_COUNTS_sat, 1⟩

/-- Class S counter FERRY_COUNTS_verified with its sat bit (R7, R8). -/
def C.FERRY_COUNTS_verified : Counter := ⟨R.FERRY_COUNTS_verified, R.FERRY_COUNTS_sat, 0⟩

/-- Class S counter FERRY_COUNTS_bad with its sat bit (R7, R8). -/
def C.FERRY_COUNTS_bad : Counter := ⟨R.FERRY_COUNTS_bad, R.FERRY_COUNTS_sat, 1⟩

/-- Class S counter FERRY_COUNTS_repaired with its sat bit (R7, R8). -/
def C.FERRY_COUNTS_repaired : Counter := ⟨R.FERRY_COUNTS_repaired, R.FERRY_COUNTS_sat, 2⟩

/-- Class S counter SVC_COUNTS_admitted with its sat bit (R7, R8). -/
def C.SVC_COUNTS_admitted : Counter := ⟨R.SVC_COUNTS_admitted, R.SVC_COUNTS_sat, 0⟩

/-- Class S counter SVC_COUNTS_rejected with its sat bit (R7, R8). -/
def C.SVC_COUNTS_rejected : Counter := ⟨R.SVC_COUNTS_rejected, R.SVC_COUNTS_sat, 1⟩

/-- Class S counter SVC_COUNTS_steps_lost with its sat bit (R7, R8). -/
def C.SVC_COUNTS_steps_lost : Counter := ⟨R.SVC_COUNTS_steps_lost, R.SVC_COUNTS_sat, 2⟩

/-- Class S counter SVC_COUNTS_page_holds with its sat bit (R7, R8). -/
def C.SVC_COUNTS_page_holds : Counter := ⟨R.SVC_COUNTS_page_holds, R.SVC_COUNTS_sat, 3⟩

/-- Class S counter SVC_LOG_CTL_lost with its sat bit (R7, R8). -/
def C.SVC_LOG_CTL_lost : Counter := ⟨R.SVC_LOG_CTL_lost, R.SVC_LOG_CTL_lost_sat, 0⟩

/-- Class S counter IST_COUNTS_crc_errors with its sat bit (R7, R8). -/
def C.IST_COUNTS_crc_errors : Counter := ⟨R.IST_COUNTS_crc_errors, R.IST_COUNTS_sat, 0⟩

/-- Class S counter IST_COUNTS_retrains with its sat bit (R7, R8). -/
def C.IST_COUNTS_retrains : Counter := ⟨R.IST_COUNTS_retrains, R.IST_COUNTS_sat, 1⟩

/-- Class S counter IST_COUNTS_sb_frames_lost with its sat bit (R7, R8). -/
def C.IST_COUNTS_sb_frames_lost : Counter := ⟨R.IST_COUNTS_sb_frames_lost, R.IST_COUNTS_sat, 2⟩

/-- Class S counter IST_COUNTS_lane_repairs with its sat bit (R7, R8). -/
def C.IST_COUNTS_lane_repairs : Counter := ⟨R.IST_COUNTS_lane_repairs, R.IST_COUNTS_sat, 3⟩

/-- Class S counter CW_COUNTS_crc_errors with its sat bit (R7, R8). -/
def C.CW_COUNTS_crc_errors : Counter := ⟨R.CW_COUNTS_crc_errors, R.CW_COUNTS_sat, 0⟩

/-- Class S counter CW_COUNTS_replays with its sat bit (R7, R8). -/
def C.CW_COUNTS_replays : Counter := ⟨R.CW_COUNTS_replays, R.CW_COUNTS_sat, 1⟩

/-- Class S counter CW_COUNTS_downs with its sat bit (R7, R8). -/
def C.CW_COUNTS_downs : Counter := ⟨R.CW_COUNTS_downs, R.CW_COUNTS_sat, 2⟩

/-- Class S counter CW_COUNTS_lane_failures with its sat bit (R7, R8). -/
def C.CW_COUNTS_lane_failures : Counter := ⟨R.CW_COUNTS_lane_failures, R.CW_COUNTS_sat, 3⟩

/-- Class S counter CW_DISCARD_plan_discarded with its sat bit (R7, R8). -/
def C.CW_DISCARD_plan_discarded : Counter := ⟨R.CW_DISCARD_plan_discarded, R.CW_COUNTS_sat, 4⟩

/-- Class S counter CW_CREDIT_resyncs with its sat bit (R7, R8). -/
def C.CW_CREDIT_resyncs : Counter := ⟨R.CW_CREDIT_resyncs, R.CW_CREDIT_resyncs_sat, 0⟩

/-- Class S counter DRIFT_COUNTS_detours with its sat bit (R7, R8). -/
def C.DRIFT_COUNTS_detours : Counter := ⟨R.DRIFT_COUNTS_detours, R.DRIFT_COUNTS_sat, 0⟩

/-- Class S counter DRIFT_COUNTS_bounced with its sat bit (R7, R8). -/
def C.DRIFT_COUNTS_bounced : Counter := ⟨R.DRIFT_COUNTS_bounced, R.DRIFT_COUNTS_sat, 1⟩

/-- Class S counter DRIFT_COUNTS_discarded with its sat bit (R7, R8). -/
def C.DRIFT_COUNTS_discarded : Counter := ⟨R.DRIFT_COUNTS_discarded, R.DRIFT_COUNTS_sat, 2⟩

/-- Class S counter DRIFT_COUNTS_timeouts with its sat bit (R7, R8). -/
def C.DRIFT_COUNTS_timeouts : Counter := ⟨R.DRIFT_COUNTS_timeouts, R.DRIFT_COUNTS_sat, 3⟩

/-- Class S counter DRIFT_COUNTS2_stale with its sat bit (R7, R8). -/
def C.DRIFT_COUNTS2_stale : Counter := ⟨R.DRIFT_COUNTS2_stale, R.DRIFT_COUNTS2_sat, 0⟩

/-- Class S counter DRIFT_COUNTS2_malformed with its sat bit (R7, R8). -/
def C.DRIFT_COUNTS2_malformed : Counter := ⟨R.DRIFT_COUNTS2_malformed, R.DRIFT_COUNTS2_sat, 1⟩

/-- Class S counter DRIFT_COUNTS2_link_lost with its sat bit (R7, R8). -/
def C.DRIFT_COUNTS2_link_lost : Counter := ⟨R.DRIFT_COUNTS2_link_lost, R.DRIFT_COUNTS2_sat, 2⟩

/-- Class S counter ARB_WATCH_grants with its sat bit (R7, R8). -/
def C.ARB_WATCH_grants : Counter := ⟨R.ARB_WATCH_grants, R.ARB_WATCH_sat, 0⟩

/-- Class S counter ARB_WATCH_waits with its sat bit (R7, R8). -/
def C.ARB_WATCH_waits : Counter := ⟨R.ARB_WATCH_waits, R.ARB_WATCH_sat, 1⟩

/-- Class S counter ARB_WATCH_longest with its sat bit (R7, R8). -/
def C.ARB_WATCH_longest : Counter := ⟨R.ARB_WATCH_longest, R.ARB_WATCH_sat, 2⟩

/-- Class S counter TIME_COUNTS_parent_changes with its sat bit (R7, R8). -/
def C.TIME_COUNTS_parent_changes : Counter := ⟨R.TIME_COUNTS_parent_changes, R.TIME_COUNTS_sat, 0⟩

/-- Class S counter TIME_COUNTS_holdovers with its sat bit (R7, R8). -/
def C.TIME_COUNTS_holdovers : Counter := ⟨R.TIME_COUNTS_holdovers, R.TIME_COUNTS_sat, 1⟩

/-- Class S counter TIME_COUNTS_steps with its sat bit (R7, R8). -/
def C.TIME_COUNTS_steps : Counter := ⟨R.TIME_COUNTS_steps, R.TIME_COUNTS_sat, 2⟩

/-- Class S counter TIME_COUNTS_loops with its sat bit (R7, R8). -/
def C.TIME_COUNTS_loops : Counter := ⟨R.TIME_COUNTS_loops, R.TIME_COUNTS_sat, 3⟩

/-- Class S counter HOST_COUNTS_link_downs with its sat bit (R7, R8). -/
def C.HOST_COUNTS_link_downs : Counter := ⟨R.HOST_COUNTS_link_downs, R.HOST_COUNTS_sat, 0⟩

/-- Class S counter HOST_COUNTS_replays with its sat bit (R7, R8). -/
def C.HOST_COUNTS_replays : Counter := ⟨R.HOST_COUNTS_replays, R.HOST_COUNTS_sat, 1⟩

/-- Class S counter HOST_COUNTS_poisoned with its sat bit (R7, R8). -/
def C.HOST_COUNTS_poisoned : Counter := ⟨R.HOST_COUNTS_poisoned, R.HOST_COUNTS_sat, 2⟩

/-- Class S counter QUAY_COUNTS_fcs_errors with its sat bit (R7, R8). -/
def C.QUAY_COUNTS_fcs_errors : Counter := ⟨R.QUAY_COUNTS_fcs_errors, R.QUAY_COUNTS_sat, 0⟩

/-- Class S counter QUAY_COUNTS_icrc_errors with its sat bit (R7, R8). -/
def C.QUAY_COUNTS_icrc_errors : Counter := ⟨R.QUAY_COUNTS_icrc_errors, R.QUAY_COUNTS_sat, 1⟩

/-- Class S counter QUAY_COUNTS_retransmits with its sat bit (R7, R8). -/
def C.QUAY_COUNTS_retransmits : Counter := ⟨R.QUAY_COUNTS_retransmits, R.QUAY_COUNTS_sat, 2⟩

/-- Class S counter QUAY_COUNTS_link_downs with its sat bit (R7, R8). -/
def C.QUAY_COUNTS_link_downs : Counter := ⟨R.QUAY_COUNTS_link_downs, R.QUAY_COUNTS_sat, 3⟩

/-- Class S counter CLK_MON_COUNTS_xtal_a with its sat bit (R7, R8). -/
def C.CLK_MON_COUNTS_xtal_a : Counter := ⟨R.CLK_MON_COUNTS_xtal_a, R.CLK_MON_COUNTS_sat, 0⟩

/-- Class S counter CLK_MON_COUNTS_xtal_b with its sat bit (R7, R8). -/
def C.CLK_MON_COUNTS_xtal_b : Counter := ⟨R.CLK_MON_COUNTS_xtal_b, R.CLK_MON_COUNTS_sat, 1⟩

/-- Class S counter CLK_MON_COUNTS_pll_main with its sat bit (R7, R8). -/
def C.CLK_MON_COUNTS_pll_main : Counter := ⟨R.CLK_MON_COUNTS_pll_main, R.CLK_MON_COUNTS_sat, 2⟩

/-- Class S counter CLK_MON_COUNTS_dfll with its sat bit (R7, R8). -/
def C.CLK_MON_COUNTS_dfll : Counter := ⟨R.CLK_MON_COUNTS_dfll, R.CLK_MON_COUNTS_sat, 3⟩

/-- Class S counter PWR_DIP_dips with its sat bit (R7, R8). -/
def C.PWR_DIP_dips : Counter := ⟨R.PWR_DIP_dips, R.PWR_DIP_sat, 0⟩

/-- Class S counter PWR_DIP_resets with its sat bit (R7, R8). -/
def C.PWR_DIP_resets : Counter := ⟨R.PWR_DIP_resets, R.PWR_DIP_sat, 1⟩

/-- Class S counter SEC_COUNTS_refused with its sat bit (R7, R8). -/
def C.SEC_COUNTS_refused : Counter := ⟨R.SEC_COUNTS_refused, R.SEC_COUNTS_sat, 0⟩

/-- Class S counter METER_COUNTS_param_events with its sat bit (R7, R8). -/
def C.METER_COUNTS_param_events : Counter := ⟨R.METER_COUNTS_param_events, R.METER_COUNTS_param_events_sat, 0⟩

/-- Class S counter METER_COUNTS_feed_interruptions with its sat bit (R7, R8). -/
def C.METER_COUNTS_feed_interruptions : Counter := ⟨R.METER_COUNTS_feed_interruptions, R.METER_COUNTS_feed_interruptions_sat, 0⟩

/-- Class S counter METER_ENERGY_energy with its sat bit (R7, R8). -/
def C.METER_ENERGY_energy : Counter := ⟨R.METER_ENERGY_energy, R.METER_ENERGY_sat, 0⟩

/-- Class S counter EVT_COUNTS_written with its sat bit (R7, R8). -/
def C.EVT_COUNTS_written : Counter := ⟨R.EVT_COUNTS_written, R.EVT_COUNTS_sat, 0⟩

/-- Class S counter EVT_COUNTS_dropped with its sat bit (R7, R8). -/
def C.EVT_COUNTS_dropped : Counter := ⟨R.EVT_COUNTS_dropped, R.EVT_COUNTS_sat, 1⟩

/-- Class S counter EVT_COUNTS_masked with its sat bit (R7, R8). -/
def C.EVT_COUNTS_masked : Counter := ⟨R.EVT_COUNTS_masked, R.EVT_COUNTS_sat, 2⟩

/-- Class S counter EVT_ROUTER_resends with its sat bit (R7, R8). -/
def C.EVT_ROUTER_resends : Counter := ⟨R.EVT_ROUTER_resends, R.EVT_ROUTER_sat, 0⟩

/-- Class S counter EVT_ROUTER_failures with its sat bit (R7, R8). -/
def C.EVT_ROUTER_failures : Counter := ⟨R.EVT_ROUTER_failures, R.EVT_ROUTER_sat, 1⟩

/-- Class S counter LIFE_TOTALS_power_on_hours with its sat bit (R7, R8). -/
def C.LIFE_TOTALS_power_on_hours : Counter := ⟨R.LIFE_TOTALS_power_on_hours, R.LIFE_TOTALS_sat, 0⟩

/-- Class S counter LIFE_TOTALS_thermal_cycles with its sat bit (R7, R8). -/
def C.LIFE_TOTALS_thermal_cycles : Counter := ⟨R.LIFE_TOTALS_thermal_cycles, R.LIFE_TOTALS_sat, 1⟩

/-- Class S counter LIFE_TIDES_tides with its sat bit (R7, R8). -/
def C.LIFE_TIDES_tides : Counter := ⟨R.LIFE_TIDES_tides, R.LIFE_TIDES_sat, 0⟩

/-- The register words of the DEV block. -/
def regWordsDev : List RegWord := [
  { word := 0, name := "DEV_FUNC_MODE", base := 0x40, dims := [], dom := .lh, bar2 := false,
    fields := [{ fld := R.DEV_FUNC_MODE_boot_src, access := .rw },
      { fld := R.DEV_FUNC_MODE_link_train, access := .rw },
      { fld := R.DEV_FUNC_MODE_time_servo, access := .rw },
      { fld := R.DEV_FUNC_MODE_weight_load, access := .rw },
      { fld := R.DEV_FUNC_MODE_eviction, access := .rw },
      { fld := R.DEV_FUNC_MODE_launch_relay, access := .rw },
      { fld := R.DEV_FUNC_MODE_drift_retry, access := .rw },
      { fld := R.DEV_FUNC_MODE_scrub_refetch, access := .rw },
      { fld := R.DEV_FUNC_MODE_admission, access := .rw },
      { fld := R.DEV_FUNC_MODE_budget_refill, access := .rw }] },
  { word := 1, name := "DEV_FUNC_MODE_ACTIVE", base := 0x48, dims := [], dom := .lh, bar2 := false,
    fields := [{ fld := R.DEV_FUNC_MODE_ACTIVE_active, access := .ro }] },
  { word := 25, name := "DEV_TIMING_CHOICE_COUNT", base := 0x60, dims := [], dom := .coreE, bar2 := true,
    fields := [{ fld := R.DEV_TIMING_CHOICE_COUNT_collisions, access := .ro },
      { fld := R.DEV_TIMING_CHOICE_COUNT_collisions_sat, access := .ro },
      { fld := R.DEV_TIMING_CHOICE_COUNT_first_ready, access := .ro },
      { fld := R.DEV_TIMING_CHOICE_COUNT_first_ready_sat, access := .ro }] },
  { word := 136, name := "DEV_ADDR", base := 0x80, dims := [], dom := .lh, bar2 := true,
    fields := [{ fld := R.DEV_ADDR_address, access := .ro },
      { fld := R.DEV_ADDR_valid, access := .ro },
      { fld := R.DEV_ADDR_straps, access := .ro }] },
  { word := 137, name := "DEV_REGION_MAP", base := 0x88, dims := [], dom := .coreE, bar2 := true,
    fields := [{ fld := R.DEV_REGION_MAP_phys, access := .ro }] },
  { word := 138, name := "DEV_ADMIT_IMAGE", base := 0x90, dims := [], dom := .coreE, bar2 := false,
    fields := [{ fld := R.DEV_ADMIT_IMAGE_image, access := .rw }] },
  { word := 139, name := "DEV_ADMIT_MAP", base := 0x98, dims := [], dom := .coreE, bar2 := false,
    fields := [{ fld := R.DEV_ADMIT_MAP_map, access := .rw }] },
  { word := 140, name := "DEV_ADMIT_CMD", base := 0xA0, dims := [], dom := .coreE, bar2 := false,
    fields := [{ fld := R.DEV_ADMIT_CMD_action, access := .wo }] },
  { word := 141, name := "DEV_ADMIT_STATUS", base := 0xA8, dims := [], dom := .coreE, bar2 := true,
    fields := [{ fld := R.DEV_ADMIT_STATUS_state, access := .ro },
      { fld := R.DEV_ADMIT_STATUS_check, access := .ro },
      { fld := R.DEV_ADMIT_STATUS_virtual_device, access := .ro }] },
  { word := 142, name := "DEV_LAUNCH_CTL", base := 0xB0, dims := [], dom := .coreE, bar2 := false,
    fields := [{ fld := R.DEV_LAUNCH_CTL_launch_wait, access := .rw },
      { fld := R.DEV_LAUNCH_CTL_host_wait, access := .rw }] },
  { word := 143, name := "DEV_LAUNCH_CMD", base := 0xB8, dims := [], dom := .coreE, bar2 := false,
    fields := [{ fld := R.DEV_LAUNCH_CMD_action, access := .wo },
      { fld := R.DEV_LAUNCH_CMD_arg, access := .wo }] },
  { word := 144, name := "DEV_LAUNCH_STATUS", base := 0xC0, dims := [], dom := .coreE, bar2 := true,
    fields := [{ fld := R.DEV_LAUNCH_STATUS_state, access := .ro },
      { fld := R.DEV_LAUNCH_STATUS_acked, access := .ro },
      { fld := R.DEV_LAUNCH_STATUS_missing, access := .ro },
      { fld := R.DEV_LAUNCH_STATUS_first_missing, access := .ro },
      { fld := R.DEV_LAUNCH_STATUS_origin, access := .ro }] },
  { word := 145, name := "DEV_ADMIT_DETAIL", base := 0xC8, dims := [], dom := .coreE, bar2 := true,
    fields := [{ fld := R.DEV_ADMIT_DETAIL_region, access := .ro },
      { fld := R.DEV_ADMIT_DETAIL_region_valid, access := .ro },
      { fld := R.DEV_ADMIT_DETAIL_table, access := .ro },
      { fld := R.DEV_ADMIT_DETAIL_entry, access := .ro }] },
  { word := 187, name := "DEV_REGION_SERVICE", base := 0xD0, dims := [], dom := .lh, bar2 := false,
    fields := [{ fld := R.DEV_REGION_SERVICE_in_service, access := .rw }] },
  { word := 188, name := "DEV_CELL_SERVICE", base := 0x100, dims := [(16, 8)], dom := .lh, bar2 := false,
    fields := [{ fld := R.DEV_CELL_SERVICE_in_service, access := .rw }] },
  { word := 213, name := "DEV_ID", base := 0x0, dims := [], dom := .lh, bar2 := true,
    fields := [{ fld := R.DEV_ID_vendor, access := .ro },
      { fld := R.DEV_ID_device, access := .ro },
      { fld := R.DEV_ID_family, access := .ro },
      { fld := R.DEV_ID_member, access := .ro },
      { fld := R.DEV_ID_grade, access := .ro },
      { fld := R.DEV_ID_stepping, access := .ro }] },
  { word := 214, name := "DEV_SERIAL", base := 0x8, dims := [], dom := .lh, bar2 := true,
    fields := [{ fld := R.DEV_SERIAL_serial, access := .ro }] },
  { word := 215, name := "DEV_STATUS", base := 0x10, dims := [], dom := .lh, bar2 := true,
    fields := [{ fld := R.DEV_STATUS_core_h, access := .ro },
      { fld := R.DEV_STATUS_core_e, access := .ro },
      { fld := R.DEV_STATUS_boot_lock, access := .ro },
      { fld := R.DEV_STATUS_admit_lock, access := .ro }] },
  { word := 216, name := "ENGINE_PRESENT", base := 0x180, dims := [], dom := .lh, bar2 := true,
    fields := [{ fld := R.ENGINE_PRESENT_links, access := .ro },
      { fld := R.ENGINE_PRESENT_quay, access := .ro },
      { fld := R.ENGINE_PRESENT_stacks, access := .ro },
      { fld := R.ENGINE_PRESENT_regions, access := .ro },
      { fld := R.ENGINE_PRESENT_ferry, access := .ro },
      { fld := R.ENGINE_PRESENT_serving, access := .ro },
      { fld := R.ENGINE_PRESENT_meter, access := .ro }] },
  { word := 217, name := "ENGINE_PRESENT_W", base := 0x188, dims := [(6, 8)], dom := .lh, bar2 := true,
    fields := [{ fld := R.ENGINE_PRESENT_W_cells, access := .ro }] }]

/-- The register words of the TIDE block. -/
def regWordsTide : List RegWord := [
  { word := 2, name := "TIDE_CTL", base := 0x200000, dims := [], dom := .coreE, bar2 := false,
    fields := [{ fld := R.TIDE_CTL_overrun_policy, access := .rw },
      { fld := R.TIDE_CTL_lag_limit, access := .rw },
      { fld := R.TIDE_CTL_landing_grace, access := .rw },
      { fld := R.TIDE_CTL_tick_cap, access := .rw },
      { fld := R.TIDE_CTL_wake_lead, access := .rw }] },
  { word := 3, name := "TIDE_PERIOD", base := 0x200008, dims := [], dom := .coreE, bar2 := true,
    fields := [{ fld := R.TIDE_PERIOD_period, access := .rw }] },
  { word := 4, name := "TIDE_ORIGIN", base := 0x200010, dims := [], dom := .coreE, bar2 := true,
    fields := [{ fld := R.TIDE_ORIGIN_origin, access := .rw }] },
  { word := 5, name := "TIDE_NUMBER", base := 0x200018, dims := [], dom := .coreE, bar2 := true,
    fields := [{ fld := R.TIDE_NUMBER_tide, access := .ro }] },
  { word := 6, name := "TIDE_STATUS", base := 0x200020, dims := [], dom := .coreE, bar2 := true,
    fields := [{ fld := R.TIDE_STATUS_state, access := .ro },
      { fld := R.TIDE_STATUS_lagging, access := .ro },
      { fld := R.TIDE_STATUS_deferred, access := .ro },
      { fld := R.TIDE_STATUS_hold_mask, access := .ro }] },
  { word := 7, name := "TIDE_LAG", base := 0x200028, dims := [], dom := .coreE, bar2 := true,
    fields := [{ fld := R.TIDE_LAG_lag, access := .ro },
      { fld := R.TIDE_LAG_lag_peak, access := .ro }] },
  { word := 8, name := "TIDE_HOLD_LIMIT", base := 0x200030, dims := [], dom := .coreE, bar2 := false,
    fields := [{ fld := R.TIDE_HOLD_LIMIT_limit, access := .rw }] },
  { word := 9, name := "TIDE_FAULT", base := 0x200040, dims := [], dom := .coreE, bar2 := true,
    fields := [{ fld := R.TIDE_FAULT_cause, access := .ro },
      { fld := R.TIDE_FAULT_source, access := .ro },
      { fld := R.TIDE_FAULT_more, access := .ro },
      { fld := R.TIDE_FAULT_tick, access := .ro }] },
  { word := 10, name := "TIDE_LAUNCH", base := 0x200048, dims := [], dom := .coreE, bar2 := true,
    fields := [{ fld := R.TIDE_LAUNCH_launch_tide, access := .ro },
      { fld := R.TIDE_LAUNCH_valid, access := .ro },
      { fld := R.TIDE_LAUNCH_late, access := .ro }] },
  { word := 11, name := "TIDE_COUNTS", base := 0x200050, dims := [], dom := .coreE, bar2 := true,
    fields := [{ fld := R.TIDE_COUNTS_overruns, access := .ro },
      { fld := R.TIDE_COUNTS_lagged_starts, access := .ro },
      { fld := R.TIDE_COUNTS_late_landings, access := .ro },
      { fld := R.TIDE_COUNTS_stale_flits, access := .ro },
      { fld := R.TIDE_COUNTS_sat, access := .ro },
      { fld := R.TIDE_COUNTS_clear, access := .wo }] },
  { word := 12, name := "TIDE_REGION", base := 0x200100, dims := [(16, 8)], dom := .byRegion, bar2 := true,
    fields := [{ fld := R.TIDE_REGION_end_offset, access := .ro },
      { fld := R.TIDE_REGION_hold_ticks_last, access := .ro }] },
  { word := 13, name := "TIDE_HOLD_TICKS", base := 0x200200, dims := [(16, 8)], dom := .byRegion, bar2 := true,
    fields := [{ fld := R.TIDE_HOLD_TICKS_hold_ticks, access := .ro }] }]

/-- The register words of the SEQ block. -/
def regWordsSeq : List RegWord := [
  { word := 14, name := "SEQ_STATUS", base := 0x300000, dims := [(16, 65536)], dom := .byRegion, bar2 := true,
    fields := [{ fld := R.SEQ_STATUS_pc, access := .ro },
      { fld := R.SEQ_STATUS_depth, access := .ro },
      { fld := R.SEQ_STATUS_stream_hold, access := .ro },
      { fld := R.SEQ_STATUS_loop_shadow, access := .ro },
      { fld := R.SEQ_STATUS_ended, access := .ro },
      { fld := R.SEQ_STATUS_tick, access := .ro }] },
  { word := 15, name := "SEQ_TARGET", base := 0x300008, dims := [(16, 65536)], dom := .byRegion, bar2 := false,
    fields := [{ fld := R.SEQ_TARGET_target, access := .lkAdmit },
      { fld := R.SEQ_TARGET_present, access := .ro }] },
  { word := 16, name := "SEQ_FAULT", base := 0x300010, dims := [(16, 65536)], dom := .byRegion, bar2 := true,
    fields := [{ fld := R.SEQ_FAULT_cause, access := .ro },
      { fld := R.SEQ_FAULT_more, access := .ro },
      { fld := R.SEQ_FAULT_pc, access := .ro },
      { fld := R.SEQ_FAULT_tick, access := .ro }] },
  { word := 17, name := "SEQ_STREAM", base := 0x300018, dims := [(16, 65536)], dom := .byRegion, bar2 := false,
    fields := [{ fld := R.SEQ_STREAM_resident_pages, access := .ro },
      { fld := R.SEQ_STREAM_ring_pages, access := .ro },
      { fld := R.SEQ_STREAM_fill_page, access := .ro },
      { fld := R.SEQ_STREAM_pc_page, access := .ro }] },
  { word := 18, name := "SEQ_COUNTS", base := 0x300020, dims := [(16, 65536)], dom := .byRegion, bar2 := true,
    fields := [{ fld := R.SEQ_COUNTS_ceiling_clamps, access := .ro },
      { fld := R.SEQ_COUNTS_stream_holds, access := .ro },
      { fld := R.SEQ_COUNTS_sat, access := .ro },
      { fld := R.SEQ_COUNTS_clear, access := .wo }] },
  { word := 19, name := "SEQ_SHADOW_TICKS", base := 0x300028, dims := [(16, 65536)], dom := .byRegion, bar2 := true,
    fields := [{ fld := R.SEQ_SHADOW_TICKS_shadow_ticks, access := .ro }] },
  { word := 20, name := "SEQ_LEAD_CELL", base := 0x300030, dims := [(16, 65536)], dom := .byRegion, bar2 := true,
    fields := [{ fld := R.SEQ_LEAD_CELL_cell, access := .ro }] },
  { word := 21, name := "SEQ_LOOP_COUNT", base := 0x300100, dims := [(16, 65536), (16, 8)], dom := .byRegion, bar2 := true,
    fields := [{ fld := R.SEQ_LOOP_COUNT_count, access := .rw }] },
  { word := 22, name := "SEQ_CIX", base := 0x300400, dims := [(16, 65536), (32, 32), (4, 8)], dom := .byRegion, bar2 := false,
    fields := [{ fld := R.SEQ_CIX_index, access := .lkAdmit }] },
  { word := 23, name := "SEQ_ARITH", base := 0x300040, dims := [(16, 65536)], dom := .byRegion, bar2 := true,
    fields := [{ fld := R.SEQ_ARITH_below, access := .ro },
      { fld := R.SEQ_ARITH_range_lanes, access := .ro },
      { fld := R.SEQ_ARITH_special_lanes, access := .ro },
      { fld := R.SEQ_ARITH_sat, access := .ro },
      { fld := R.SEQ_ARITH_clear, access := .wo }] },
  { word := 24, name := "SEQ_ARITH_FIRST", base := 0x300048, dims := [(16, 65536)], dom := .byRegion, bar2 := true,
    fields := [{ fld := R.SEQ_ARITH_FIRST_pc, access := .ro },
      { fld := R.SEQ_ARITH_FIRST_tick, access := .ro },
      { fld := R.SEQ_ARITH_FIRST_cell, access := .ro },
      { fld := R.SEQ_ARITH_FIRST_array, access := .ro },
      { fld := R.SEQ_ARITH_FIRST_set, access := .ro },
      { fld := R.SEQ_ARITH_FIRST_valid, access := .ro }] }]

/-- The register words of the SP block. -/
def regWordsSp : List RegWord := [
  { word := 26, name := "SP_SEG_CLASS", base := 0x400000, dims := [(16, 262144), (32, 8192)], dom := .byRegion, bar2 := false,
    fields := [{ fld := R.SP_SEG_CLASS_weight, access := .lkAdmit }] },
  { word := 27, name := "SP_COUNTS", base := 0x400008, dims := [(16, 262144), (32, 8192)], dom := .byRegion, bar2 := true,
    fields := [{ fld := R.SP_COUNTS_corrected, access := .ro },
      { fld := R.SP_COUNTS_uncorrectable, access := .ro },
      { fld := R.SP_COUNTS_slips, access := .ro },
      { fld := R.SP_COUNTS_harbour_violations, access := .ro },
      { fld := R.SP_COUNTS_sat, access := .ro },
      { fld := R.SP_COUNTS_clear, access := .wo }] },
  { word := 28, name := "SP_ECC_LAST", base := 0x400010, dims := [(16, 262144), (32, 8192)], dom := .byRegion, bar2 := false,
    fields := [{ fld := R.SP_ECC_LAST_word, access := .ro },
      { fld := R.SP_ECC_LAST_weight, access := .ro },
      { fld := R.SP_ECC_LAST_uncorrectable, access := .ro },
      { fld := R.SP_ECC_LAST_bits, access := .ro },
      { fld := R.SP_ECC_LAST_valid, access := .ro }] },
  { word := 29, name := "SP_SLIP_FIRST", base := 0x400018, dims := [(16, 262144), (32, 8192)], dom := .byRegion, bar2 := false,
    fields := [{ fld := R.SP_SLIP_FIRST_pc, access := .ro },
      { fld := R.SP_SLIP_FIRST_tick, access := .ro },
      { fld := R.SP_SLIP_FIRST_bank, access := .ro },
      { fld := R.SP_SLIP_FIRST_valid, access := .ro }] },
  { word := 30, name := "SP_HARBOUR_LAST", base := 0x400020, dims := [(16, 262144), (32, 8192)], dom := .byRegion, bar2 := true,
    fields := [{ fld := R.SP_HARBOUR_LAST_device, access := .ro },
      { fld := R.SP_HARBOUR_LAST_offset, access := .ro },
      { fld := R.SP_HARBOUR_LAST_source, access := .ro },
      { fld := R.SP_HARBOUR_LAST_write, access := .ro },
      { fld := R.SP_HARBOUR_LAST_valid, access := .ro }] },
  { word := 31, name := "SP_SEG_BAD", base := 0x400028, dims := [(16, 262144), (32, 8192)], dom := .byRegion, bar2 := false,
    fields := [{ fld := R.SP_SEG_BAD_bad, access := .ro }] },
  { word := 32, name := "SP_HARBOUR", base := 0x400100, dims := [(16, 262144), (32, 8192), (8, 8)], dom := .byRegion, bar2 := true,
    fields := [{ fld := R.SP_HARBOUR_open, access := .rw, bar2w := true },
      { fld := R.SP_HARBOUR_write_rights, access := .rw, bar2w := true },
      { fld := R.SP_HARBOUR_read_rights, access := .rw, bar2w := true },
      { fld := R.SP_HARBOUR_base, access := .rw, bar2w := true },
      { fld := R.SP_HARBOUR_size, access := .rw, bar2w := true }] }]

/-- The register words of the HB block. -/
def regWordsHb : List RegWord := [
  { word := 33, name := "HB_AREA", base := 0x800000, dims := [(2, 64), (8, 8)], dom := .byDie, bar2 := false,
    fields := [{ fld := R.HB_AREA_base, access := .lkBoot },
      { fld := R.HB_AREA_size, access := .lkBoot }] },
  { word := 34, name := "HB_ECC_COUNTS", base := 0x800100, dims := [(8, 8)], dom := .byStack, bar2 := false,
    fields := [{ fld := R.HB_ECC_COUNTS_corrected, access := .ro },
      { fld := R.HB_ECC_COUNTS_uncorrectable, access := .ro },
      { fld := R.HB_ECC_COUNTS_sat, access := .ro },
      { fld := R.HB_ECC_COUNTS_clear, access := .wo }] },
  { word := 35, name := "HB_ECC_LAST", base := 0x800200, dims := [(8, 8)], dom := .byStack, bar2 := false,
    fields := [{ fld := R.HB_ECC_LAST_address, access := .ro },
      { fld := R.HB_ECC_LAST_area, access := .ro },
      { fld := R.HB_ECC_LAST_found_by, access := .ro },
      { fld := R.HB_ECC_LAST_valid, access := .ro }] },
  { word := 36, name := "HB_SCRUB", base := 0x800300, dims := [], dom := .coreE, bar2 := false,
    fields := [{ fld := R.HB_SCRUB_period, access := .rw },
      { fld := R.HB_SCRUB_enable, access := .rw }] },
  { word := 37, name := "HB_RESERVE", base := 0x800400, dims := [(8, 8)], dom := .byStack, bar2 := true,
    fields := [{ fld := R.HB_RESERVE_slots, access := .ro }] }]

/-- The register words of the FERRY block. -/
def regWordsFerry : List RegWord := [
  { word := 38, name := "FERRY_RING_BASE", base := 0x900000, dims := [], dom := .coreE, bar2 := false,
    fields := [{ fld := R.FERRY_RING_BASE_base, access := .rw }] },
  { word := 39, name := "FERRY_RING_CTL", base := 0x900008, dims := [], dom := .coreE, bar2 := false,
    fields := [{ fld := R.FERRY_RING_CTL_size, access := .rw },
      { fld := R.FERRY_RING_CTL_enable, access := .rw }] },
  { word := 40, name := "FERRY_RING_TAIL", base := 0x900010, dims := [], dom := .coreE, bar2 := false,
    fields := [{ fld := R.FERRY_RING_TAIL_tail, access := .rw }] },
  { word := 41, name := "FERRY_RING_HEAD", base := 0x900018, dims := [], dom := .coreE, bar2 := false,
    fields := [{ fld := R.FERRY_RING_HEAD_head, access := .ro }] },
  { word := 42, name := "FERRY_CTL", base := 0x900020, dims := [], dom := .coreE, bar2 := false,
    fields := [{ fld := R.FERRY_CTL_host_wait, access := .rw },
      { fld := R.FERRY_CTL_rehash_interval, access := .rw },
      { fld := R.FERRY_CTL_rehash_rate, access := .rw }] },
  { word := 43, name := "FERRY_COUNTS", base := 0x900028, dims := [], dom := .coreE, bar2 := false,
    fields := [{ fld := R.FERRY_COUNTS_verified, access := .ro },
      { fld := R.FERRY_COUNTS_bad, access := .ro },
      { fld := R.FERRY_COUNTS_repaired, access := .ro },
      { fld := R.FERRY_COUNTS_sat, access := .ro },
      { fld := R.FERRY_COUNTS_clear, access := .wo }] },
  { word := 44, name := "FERRY_MODEL_CMD", base := 0x900030, dims := [], dom := .coreE, bar2 := false,
    fields := [{ fld := R.FERRY_MODEL_CMD_entry, access := .wo },
      { fld := R.FERRY_MODEL_CMD_action, access := .wo }] },
  { word := 45, name := "FERRY_MODEL_W0", base := 0x901000, dims := [(128, 64)], dom := .coreE, bar2 := true,
    fields := [{ fld := R.FERRY_MODEL_model_id, access := .rw }] },
  { word := 46, name := "FERRY_MODEL_W1", base := 0x901008, dims := [(128, 64)], dom := .coreE, bar2 := true,
    fields := [{ fld := R.FERRY_MODEL_generation, access := .rw },
      { fld := R.FERRY_MODEL_key_index, access := .rw },
      { fld := R.FERRY_MODEL_die_mask, access := .rw },
      { fld := R.FERRY_MODEL_pin, access := .rw },
      { fld := R.FERRY_MODEL_state, access := .ro }] },
  { word := 47, name := "FERRY_MODEL_W2", base := 0x901010, dims := [(128, 64)], dom := .coreE, bar2 := true,
    fields := [{ fld := R.FERRY_MODEL_size, access := .rw },
      { fld := R.FERRY_MODEL_shard_count, access := .rw }] },
  { word := 48, name := "FERRY_MODEL_W3", base := 0x901018, dims := [(128, 64)], dom := .coreE, bar2 := true,
    fields := [{ fld := R.FERRY_MODEL_est_base, access := .ro }] },
  { word := 49, name := "FERRY_MODEL_W4", base := 0x901020, dims := [(128, 64)], dom := .coreE, bar2 := true,
    fields := [{ fld := R.FERRY_MODEL_head_base, access := .ro }] },
  { word := 50, name := "FERRY_MODEL_W5", base := 0x901028, dims := [(128, 64)], dom := .coreE, bar2 := true,
    fields := [{ fld := R.FERRY_MODEL_manifest, access := .rw }] },
  { word := 51, name := "FERRY_MODEL_W6", base := 0x901030, dims := [(128, 64)], dom := .coreE, bar2 := true,
    fields := [{ fld := R.FERRY_MODEL_last_use, access := .ro },
      { fld := R.FERRY_MODEL_users, access := .ro }] },
  { word := 52, name := "FERRY_MODEL_W7", base := 0x901038, dims := [(128, 64)], dom := .coreE, bar2 := true,
    fields := [{ fld := R.FERRY_MODEL_bad_copies, access := .ro },
      { fld := R.FERRY_MODEL_verified_shards, access := .ro }] }]

/-- The register words of the SVC block. -/
def regWordsSvc : List RegWord := [
  { word := 53, name := "SVC_CTL", base := 0xA00000, dims := [], dom := .coreE, bar2 := false,
    fields := [{ fld := R.SVC_CTL_enable, access := .rw },
      { fld := R.SVC_CTL_admit_max, access := .rw },
      { fld := R.SVC_CTL_model_wait, access := .rw },
      { fld := R.SVC_CTL_host_wait, access := .rw },
      { fld := R.SVC_CTL_retry, access := .rw },
      { fld := R.SVC_CTL_switch_lead, access := .rw }] },
  { word := 54, name := "SVC_STATUS", base := 0xA00008, dims := [], dom := .coreE, bar2 := true,
    fields := [{ fld := R.SVC_STATUS_state, access := .ro },
      { fld := R.SVC_STATUS_plan, access := .ro },
      { fld := R.SVC_STATUS_step, access := .ro }] },
  { word := 55, name := "SVC_COUNTS", base := 0xA00010, dims := [], dom := .coreE, bar2 := true,
    fields := [{ fld := R.SVC_COUNTS_admitted, access := .ro },
      { fld := R.SVC_COUNTS_rejected, access := .ro },
      { fld := R.SVC_COUNTS_steps_lost, access := .ro },
      { fld := R.SVC_COUNTS_page_holds, access := .ro },
      { fld := R.SVC_COUNTS_sat, access := .ro },
      { fld := R.SVC_COUNTS_clear, access := .wo }] },
  { word := 56, name := "SVC_ADMIT_PENDING", base := 0xA00018, dims := [], dom := .coreE, bar2 := false,
    fields := [{ fld := R.SVC_ADMIT_PENDING_rings, access := .ro }] },
  { word := 57, name := "SVC_ADMIT_DECISION", base := 0xA00020, dims := [], dom := .coreE, bar2 := false,
    fields := [{ fld := R.SVC_ADMIT_DECISION_ring, access := .wo },
      { fld := R.SVC_ADMIT_DECISION_action, access := .wo }] },
  { word := 58, name := "SVC_RECORD_BASE", base := 0xA00040, dims := [(2, 8)], dom := .coreE, bar2 := false,
    fields := [{ fld := R.SVC_RECORD_BASE_base, access := .rw }] },
  { word := 59, name := "SVC_RESULT_BASE", base := 0xA00050, dims := [(2, 8)], dom := .coreE, bar2 := false,
    fields := [{ fld := R.SVC_RESULT_BASE_base, access := .rw }] },
  { word := 60, name := "SVC_KV_POOL", base := 0xA00060, dims := [(2, 8)], dom := .coreE, bar2 := true,
    fields := [{ fld := R.SVC_KV_POOL_free, access := .ro },
      { fld := R.SVC_KV_POOL_frames, access := .ro }] },
  { word := 61, name := "SVC_KV_CTL", base := 0xA00070, dims := [], dom := .coreE, bar2 := false,
    fields := [{ fld := R.SVC_KV_CTL_low_water, access := .rw },
      { fld := R.SVC_KV_CTL_high_water, access := .rw },
      { fld := R.SVC_KV_CTL_stage_frames, access := .rw },
      { fld := R.SVC_KV_CTL_slow_enable, access := .rw },
      { fld := R.SVC_KV_CTL_slow_frames, access := .rw }] },
  { word := 62, name := "SVC_KV_SLOW_BASE", base := 0xA00078, dims := [], dom := .coreE, bar2 := false,
    fields := [{ fld := R.SVC_KV_SLOW_BASE_base, access := .rw }] },
  { word := 63, name := "SVC_LOG_BASE", base := 0xA00080, dims := [], dom := .coreE, bar2 := false,
    fields := [{ fld := R.SVC_LOG_BASE_base, access := .rw }] },
  { word := 64, name := "SVC_LOG_CTL", base := 0xA00088, dims := [], dom := .coreE, bar2 := false,
    fields := [{ fld := R.SVC_LOG_CTL_size, access := .rw },
      { fld := R.SVC_LOG_CTL_prompt_max, access := .rw },
      { fld := R.SVC_LOG_CTL_enable, access := .rw },
      { fld := R.SVC_LOG_CTL_lost, access := .ro },
      { fld := R.SVC_LOG_CTL_lost_sat, access := .ro }] },
  { word := 65, name := "SVC_LOG_HEAD", base := 0xA00090, dims := [], dom := .coreE, bar2 := false,
    fields := [{ fld := R.SVC_LOG_HEAD_head, access := .ro }] },
  { word := 66, name := "SVC_LOG_TAIL", base := 0xA00098, dims := [], dom := .coreE, bar2 := false,
    fields := [{ fld := R.SVC_LOG_TAIL_tail, access := .rw }] },
  { word := 67, name := "SVC_PLAN_W0", base := 0xA01000, dims := [(16, 32)], dom := .coreE, bar2 := true,
    fields := [{ fld := R.SVC_PLAN_image, access := .rw }] },
  { word := 68, name := "SVC_PLAN_W1", base := 0xA01008, dims := [(16, 32)], dom := .coreE, bar2 := true,
    fields := [{ fld := R.SVC_PLAN_model, access := .rw },
      { fld := R.SVC_PLAN_quantum, access := .rw },
      { fld := R.SVC_PLAN_step_tides, access := .rw },
      { fld := R.SVC_PLAN_decode_width, access := .rw },
      { fld := R.SVC_PLAN_prefill_width, access := .rw },
      { fld := R.SVC_PLAN_prefill_units, access := .rw },
      { fld := R.SVC_PLAN_layers, access := .rw },
      { fld := R.SVC_PLAN_enable, access := .rw }] },
  { word := 69, name := "SVC_PLAN_W2", base := 0xA01010, dims := [(16, 32)], dom := .coreE, bar2 := true,
    fields := [{ fld := R.SVC_PLAN_page_ceiling, access := .rw },
      { fld := R.SVC_PLAN_tokens_per_page, access := .rw },
      { fld := R.SVC_PLAN_eos, access := .rw }] },
  { word := 70, name := "SVC_INTAKE_W0", base := 0xA02000, dims := [(16, 32)], dom := .coreE, bar2 := true,
    fields := [{ fld := R.SVC_INTAKE_base, access := .rw }] },
  { word := 71, name := "SVC_INTAKE_CTL", base := 0xA02008, dims := [(16, 32)], dom := .coreE, bar2 := true,
    fields := [{ fld := R.SVC_INTAKE_size, access := .rw },
      { fld := R.SVC_INTAKE_enable, access := .rw }] },
  { word := 72, name := "SVC_INTAKE_TAIL", base := 0xA02010, dims := [(16, 32)], dom := .coreE, bar2 := true,
    fields := [{ fld := R.SVC_INTAKE_tail, access := .rw, bar2w := true }] },
  { word := 73, name := "SVC_INTAKE_HEAD", base := 0xA02018, dims := [(16, 32)], dom := .coreE, bar2 := true,
    fields := [{ fld := R.SVC_INTAKE_head, access := .ro }] },
  { word := 74, name := "SVC_SLOT", base := 0xA04000, dims := [(256, 8)], dom := .coreE, bar2 := true,
    fields := [{ fld := R.SVC_SLOT_state, access := .ro },
      { fld := R.SVC_SLOT_plan, access := .ro },
      { fld := R.SVC_SLOT_lane, access := .ro },
      { fld := R.SVC_SLOT_held, access := .ro },
      { fld := R.SVC_SLOT_committed, access := .ro }] },
  { word := 75, name := "SVC_BUDGET_CTL", base := 0xA000A0, dims := [], dom := .coreE, bar2 := false,
    fields := [{ fld := R.SVC_BUDGET_CTL_refill_period, access := .rw },
      { fld := R.SVC_BUDGET_CTL_hold_limit, access := .rw }] },
  { word := 76, name := "SVC_BUDGET_ADJ", base := 0xA000A8, dims := [], dom := .coreE, bar2 := false,
    fields := [{ fld := R.SVC_BUDGET_ADJ_customer, access := .wo },
      { fld := R.SVC_BUDGET_ADJ_delta, access := .wo }] },
  { word := 77, name := "SVC_METER_FEED", base := 0xA000B0, dims := [], dom := .coreE, bar2 := true,
    fields := [{ fld := R.SVC_METER_FEED_queued, access := .ro },
      { fld := R.SVC_METER_FEED_stalled, access := .ro }] },
  { word := 78, name := "SVC_OUT_W0", base := 0xA03000, dims := [(16, 32)], dom := .coreE, bar2 := true,
    fields := [{ fld := R.SVC_OUT_base, access := .rw }] },
  { word := 79, name := "SVC_OUT_CTL", base := 0xA03008, dims := [(16, 32)], dom := .coreE, bar2 := true,
    fields := [{ fld := R.SVC_OUT_size, access := .rw },
      { fld := R.SVC_OUT_enable, access := .rw },
      { fld := R.SVC_OUT_vector, access := .rw }] },
  { word := 80, name := "SVC_OUT_TAIL_ADDR", base := 0xA03010, dims := [(16, 32)], dom := .coreE, bar2 := true,
    fields := [{ fld := R.SVC_OUT_addr, access := .rw }] },
  { word := 81, name := "SVC_OUT_HEAD", base := 0xA03018, dims := [(16, 32)], dom := .coreE, bar2 := true,
    fields := [{ fld := R.SVC_OUT_head, access := .rw, bar2w := true },
      { fld := R.SVC_OUT_tail, access := .ro }] },
  { word := 82, name := "SVC_BUDGET_W0", base := 0xA10000, dims := [(4096, 32)], dom := .coreE, bar2 := true,
    fields := [{ fld := R.SVC_BUDGET_balance, access := .ro }] },
  { word := 83, name := "SVC_BUDGET_W1", base := 0xA10008, dims := [(4096, 32)], dom := .coreE, bar2 := true,
    fields := [{ fld := R.SVC_BUDGET_reserved, access := .ro },
      { fld := R.SVC_BUDGET_tenant, access := .rw, hidden := true },
      { fld := R.SVC_BUDGET_enable, access := .rw, hidden := true },
      { fld := R.SVC_BUDGET_unlimited, access := .rw, hidden := true },
      { fld := R.SVC_BUDGET_low, access := .ro },
      { fld := R.SVC_BUDGET_budget_holds, access := .ro }] },
  { word := 84, name := "SVC_BUDGET_W2", base := 0xA10010, dims := [(4096, 32)], dom := .coreE, bar2 := true,
    fields := [{ fld := R.SVC_BUDGET_refill_cap, access := .rw, hidden := true }] },
  { word := 85, name := "SVC_BUDGET_W3", base := 0xA10018, dims := [(4096, 32)], dom := .coreE, bar2 := true,
    fields := [{ fld := R.SVC_BUDGET_refill_amount, access := .rw, hidden := true },
      { fld := R.SVC_BUDGET_low_mark, access := .rw, hidden := true }] }]

/-- The register words of the IST block. -/
def regWordsIst : List RegWord := [
  { word := 86, name := "IST_CTL", base := 0xB00000, dims := [], dom := .coreH, bar2 := false,
    fields := [{ fld := R.IST_CTL_replay_limit, access := .rw },
      { fld := R.IST_CTL_retrain_max, access := .rw }] },
  { word := 87, name := "IST_STATUS", base := 0xB00008, dims := [], dom := .coreH, bar2 := true,
    fields := [{ fld := R.IST_STATUS_state, access := .ro },
      { fld := R.IST_STATUS_modules, access := .ro },
      { fld := R.IST_STATUS_sb_locked, access := .ro }] },
  { word := 88, name := "IST_RESERVE", base := 0xB00010, dims := [], dom := .coreH, bar2 := true,
    fields := [{ fld := R.IST_RESERVE_reserved, access := .ro },
      { fld := R.IST_RESERVE_capacity, access := .ro }] },
  { word := 89, name := "IST_COUNTS", base := 0xB00018, dims := [], dom := .coreH, bar2 := false,
    fields := [{ fld := R.IST_COUNTS_crc_errors, access := .ro },
      { fld := R.IST_COUNTS_retrains, access := .ro },
      { fld := R.IST_COUNTS_sb_frames_lost, access := .ro },
      { fld := R.IST_COUNTS_lane_repairs, access := .ro },
      { fld := R.IST_COUNTS_sat, access := .ro },
      { fld := R.IST_COUNTS_clear, access := .wo }] },
  { word := 90, name := "IST_SB", base := 0xB00020, dims := [], dom := .coreH, bar2 := false,
    fields := [{ fld := R.IST_SB_offset, access := .ro },
      { fld := R.IST_SB_delay, access := .ro }] }]

/-- The register words of the CW block. -/
def regWordsCw : List RegWord := [
  { word := 91, name := "CW_CTL", base := 0xC00000, dims := [(6, 4096)], dom := .byLink, bar2 := false,
    fields := [{ fld := R.CW_CTL_down_time, access := .rw },
      { fld := R.CW_CTL_ack_timeout, access := .rw },
      { fld := R.CW_CTL_lane_err_limit, access := .rw }] },
  { word := 92, name := "CW_TRAIN", base := 0xC00008, dims := [(6, 4096)], dom := .byLink, bar2 := false,
    fields := [{ fld := R.CW_TRAIN_train_timeout, access := .rw },
      { fld := R.CW_TRAIN_retry_wait, access := .rw },
      { fld := R.CW_TRAIN_flap_limit, access := .rw },
      { fld := R.CW_TRAIN_flap_window, access := .rw },
      { fld := R.CW_TRAIN_damp_time, access := .rw },
      { fld := R.CW_TRAIN_host_wait, access := .rw }] },
  { word := 93, name := "CW_FENCE", base := 0xC00010, dims := [(6, 4096)], dom := .byLink, bar2 := false,
    fields := [{ fld := R.CW_FENCE_fence, access := .rw }] },
  { word := 94, name := "CW_STATUS", base := 0xC00018, dims := [(6, 4096)], dom := .byLink, bar2 := true,
    fields := [{ fld := R.CW_STATUS_state, access := .ro },
      { fld := R.CW_STATUS_width, access := .ro },
      { fld := R.CW_STATUS_tx_width, access := .ro },
      { fld := R.CW_STATUS_cause, access := .ro },
      { fld := R.CW_STATUS_lock, access := .ro },
      { fld := R.CW_STATUS_spill_active, access := .ro },
      { fld := R.CW_STATUS_drift_stopped, access := .ro },
      { fld := R.CW_STATUS_replaying, access := .ro }] },
  { word := 95, name := "CW_LANES", base := 0xC00020, dims := [(6, 4096)], dom := .byLink, bar2 := false,
    fields := [{ fld := R.CW_LANES_rx_active, access := .ro },
      { fld := R.CW_LANES_rx_failed, access := .ro },
      { fld := R.CW_LANES_tx_active, access := .ro },
      { fld := R.CW_LANES_tx_failed, access := .ro },
      { fld := R.CW_LANES_rx_spare_used, access := .ro },
      { fld := R.CW_LANES_tx_spare_used, access := .ro }] },
  { word := 96, name := "CW_PEER_EXPECT", base := 0xC00028, dims := [(6, 4096)], dom := .byLink, bar2 := false,
    fields := [{ fld := R.CW_PEER_EXPECT_device, access := .lkBoot },
      { fld := R.CW_PEER_EXPECT_link, access := .lkBoot },
      { fld := R.CW_PEER_EXPECT_check, access := .lkBoot }] },
  { word := 97, name := "CW_PEER", base := 0xC00030, dims := [(6, 4096)], dom := .byLink, bar2 := true,
    fields := [{ fld := R.CW_PEER_device, access := .ro },
      { fld := R.CW_PEER_link, access := .ro },
      { fld := R.CW_PEER_valid, access := .ro },
      { fld := R.CW_PEER_beacon, access := .ro }] },
  { word := 98, name := "CW_RESERVE", base := 0xC00038, dims := [(6, 4096)], dom := .byLink, bar2 := true,
    fields := [{ fld := R.CW_RESERVE_reserved, access := .ro },
      { fld := R.CW_RESERVE_capacity, access := .ro }] },
  { word := 99, name := "CW_REPLAY", base := 0xC00040, dims := [(6, 4096)], dom := .byLink, bar2 := false,
    fields := [{ fld := R.CW_REPLAY_store, access := .ro },
      { fld := R.CW_REPLAY_spill, access := .ro },
      { fld := R.CW_REPLAY_unacked, access := .ro }] },
  { word := 100, name := "CW_COUNTS", base := 0xC00048, dims := [(6, 4096)], dom := .byLink, bar2 := false,
    fields := [{ fld := R.CW_COUNTS_crc_errors, access := .ro },
      { fld := R.CW_COUNTS_replays, access := .ro },
      { fld := R.CW_COUNTS_downs, access := .ro },
      { fld := R.CW_COUNTS_lane_failures, access := .ro },
      { fld := R.CW_COUNTS_sat, access := .ro },
      { fld := R.CW_COUNTS_clear, access := .wo }] },
  { word := 101, name := "CW_DISCARD", base := 0xC00050, dims := [(6, 4096)], dom := .byLink, bar2 := false,
    fields := [{ fld := R.CW_DISCARD_plan_discarded, access := .ro }] },
  { word := 102, name := "CW_FEC", base := 0xC00058, dims := [(6, 4096)], dom := .byLink, bar2 := false,
    fields := [{ fld := R.CW_FEC_corrected, access := .ro }] },
  { word := 103, name := "CW_FEC_UE", base := 0xC00060, dims := [(6, 4096)], dom := .byLink, bar2 := false,
    fields := [{ fld := R.CW_FEC_UE_uncorrectable, access := .ro }] },
  { word := 104, name := "CW_CREDIT", base := 0xC00080, dims := [(6, 4096), (4, 8)], dom := .byLink, bar2 := false,
    fields := [{ fld := R.CW_CREDIT_sent, access := .ro },
      { fld := R.CW_CREDIT_freed, access := .ro },
      { fld := R.CW_CREDIT_resyncs, access := .ro },
      { fld := R.CW_CREDIT_resyncs_sat, access := .ro }] },
  { word := 105, name := "CW_CMD", base := 0xC000A0, dims := [(6, 4096)], dom := .byLink, bar2 := false,
    fields := [{ fld := R.CW_CMD_action, access := .wo },
      { fld := R.CW_CMD_lane, access := .wo }] }]

/-- The register words of the DRIFT block. -/
def regWordsDrift : List RegWord := [
  { word := 106, name := "DRIFT_CTL", base := 0xD00000, dims := [], dom := .coreE, bar2 := false,
    fields := [{ fld := R.DRIFT_CTL_req_timeout, access := .rw },
      { fld := R.DRIFT_CTL_detour, access := .rw }] },
  { word := 107, name := "DRIFT_ROUTE", base := 0xD00008, dims := [], dom := .coreE, bar2 := false,
    fields := [{ fld := R.DRIFT_ROUTE_x, access := .lkBoot },
      { fld := R.DRIFT_ROUTE_y, access := .lkBoot },
      { fld := R.DRIFT_ROUTE_z, access := .lkBoot },
      { fld := R.DRIFT_ROUTE_nx, access := .lkBoot },
      { fld := R.DRIFT_ROUTE_ny, access := .lkBoot },
      { fld := R.DRIFT_ROUTE_nz, access := .lkBoot }] },
  { word := 108, name := "DRIFT_COUNTS", base := 0xD00010, dims := [], dom := .coreE, bar2 := true,
    fields := [{ fld := R.DRIFT_COUNTS_detours, access := .ro },
      { fld := R.DRIFT_COUNTS_bounced, access := .ro },
      { fld := R.DRIFT_COUNTS_discarded, access := .ro },
      { fld := R.DRIFT_COUNTS_timeouts, access := .ro },
      { fld := R.DRIFT_COUNTS_sat, access := .ro },
      { fld := R.DRIFT_COUNTS_clear, access := .wo }] },
  { word := 109, name := "DRIFT_COUNTS2", base := 0xD00018, dims := [], dom := .coreE, bar2 := true,
    fields := [{ fld := R.DRIFT_COUNTS2_stale, access := .ro },
      { fld := R.DRIFT_COUNTS2_malformed, access := .ro },
      { fld := R.DRIFT_COUNTS2_link_lost, access := .ro },
      { fld := R.DRIFT_COUNTS2_sat, access := .ro }] },
  { word := 110, name := "DRIFT_TAGS", base := 0xD00020, dims := [], dom := .coreE, bar2 := false,
    fields := [{ fld := R.DRIFT_TAGS_outstanding, access := .ro },
      { fld := R.DRIFT_TAGS_peak, access := .ro }] }]

/-- The register words of the ARB block. -/
def regWordsArb : List RegWord := [
  { word := 111, name := "ARB_MODE", base := 0xD10000, dims := [(600, 256)], dom := .byArb, bar2 := false,
    fields := [{ fld := R.ARB_MODE_mode, access := .rw },
      { fld := R.ARB_MODE_starve_limit, access := .rw },
      { fld := R.ARB_MODE_clear, access := .wo }] },
  { word := 112, name := "ARB_PRIO", base := 0xD10008, dims := [(600, 256)], dom := .byArb, bar2 := false,
    fields := [{ fld := R.ARB_PRIO_prio, access := .rw }] },
  { word := 113, name := "ARB_STATUS", base := 0xD10010, dims := [(600, 256)], dom := .byArb, bar2 := true,
    fields := [{ fld := R.ARB_STATUS_starved, access := .wc },
      { fld := R.ARB_STATUS_masked, access := .ro },
      { fld := R.ARB_STATUS_pending, access := .ro }] },
  { word := 114, name := "ARB_WATCH", base := 0xD10020, dims := [(600, 256), (16, 8)], dom := .byArb, bar2 := true,
    fields := [{ fld := R.ARB_WATCH_grants, access := .ro },
      { fld := R.ARB_WATCH_waits, access := .ro },
      { fld := R.ARB_WATCH_longest, access := .ro },
      { fld := R.ARB_WATCH_sat, access := .ro }] }]

/-- The register words of the TIME block. -/
def regWordsTime : List RegWord := [
  { word := 115, name := "TIME_NOW", base := 0xE00000, dims := [], dom := .coreE, bar2 := true,
    fields := [{ fld := R.TIME_NOW_now, access := .ro }] },
  { word := 116, name := "TIME_CTL", base := 0xE00008, dims := [], dom := .coreE, bar2 := false,
    fields := [{ fld := R.TIME_CTL_slew_max, access := .rw },
      { fld := R.TIME_CTL_step_threshold, access := .rw },
      { fld := R.TIME_CTL_exchange, access := .rw },
      { fld := R.TIME_CTL_loss_count, access := .rw },
      { fld := R.TIME_CTL_host_wait, access := .rw },
      { fld := R.TIME_CTL_servo_period, access := .rw }] },
  { word := 117, name := "TIME_PARENT", base := 0xE00010, dims := [], dom := .coreE, bar2 := false,
    fields := [{ fld := R.TIME_PARENT_primary, access := .rw },
      { fld := R.TIME_PARENT_fallback, access := .rw }] },
  { word := 118, name := "TIME_STATUS", base := 0xE00018, dims := [], dom := .coreE, bar2 := true,
    fields := [{ fld := R.TIME_STATUS_state, access := .ro },
      { fld := R.TIME_STATUS_source, access := .ro },
      { fld := R.TIME_STATUS_traceable, access := .ro },
      { fld := R.TIME_STATUS_hops, access := .ro },
      { fld := R.TIME_STATUS_root, access := .ro },
      { fld := R.TIME_STATUS_restricted, access := .ro }] },
  { word := 119, name := "TIME_OFFSET", base := 0xE00020, dims := [], dom := .coreE, bar2 := false,
    fields := [{ fld := R.TIME_OFFSET_theta, access := .ro },
      { fld := R.TIME_OFFSET_delay, access := .ro }] },
  { word := 120, name := "TIME_RATE", base := 0xE00028, dims := [], dom := .coreE, bar2 := false,
    fields := [{ fld := R.TIME_RATE_rate, access := .ro }] },
  { word := 121, name := "TIME_ADJ", base := 0xE00030, dims := [], dom := .coreE, bar2 := false,
    fields := [{ fld := R.TIME_ADJ_rate, access := .wo },
      { fld := R.TIME_ADJ_phase, access := .wo },
      { fld := R.TIME_ADJ_step, access := .wo }] },
  { word := 122, name := "TIME_EPOCH", base := 0xE00038, dims := [], dom := .coreE, bar2 := false,
    fields := [{ fld := R.TIME_EPOCH_seconds, access := .rw }] },
  { word := 123, name := "TIME_UTC", base := 0xE00040, dims := [], dom := .coreE, bar2 := false,
    fields := [{ fld := R.TIME_UTC_utc_offset, access := .rw },
      { fld := R.TIME_UTC_from_ptp, access := .ro }] },
  { word := 124, name := "TIME_PTP_W0", base := 0xE00080, dims := [(2, 32)], dom := .coreE, bar2 := false,
    fields := [{ fld := R.TIME_PTP_gm_identity, access := .rw }] },
  { word := 125, name := "TIME_PTP_W1", base := 0xE00088, dims := [(2, 32)], dom := .coreE, bar2 := false,
    fields := [{ fld := R.TIME_PTP_domain, access := .rw },
      { fld := R.TIME_PTP_transport, access := .rw },
      { fld := R.TIME_PTP_enable, access := .rw },
      { fld := R.TIME_PTP_delay_req_log, access := .rw },
      { fld := R.TIME_PTP_announce_timeout, access := .rw }] },
  { word := 126, name := "TIME_PTP_W2", base := 0xE00090, dims := [(2, 32)], dom := .coreE, bar2 := false,
    fields := [{ fld := R.TIME_PTP_state, access := .ro }] },
  { word := 127, name := "TIME_LINK", base := 0xE00100, dims := [(6, 8)], dom := .byLink, bar2 := false,
    fields := [{ fld := R.TIME_LINK_asym, access := .rw },
      { fld := R.TIME_LINK_delay, access := .ro }] },
  { word := 128, name := "TIME_CAPTURE_W0", base := 0xE00200, dims := [], dom := .coreE, bar2 := false,
    fields := [{ fld := R.TIME_CAPTURE_value, access := .ro }] },
  { word := 129, name := "TIME_CAPTURE_CTL", base := 0xE00208, dims := [], dom := .coreE, bar2 := false,
    fields := [{ fld := R.TIME_CAPTURE_count, access := .ro },
      { fld := R.TIME_CAPTURE_overrun, access := .wc },
      { fld := R.TIME_CAPTURE_edge, access := .rw },
      { fld := R.TIME_CAPTURE_enable, access := .rw }] },
  { word := 130, name := "TIME_PULSE_W0", base := 0xE00240, dims := [(4, 32)], dom := .coreE, bar2 := false,
    fields := [{ fld := R.TIME_PULSE_start, access := .rw }] },
  { word := 131, name := "TIME_PULSE_PERIOD", base := 0xE00248, dims := [(4, 32)], dom := .coreE, bar2 := false,
    fields := [{ fld := R.TIME_PULSE_period, access := .rw }] },
  { word := 132, name := "TIME_PULSE_CTL", base := 0xE00250, dims := [(4, 32)], dom := .coreE, bar2 := false,
    fields := [{ fld := R.TIME_PULSE_width, access := .rw },
      { fld := R.TIME_PULSE_arm, access := .ws },
      { fld := R.TIME_PULSE_armed, access := .ro },
      { fld := R.TIME_PULSE_late, access := .wc }] },
  { word := 133, name := "TIME_PPS", base := 0xE002C0, dims := [], dom := .coreE, bar2 := false,
    fields := [{ fld := R.TIME_PPS_edge, access := .rw },
      { fld := R.TIME_PPS_enable, access := .rw }] },
  { word := 134, name := "TIME_CALENDAR", base := 0xE00300, dims := [], dom := .lh, bar2 := true,
    fields := [{ fld := R.TIME_CALENDAR_seconds, access := .ro },
      { fld := R.TIME_CALENDAR_fraction, access := .ro },
      { fld := R.TIME_CALENDAR_synced, access := .ro }] },
  { word := 135, name := "TIME_COUNTS", base := 0xE00308, dims := [], dom := .coreE, bar2 := false,
    fields := [{ fld := R.TIME_COUNTS_parent_changes, access := .ro },
      { fld := R.TIME_COUNTS_holdovers, access := .ro },
      { fld := R.TIME_COUNTS_steps, access := .ro },
      { fld := R.TIME_COUNTS_loops, access := .ro },
      { fld := R.TIME_COUNTS_sat, access := .ro },
      { fld := R.TIME_COUNTS_clear, access := .wo }] }]

/-- The register words of the HOST block. -/
def regWordsHost : List RegWord := [
  { word := 146, name := "HOST_STATUS", base := 0x1000000, dims := [], dom := .hp, bar2 := true,
    fields := [{ fld := R.HOST_STATUS_link_up, access := .ro },
      { fld := R.HOST_STATUS_width, access := .ro },
      { fld := R.HOST_STATUS_rate, access := .ro },
      { fld := R.HOST_STATUS_pending, access := .ro }] },
  { word := 147, name := "HOST_HDM", base := 0x1000040, dims := [(4, 8)], dom := .hp, bar2 := false,
    fields := [{ fld := R.HOST_HDM_committed, access := .ro },
      { fld := R.HOST_HDM_size, access := .ro },
      { fld := R.HOST_HDM_base, access := .ro }] },
  { word := 148, name := "HOST_SNOOP", base := 0x1000060, dims := [], dom := .hp, bar2 := false,
    fields := [{ fld := R.HOST_SNOOP_held, access := .ro }] },
  { word := 149, name := "HOST_COUNTS", base := 0x1000080, dims := [], dom := .hp, bar2 := false,
    fields := [{ fld := R.HOST_COUNTS_link_downs, access := .ro },
      { fld := R.HOST_COUNTS_replays, access := .ro },
      { fld := R.HOST_COUNTS_poisoned, access := .ro },
      { fld := R.HOST_COUNTS_sat, access := .ro },
      { fld := R.HOST_COUNTS_clear, access := .wo }] }]

/-- The register words of the QUAY block. -/
def regWordsQuay : List RegWord := [
  { word := 150, name := "QUAY_PORT_W0", base := 0xF00000, dims := [(2, 64)], dom := .coreE, bar2 := false,
    fields := [{ fld := R.QUAY_PORT_mac, access := .rw },
      { fld := R.QUAY_PORT_enable, access := .rw }] },
  { word := 151, name := "QUAY_PORT_W1", base := 0xF00008, dims := [(2, 64)], dom := .coreE, bar2 := false,
    fields := [{ fld := R.QUAY_PORT_ipv4, access := .rw },
      { fld := R.QUAY_PORT_vlan, access := .rw },
      { fld := R.QUAY_PORT_vlan_en, access := .rw },
      { fld := R.QUAY_PORT_pcp, access := .rw }] },
  { word := 152, name := "QUAY_PORT_STATUS", base := 0xF00010, dims := [(2, 64)], dom := .coreE, bar2 := true,
    fields := [{ fld := R.QUAY_PORT_link_up, access := .ro },
      { fld := R.QUAY_PORT_paused, access := .ro }] },
  { word := 153, name := "QUAY_COUNTS", base := 0xF00100, dims := [(2, 8)], dom := .coreE, bar2 := false,
    fields := [{ fld := R.QUAY_COUNTS_fcs_errors, access := .ro },
      { fld := R.QUAY_COUNTS_icrc_errors, access := .ro },
      { fld := R.QUAY_COUNTS_retransmits, access := .ro },
      { fld := R.QUAY_COUNTS_link_downs, access := .ro },
      { fld := R.QUAY_COUNTS_sat, access := .ro },
      { fld := R.QUAY_COUNTS_clear, access := .wo }] },
  { word := 154, name := "QUAY_TARGET_W0", base := 0xF01000, dims := [(64, 32)], dom := .coreE, bar2 := false,
    fields := [{ fld := R.QUAY_TARGET_ipv4, access := .rw },
      { fld := R.QUAY_TARGET_dqpn, access := .rw },
      { fld := R.QUAY_TARGET_port, access := .rw },
      { fld := R.QUAY_TARGET_enable, access := .rw },
      { fld := R.QUAY_TARGET_state, access := .ro }] },
  { word := 155, name := "QUAY_TARGET_W1", base := 0xF01008, dims := [(64, 32)], dom := .coreE, bar2 := false,
    fields := [{ fld := R.QUAY_TARGET_next_hop, access := .rw }] },
  { word := 156, name := "QUAY_TARGET_W2", base := 0xF01010, dims := [(64, 32)], dom := .coreE, bar2 := false,
    fields := [{ fld := R.QUAY_TARGET_rkey, access := .rw },
      { fld := R.QUAY_TARGET_sq_psn, access := .rw }] },
  { word := 157, name := "QUAY_TARGET_W3", base := 0xF01018, dims := [(64, 32)], dom := .coreE, bar2 := false,
    fields := [{ fld := R.QUAY_TARGET_local_qpn, access := .ro },
      { fld := R.QUAY_TARGET_outstanding, access := .ro }] }]

/-- The register words of the CLK block. -/
def regWordsClk : List RegWord := [
  { word := 158, name := "CLK_SRC_STATUS", base := 0x100000, dims := [], dom := .lh, bar2 := false,
    fields := [{ fld := R.CLK_SRC_STATUS_failed, access := .ro },
      { fld := R.CLK_SRC_STATUS_dfll_failed, access := .ro },
      { fld := R.CLK_SRC_STATUS_px_on_fosc, access := .ro }] },
  { word := 159, name := "CLK_MON_COUNTS", base := 0x100008, dims := [], dom := .lh, bar2 := false,
    fields := [{ fld := R.CLK_MON_COUNTS_xtal_a, access := .ro },
      { fld := R.CLK_MON_COUNTS_xtal_b, access := .ro },
      { fld := R.CLK_MON_COUNTS_pll_main, access := .ro },
      { fld := R.CLK_MON_COUNTS_dfll, access := .ro },
      { fld := R.CLK_MON_COUNTS_sat, access := .ro },
      { fld := R.CLK_MON_COUNTS_clear, access := .wo }] },
  { word := 160, name := "CLK_CMD", base := 0x100010, dims := [], dom := .lh, bar2 := false,
    fields := [{ fld := R.CLK_CMD_action, access := .wo },
      { fld := R.CLK_CMD_target, access := .wo }] },
  { word := 161, name := "CLK_GATE_CMD", base := 0x100018, dims := [], dom := .lh, bar2 := false,
    fields := [{ fld := R.CLK_GATE_CMD_region, access := .wo },
      { fld := R.CLK_GATE_CMD_level, access := .wo },
      { fld := R.CLK_GATE_CMD_block, access := .wo },
      { fld := R.CLK_GATE_CMD_cell, access := .wo },
      { fld := R.CLK_GATE_CMD_unit, access := .wo },
      { fld := R.CLK_GATE_CMD_on, access := .wo }] },
  { word := 162, name := "CLK_GATE_STATUS", base := 0x100020, dims := [], dom := .lh, bar2 := false,
    fields := [{ fld := R.CLK_GATE_STATUS_result, access := .ro }] },
  { word := 163, name := "CLK_REGION", base := 0x100100, dims := [(16, 8)], dom := .lh, bar2 := false,
    fields := [{ fld := R.CLK_REGION_mode, access := .rw },
      { fld := R.CLK_REGION_f_min, access := .rw },
      { fld := R.CLK_REGION_f_max, access := .rw },
      { fld := R.CLK_REGION_f_set, access := .rw },
      { fld := R.CLK_REGION_margin_min, access := .rw }] },
  { word := 164, name := "CLK_REGION_STATUS", base := 0x100200, dims := [(16, 8)], dom := .lh, bar2 := true,
    fields := [{ fld := R.CLK_REGION_STATUS_f_now, access := .ro },
      { fld := R.CLK_REGION_STATUS_stretch, access := .ro },
      { fld := R.CLK_REGION_STATUS_clamped, access := .ro },
      { fld := R.CLK_REGION_STATUS_throttled, access := .ro },
      { fld := R.CLK_REGION_STATUS_capped, access := .ro },
      { fld := R.CLK_REGION_STATUS_on_fosc, access := .ro },
      { fld := R.CLK_REGION_STATUS_temp, access := .ro },
      { fld := R.CLK_REGION_STATUS_margin, access := .ro }] },
  { word := 165, name := "CLK_STRETCH", base := 0x100300, dims := [(16, 8)], dom := .lh, bar2 := false,
    fields := [{ fld := R.CLK_STRETCH_periods, access := .ro }] }]

/-- The register words of the PWR block. -/
def regWordsPwr : List RegWord := [
  { word := 166, name := "PWR_CTL", base := 0x100800, dims := [], dom := .lh, bar2 := false,
    fields := [{ fld := R.PWR_CTL_power_cap, access := .rw },
      { fld := R.PWR_CTL_thermal_limit, access := .rw },
      { fld := R.PWR_CTL_dip_stretch, access := .rw }] },
  { word := 167, name := "PWR_STRETCH", base := 0x100808, dims := [], dom := .lh, bar2 := false,
    fields := [{ fld := R.PWR_STRETCH_level1, access := .rw },
      { fld := R.PWR_STRETCH_level2, access := .rw },
      { fld := R.PWR_STRETCH_level3, access := .rw }] },
  { word := 168, name := "PWR_STATE", base := 0x100810, dims := [], dom := .lh, bar2 := true,
    fields := [{ fld := R.PWR_STATE_state, access := .ro },
      { fld := R.PWR_STATE_quiesce, access := .ro },
      { fld := R.PWR_STATE_refused, access := .wc },
      { fld := R.PWR_STATE_pwr_good, access := .ro }] },
  { word := 169, name := "PWR_CMD", base := 0x100818, dims := [], dom := .lh, bar2 := false,
    fields := [{ fld := R.PWR_CMD_action, access := .wo }] },
  { word := 170, name := "PWR_RAIL", base := 0x100820, dims := [(2, 8)], dom := .lh, bar2 := false,
    fields := [{ fld := R.PWR_RAIL_setpoint, access := .rw },
      { fld := R.PWR_RAIL_confirmed, access := .ro },
      { fld := R.PWR_RAIL_measured, access := .ro }] },
  { word := 171, name := "PWR_DIP", base := 0x100840, dims := [(2, 8)], dom := .lh, bar2 := false,
    fields := [{ fld := R.PWR_DIP_min_mv, access := .ro },
      { fld := R.PWR_DIP_duration, access := .ro },
      { fld := R.PWR_DIP_dips, access := .ro },
      { fld := R.PWR_DIP_resets, access := .ro },
      { fld := R.PWR_DIP_sat, access := .ro },
      { fld := R.PWR_DIP_clear, access := .wo }] },
  { word := 172, name := "PWR_POWER", base := 0x100860, dims := [], dom := .lh, bar2 := false,
    fields := [{ fld := R.PWR_POWER_power, access := .ro },
      { fld := R.PWR_POWER_peak, access := .ro },
      { fld := R.PWR_POWER_clear, access := .wo }] }]

/-- The register words of the SEC block. -/
def regWordsSec : List RegWord := [
  { word := 173, name := "SEC_BOOT", base := 0x1100000, dims := [], dom := .lh, bar2 := false,
    fields := [{ fld := R.SEC_BOOT_stage, access := .ro },
      { fld := R.SEC_BOOT_failed_stage, access := .ro },
      { fld := R.SEC_BOOT_recovered, access := .ro }] },
  { word := 174, name := "SEC_CTL", base := 0x1100008, dims := [], dom := .lh, bar2 := false,
    fields := [{ fld := R.SEC_CTL_recovery_wait, access := .rw },
      { fld := R.SEC_CTL_remote_bar2, access := .rw }] },
  { word := 175, name := "SEC_SVN", base := 0x1100010, dims := [(7, 8)], dom := .lh, bar2 := false,
    fields := [{ fld := R.SEC_SVN_fused, access := .ro },
      { fld := R.SEC_SVN_active, access := .ro }] },
  { word := 176, name := "SEC_CMD", base := 0x1100050, dims := [], dom := .lh, bar2 := false,
    fields := [{ fld := R.SEC_CMD_action, access := .wo },
      { fld := R.SEC_CMD_component, access := .wo }] },
  { word := 177, name := "SEC_OWNER", base := 0x11000C0, dims := [(4, 8)], dom := .lh, bar2 := false,
    fields := [{ fld := R.SEC_OWNER_digest, access := .ro }] },
  { word := 178, name := "SEC_UPDATE_ADDR", base := 0x1100060, dims := [], dom := .lh, bar2 := false,
    fields := [{ fld := R.SEC_UPDATE_ADDR_addr, access := .rw }] },
  { word := 179, name := "SEC_UPDATE_CMD", base := 0x1100068, dims := [], dom := .lh, bar2 := false,
    fields := [{ fld := R.SEC_UPDATE_CMD_stage, access := .wo }] },
  { word := 180, name := "SEC_UPDATE_STATUS", base := 0x1100070, dims := [], dom := .lh, bar2 := false,
    fields := [{ fld := R.SEC_UPDATE_STATUS_state, access := .ro },
      { fld := R.SEC_UPDATE_STATUS_component, access := .ro },
      { fld := R.SEC_UPDATE_STATUS_done_mask, access := .ro }] },
  { word := 181, name := "SEC_KEY_ADDR", base := 0x1100080, dims := [], dom := .coreE, bar2 := false,
    fields := [{ fld := R.SEC_KEY_ADDR_addr, access := .rw }] },
  { word := 182, name := "SEC_KEY_CMD", base := 0x1100088, dims := [], dom := .coreE, bar2 := false,
    fields := [{ fld := R.SEC_KEY_CMD_action, access := .wo },
      { fld := R.SEC_KEY_CMD_entry, access := .wo },
      { fld := R.SEC_KEY_CMD_tenant, access := .wo }] },
  { word := 183, name := "SEC_KEY_STATUS", base := 0x1100090, dims := [], dom := .coreE, bar2 := false,
    fields := [{ fld := R.SEC_KEY_STATUS_result, access := .ro }] },
  { word := 184, name := "SEC_KEY_VALID", base := 0x1100098, dims := [], dom := .coreE, bar2 := false,
    fields := [{ fld := R.SEC_KEY_VALID_valid, access := .ro }] },
  { word := 185, name := "SEC_DEBUG", base := 0x11000A0, dims := [], dom := .lh, bar2 := false,
    fields := [{ fld := R.SEC_DEBUG_unlocked, access := .ro }] },
  { word := 186, name := "SEC_COUNTS", base := 0x11000A8, dims := [], dom := .coreE, bar2 := false,
    fields := [{ fld := R.SEC_COUNTS_refused, access := .ro },
      { fld := R.SEC_COUNTS_sat, access := .ro },
      { fld := R.SEC_COUNTS_clear, access := .wo }] }]

/-- The register words of the METER block. -/
def regWordsMeter : List RegWord := [
  { word := 189, name := "METER_STATUS", base := 0x1200000, dims := [], dom := .coreE, bar2 := true,
    fields := [{ fld := R.METER_STATUS_seal_open, access := .ro },
      { fld := R.METER_STATUS_timebase_degraded, access := .ro },
      { fld := R.METER_STATUS_feed_absent, access := .ro },
      { fld := R.METER_STATUS_stale, access := .ro },
      { fld := R.METER_STATUS_overrange, access := .ro }] },
  { word := 190, name := "METER_COUNTS", base := 0x1200008, dims := [], dom := .coreE, bar2 := true,
    fields := [{ fld := R.METER_COUNTS_param_events, access := .ro },
      { fld := R.METER_COUNTS_param_events_sat, access := .ro },
      { fld := R.METER_COUNTS_feed_interruptions, access := .ro },
      { fld := R.METER_COUNTS_feed_interruptions_sat, access := .ro }] },
  { word := 191, name := "METER_RECORD_NUMBER", base := 0x1200010, dims := [], dom := .coreE, bar2 := true,
    fields := [{ fld := R.METER_RECORD_NUMBER_number, access := .ro }] },
  { word := 192, name := "METER_SECONDS", base := 0x1200018, dims := [], dom := .coreE, bar2 := true,
    fields := [{ fld := R.METER_SECONDS_seconds, access := .ro }] },
  { word := 193, name := "METER_ENERGY", base := 0x1200040, dims := [(6, 8)], dom := .coreE, bar2 := true,
    fields := [{ fld := R.METER_ENERGY_energy, access := .ro },
      { fld := R.METER_ENERGY_sat, access := .ro }] },
  { word := 194, name := "METER_PARAM", base := 0x1200080, dims := [(8, 8)], dom := .coreE, bar2 := false,
    fields := [{ fld := R.METER_PARAM_param, access := .ro }] },
  { word := 195, name := "METER_RECORD", base := 0x1210000, dims := [(4268, 8)], dom := .coreE, bar2 := true,
    fields := [{ fld := R.METER_RECORD_record, access := .ro }] },
  { word := 196, name := "METER_SNAPSHOT", base := 0x1220000, dims := [(8192, 8)], dom := .coreE, bar2 := false,
    fields := [{ fld := R.METER_SNAPSHOT_table, access := .ro }] },
  { word := 197, name := "METER_CERT", base := 0x1230000, dims := [(8192, 8)], dom := .coreE, bar2 := true,
    fields := [{ fld := R.METER_CERT_cert, access := .ro }] }]

/-- The register words of the EVT block. -/
def regWordsEvt : List RegWord := [
  { word := 198, name := "EVT_RING_BASE", base := 0x1300000, dims := [], dom := .coreE, bar2 := false,
    fields := [{ fld := R.EVT_RING_BASE_base, access := .rw }] },
  { word := 199, name := "EVT_RING_HEAD", base := 0x1300008, dims := [], dom := .coreE, bar2 := true,
    fields := [{ fld := R.EVT_RING_HEAD_head, access := .ro }] },
  { word := 200, name := "EVT_RING_TAIL", base := 0x1300010, dims := [], dom := .coreE, bar2 := false,
    fields := [{ fld := R.EVT_RING_TAIL_tail, access := .rw }] },
  { word := 201, name := "EVT_CTL", base := 0x1300018, dims := [], dom := .coreE, bar2 := false,
    fields := [{ fld := R.EVT_CTL_enable, access := .rw },
      { fld := R.EVT_CTL_vec_warn, access := .rw },
      { fld := R.EVT_CTL_vec_fault, access := .rw },
      { fld := R.EVT_CTL_vec_fatal, access := .rw },
      { fld := R.EVT_CTL_vec_nmi, access := .rw },
      { fld := R.EVT_CTL_coalesce, access := .rw }] },
  { word := 202, name := "EVT_STATUS", base := 0x1300020, dims := [], dom := .coreE, bar2 := false,
    fields := [{ fld := R.EVT_STATUS_nmi_seen, access := .wc },
      { fld := R.EVT_STATUS_fatal_seen, access := .wc },
      { fld := R.EVT_STATUS_fault_seen, access := .wc },
      { fld := R.EVT_STATUS_boot_alert, access := .wc },
      { fld := R.EVT_STATUS_full, access := .ro },
      { fld := R.EVT_STATUS_alert, access := .ro }] },
  { word := 203, name := "EVT_COUNTS", base := 0x1300028, dims := [], dom := .coreE, bar2 := false,
    fields := [{ fld := R.EVT_COUNTS_written, access := .ro },
      { fld := R.EVT_COUNTS_dropped, access := .ro },
      { fld := R.EVT_COUNTS_masked, access := .ro },
      { fld := R.EVT_COUNTS_sat, access := .ro },
      { fld := R.EVT_COUNTS_clear, access := .wo }] },
  { word := 204, name := "EVT_LAST_SEVERE_W0", base := 0x1300030, dims := [], dom := .coreE, bar2 := false,
    fields := [{ fld := R.EVT_LAST_SEVERE_time, access := .ro }] },
  { word := 205, name := "EVT_LAST_SEVERE_W1", base := 0x1300038, dims := [], dom := .coreE, bar2 := false,
    fields := [{ fld := R.EVT_LAST_SEVERE_code, access := .ro },
      { fld := R.EVT_LAST_SEVERE_severity, access := .ro },
      { fld := R.EVT_LAST_SEVERE_valid, access := .ro },
      { fld := R.EVT_LAST_SEVERE_region, access := .ro }] },
  { word := 206, name := "EVT_CMD", base := 0x1300040, dims := [], dom := .coreE, bar2 := false,
    fields := [{ fld := R.EVT_CMD_action, access := .wo }] },
  { word := 207, name := "EVT_MASK", base := 0x1300108, dims := [(18, 8)], dom := .coreE, bar2 := false,
    fields := [{ fld := R.EVT_MASK_mask, access := .rw }] },
  { word := 208, name := "EVT_ROUTER", base := 0x1300200, dims := [(16, 8)], dom := .byRegion, bar2 := false,
    fields := [{ fld := R.EVT_ROUTER_resends, access := .ro },
      { fld := R.EVT_ROUTER_failures, access := .ro },
      { fld := R.EVT_ROUTER_sat, access := .ro },
      { fld := R.EVT_ROUTER_clear, access := .wo }] }]

/-- The register words of the LIFE block. -/
def regWordsLife : List RegWord := [
  { word := 209, name := "LIFE_CTL", base := 0x1400000, dims := [], dom := .lh, bar2 := false,
    fields := [{ fld := R.LIFE_CTL_enable, access := .rw },
      { fld := R.LIFE_CTL_flush, access := .wo }] },
  { word := 210, name := "LIFE_STATUS", base := 0x1400008, dims := [], dom := .lh, bar2 := false,
    fields := [{ fld := R.LIFE_STATUS_seq, access := .ro },
      { fld := R.LIFE_STATUS_queued, access := .ro },
      { fld := R.LIFE_STATUS_busy, access := .ro },
      { fld := R.LIFE_STATUS_write_failed, access := .wc }] },
  { word := 211, name := "LIFE_TOTALS", base := 0x1400010, dims := [], dom := .lh, bar2 := false,
    fields := [{ fld := R.LIFE_TOTALS_power_on_hours, access := .ro },
      { fld := R.LIFE_TOTALS_thermal_cycles, access := .ro },
      { fld := R.LIFE_TOTALS_sat, access := .ro }] },
  { word := 212, name := "LIFE_TIDES", base := 0x1400018, dims := [], dom := .lh, bar2 := false,
    fields := [{ fld := R.LIFE_TIDES_tides, access := .ro },
      { fld := R.LIFE_TIDES_sat, access := .ro }] }]

/-- Every register word of the device (R530, Table 20.6). -/
def regTable : List RegWord :=
  regWordsDev ++
  regWordsTide ++
  regWordsSeq ++
  regWordsSp ++
  regWordsHb ++
  regWordsFerry ++
  regWordsSvc ++
  regWordsIst ++
  regWordsCw ++
  regWordsDrift ++
  regWordsArb ++
  regWordsTime ++
  regWordsHost ++
  regWordsQuay ++
  regWordsClk ++
  regWordsPwr ++
  regWordsSec ++
  regWordsMeter ++
  regWordsEvt ++
  regWordsLife

end Sys2Proof.Machine
end

