-- ==== Sys2Proof/Machine/State.lean ====
section
/-! DEFINITION. The state of the block as plain data. Every register field of the register map (Machine/RegMap.lean)
has its one home in `Dev.regs`, which lists the fields that differ from their reset values; the addressed memories
have theirs in `Dev.mem`; the other structures hold what the spec gives the block and no register shows. -/

namespace Sys2Proof.Machine

/-! ### Fuses, straps, events, life log (00, 01, 13, 19, 20) -/

/-- OTP contents of one device (R25, R26, R528): they never change after manufacture, and power-on reset of domain
LH loads the identity and presence registers from them. -/
structure Fuses where
  vendor : Nat
  device : Nat
  /-- 0 PNS-9000A, 1 PNS-9000B, 2 PNS-9000C (R528). -/
  grade : Fin 3
  stepping : Nat
  serial : Nat
  /-- Absent cells on grades B and C (R26): of each Headland region one cell, and how far past it, less one, the other
  stands; of each Estuary region one cell. Regions not listed miss cells 0 and 1, or cell 0. -/
  goneH : List (Fin 32 × Fin 31)
  goneE : List (Fin 16)
  /-- Fused security versions per component (R463). -/
  svn : List Nat
  /-- The owner digest in four words (SEC_OWNER). -/
  owner : List Nat
  deriving DecidableEq, Repr

/-- An event vector waiting for its coalescing interval to end, or the time one was last sent (R505). -/
structure VecSt where
  lastSent : Option (BitVec 64) := none
  held : Bool := false
  deriving DecidableEq, Repr

/-- A half-register snapshot (R508): requester, BAR0 offset of the register, the high half. -/
structure HalfSnap where
  requester : Nat
  offset : Nat
  high : Nat
  deriving DecidableEq, Repr

/-- The event unit's state that no register shows (19). -/
structure EvtSt where
  /-- Record sequence number (Table 19.3). -/
  seq : BitVec 32 := 0
  vecs : SMap VecSt := []
  snaps : List HalfSnap := []
  /-- Hall time of the last EV_HBM_CORRECTED per stack and EV_CW_REPLAY per link, keyed by 256 * block + unit. -/
  lastOnce : SMap (Option (BitVec 64)) := []
  /-- Records written to the ring in one PX cycle, in ring order (R501): code and bytes 0 to 23; and that cycle. -/
  recent : List (Nat × List (BitVec 8)) := []
  recentAt : Nat := 0
  deriving DecidableEq, Repr

/-- What reached the register fields in one PX cycle (R4, R5, R524, R525), by field key. -/
structure CycleSt where
  cycle : Nat := 0
  /-- Bits of a wc field that the device set; bit 64: an rw field that it changed. -/
  made : SMap Nat := []
  /-- Place in the order of R524 of the last requester, in that order, that wrote the field, plus one. -/
  wrote : SMap Nat := []
  /-- The field's value before the cycle's first write to it. -/
  before : SMap (Option Nat) := []
  deriving DecidableEq, Repr

/-- A life-log entry before it is written (R512, Table 19.7): type and body bytes. -/
structure LifeEntry where
  kind : Nat
  body : List (BitVec 8)
  deriving DecidableEq, Repr

/-- The life-log writer's state (R511 to R515). -/
structure LifeSt where
  /-- Entries not yet written, oldest first, at most 256 (R515). -/
  queue : List LifeEntry := []
  /-- Entries whose write is in progress, oldest first. -/
  writing : List LifeEntry := []
  /-- Sector and byte of the next entry in the ring of 768 sectors of 256 KiB, and whether the sector is erased. -/
  sector : Nat := 0
  pos : Nat := 0
  erased : Bool := false
  /-- The write in progress is the one retry of R511. -/
  retried : Bool := false
  /-- Entries in configuration memory: (sector, byte, bytes). -/
  log : List (Nat × Nat × List (BitVec 8)) := []
  /-- When the last whole hour and the last minute were counted (R513). -/
  hourAt : Option (BitVec 64) := none
  minuteAt : Option (BitVec 64) := none
  /-- Totals of Table 19.8 that no register shows: lane failures, retrains, dips, resets, quiesces, fatals. -/
  totals : SMap Nat := []
  /-- Temperature minutes, keyed by 16 * region + bin (R513). -/
  histogram : SMap Nat := []
  /-- R514: following the lowest temperature, or the highest; and that temperature in 1/16 degree. -/
  followLow : Bool := true
  extreme : Option Int := none
  deriving DecidableEq, Repr

/-- A posted write of the device to host memory (R408). -/
structure HostWrite where
  addr : Nat
  data : List (BitVec 8)
  deriving DecidableEq, Repr

/-- A CXL.cache request that completed: its reader or writer, byte offset, status LINK_LOST, and data read (R413). -/
structure CxlDone where
  use : CxlUse
  off : Nat
  lost : Bool
  data : List (BitVec 8)
  deriving DecidableEq, Repr

/-- The host port's state that no register shows (15, reset domain HP apart from `out`). -/
structure HostSt where
  /-- Domain HP is held: by PERST_N, hot reset or link disable, or because the device is DORMANT. -/
  held : Bool := true
  perst : Bool := false
  /-- MSI-X table of 128 words of 64 bits (R409); vectors are masked at reset. -/
  msix : SMap Nat := []
  pba : BitVec 64 := 0
  /-- Lines of HDM the host may cache, oldest first: (address as memory key) (R406). -/
  snoop : List Nat := []
  /-- Lines whose back-invalidate snoop is not answered. -/
  snoopOut : List Nat := []
  /-- Host reads that wait for a place in the snoop filter, oldest first: memory keys of lines. -/
  waitReads : List Nat := []
  /-- Drift packets whose access waits for a snoop response, and those whose wait is over, oldest first. -/
  waitPkts : List Packet := []
  ready : List Packet := []
  /-- CXL.cache requests that completed, newest last (R413). -/
  cxl : List CxlDone := []
  /-- Answers of the two DOE mailboxes, newest last: (mailbox, bytes). -/
  doe : List (Nat × List (BitVec 8)) := []
  /-- Data returned to the host, newest last. -/
  readData : List (List (BitVec 8)) := []
  /-- Back-invalidate snoops sent, newest last. -/
  snoopsSent : List Nat := []
  /-- Posted writes sent, newest last. -/
  out : List HostWrite := []
  /-- MSI-X vectors sent, newest last. -/
  vectors : List Nat := []
  deriving DecidableEq, Repr

/-! ### Control words, sequencers, cells (03, 04, 05) -/

/-- A decoded descriptor (R93, Table 3.14): the eight 64-bit words as the table holds them. -/
structure Desc where
  words : List (BitVec 64) := []
  deriving DecidableEq, Repr

/-- A write of the D slot to a table entry, in use for words that begin at tick `eff` or later (R83). -/
structure DescWrite where
  eff : Nat
  index : Nat
  desc : Desc
  deriving DecidableEq, Repr

/-- A generator's latched descriptor, cell-index select and position in words (R78). -/
structure GenState where
  desc : Desc
  select : Nat
  pos : Nat
  deriving DecidableEq, Repr

/-- An active loop (R85 to R87). Word addresses are image addresses in 16-bit units: image page * 32768 + offset, so
that the pages which share a ring page stay apart (R97, R99). -/
structure LoopFrame where
  bounded : Bool
  start : Nat
  /-- Address of the end word. -/
  last : Nat
  /-- Iterations the loop occupies: the FIXED count, or the BOUNDED ceiling. -/
  total : Nat
  /-- Count latched at entry; iterations from here on are shadow (R87). -/
  latched : Nat
  iter : Nat
  deriving DecidableEq, Repr

/-- Region states within a tide (Table 2.2). -/
inductive Phase where
  | dark | wake | run | hold | done
  deriving DecidableEq, Repr

/-- What a held region waits for (R39, R45, R98, R145). -/
inductive HoldKind where
  | recv | send | landing (id : Nat) | stream | slip
  deriving DecidableEq, Repr

/-- A hold in progress: its kind, the hall time it began (R55), its hold ticks since the region reached a landing's
deadline tick (R45), and the landings found incomplete there that have not completed since. -/
structure Hold where
  kind : HoldKind
  since : BitVec 64
  landTicks : Nat := 0
  lands : List Nat := []
  deriving DecidableEq, Repr

/-- Slip periods still to spend after a tick (R145), with what R146 records at the first of them. -/
structure Slip where
  left : Nat
  recorded : Bool
  pc : Nat
  tick : Nat
  /-- (cell, first bank with surplus accesses) for each cell that needed surplus accesses. -/
  cells : List (Nat × Nat)
  deriving DecidableEq, Repr

/-- A word of an activation queue (R148): data, format of its descriptor, first plan tick at which it is usable. -/
structure AqWord where
  data : BitVec 64
  fmt : Nat
  ready : Nat
  deriving DecidableEq, Repr

/-- An entry of a transfer-port buffer (R547). -/
structure TEntry where
  data : BitVec 512
  ready : Nat
  deriving DecidableEq, Repr

/-- A weight buffer: format and sparse setting of the WLOAD that filled it, and the tile's words in descriptor
order. No words: the all-zero bits of R550. -/
structure WTile where
  fmt : Nat := 0
  sparse : Bool := false
  words : List (BitVec 64) := []
  deriving DecidableEq, Repr

/-- A WLOAD in progress (R551). -/
structure WLoad where
  start : Nat
  fmt : Nat
  sparse : Bool
  /-- Byte offsets of the tile's words in descriptor order. -/
  offs : List Nat
  /-- The 64-byte rows (byte offsets) they lie in, in descriptor order. -/
  rows : List Nat
  /-- Rows read so far: (row offset, 512 bits). -/
  got : List (Nat × BitVec 512)
  deriving DecidableEq, Repr

/-- A lane of an accumulator set (R113). -/
structure Lane where
  e : BitVec 200 := 0
  ovf : Bool := false
  nan : Bool := false
  pinf : Bool := false
  ninf : Bool := false
  below : Nat := 0
  deriving DecidableEq, Repr

/-- An accumulator set (R113): lanes keyed by 16 * row + column. -/
structure AccSet where
  win : Int := 0
  macRow : Nat := 0
  drainRow : Nat := 0
  passes : Nat := 0
  lanes : SMap Lane := []
  deriving DecidableEq, Repr

/-- A MAC pass on its way to its accumulator set (R115): operands as they stood at issue. -/
structure Contrib where
  due : Nat
  set : Nat
  row : Nat
  passK : Nat
  actFmt : Nat
  /-- Scale codes of the activation vector's blocks (empty for a format without scales). -/
  scales : List Nat
  /-- The vector's elements, packed (R108). -/
  act : List (BitVec 64)
  tile : WTile
  deriving DecidableEq, Repr

/-- One MAC array (R74). -/
structure ArraySt where
  active : WTile := {}
  standby : WTile := {}
  load : Option WLoad := none
  lastStart : Option Nat := none
  sets : SMap AccSet := []
  flying : List Contrib := []
  deriving DecidableEq, Repr

/-- A vector result on its way to its register (R133). A load shifts its lanes in when it arrives (R128). -/
structure VFly where
  due : Nat
  issue : Nat
  port : Nat
  vd : Nat
  /-- 0: the value replaces the register; n > 0: the register shifts down by n bits and the value enters at the top. -/
  shift : Nat
  data : BitVec 2048
  deriving DecidableEq, Repr

/-- The beat that a crossbar port last gathered for the vector unit, with the format of its generator (R128). -/
structure VBeat where
  data : BitVec 512
  fmt : Nat
  tick : Nat
  deriving DecidableEq, Repr

/-- A scratchpad write on its way: due tick, place in the order of Table 5.2, (byte offset, word) pairs. -/
structure FlyWrite where
  due : Nat
  key : Nat
  words : List (Nat × BitVec 64)
  deriving DecidableEq, Repr

/-- A cell's state that no register shows. -/
structure CellSt where
  /-- p0 to p15 (R71); bit 0 reads 1 through `CellSt.pred`. -/
  preds : BitVec 16 := 0
  /-- Governing predicate latched at the word's first tick (R71). -/
  gov : Bool := true
  /-- Activation queues, keyed by 2 * array + port (R148). -/
  aq : SMap (List AqWord) := []
  /-- Transfer-port buffers, keyed by port (R547). -/
  tbuf : SMap (List TEntry) := []
  /-- Vector registers v0 to v31. -/
  vregs : SMap (BitVec 2048) := []
  vfly : List VFly := []
  beat : SMap (Option VBeat) := []
  /-- First plan tick at which the special-function unit is free (R77). -/
  sfuFree : Nat := 0
  arrays : SMap ArraySt := []
  /-- Transfer deliveries on their way (R80). -/
  deliveries : List FlyWrite := []
  /-- ST writes on their way (R133). -/
  stores : List FlyWrite := []
  /-- Position of each receive handle, keyed by 65536 * port + handle. -/
  cursors : SMap Nat := []
  /-- Plan writes of the last plan tick that have been made: (place in the order of Table 5.2, byte offset). -/
  lastW : List (Nat × Nat) := []
  /-- Wrong bits per scratchpad word not yet corrected (R154, R155), keyed by word index. -/
  spErr : SMap Nat := []
  /-- Model entry, generation and image segment last loaded into each weight segment (R196). -/
  loaded : SMap (Option (Nat × Nat × Nat)) := []
  /-- Segments under reinitialisation (R152). -/
  reinit : BitVec 64 := 0
  /-- Words written by unscheduled requesters in one PX cycle, and that cycle (R159). -/
  lateCycle : Nat := 0
  lateWords : List Nat := []
  /-- Next row that patrol scrub reads (R156). -/
  scrubRow : Nat := 0
  deriving DecidableEq, Repr

/-- An entry of a crossing channel on its way to its destination region. -/
structure CrossFly where
  data : BitVec 512
  /-- Clock period of the destination region in progress when the send began (R38). -/
  sentPeriod : Nat
  /-- Carried across the Isthmus; it becomes readable by IST_ENTRY_ARRIVAL. -/
  ist : Bool
  /-- Tide of the send (Table 9.1). -/
  tide : Nat
  deriving DecidableEq, Repr

/-- A crossing channel (R38): destination region (none: unbound), entries on their way, readable entries. -/
structure Chan where
  dest : Option (Fin 16) := none
  flying : List CrossFly := []
  fifo : List (BitVec 512) := []
  deriving DecidableEq, Repr

/-- A flit that an LSEND is forming (R392). -/
structure PartFlit where
  link : Nat
  index : Nat
  stream : Nat
  entries : List (BitVec 512)
  deriving DecidableEq, Repr

/-- A region's sequencer and tide state that no register shows. -/
structure RegionSt where
  phase : Phase := .dark
  /-- The tide has started and the region has not yet executed its tick 0 (R34). -/
  started : Bool := false
  /-- MARK beacon line driven (R35). -/
  mark : Bool := false
  /-- FAULT beacon line driven (R498). -/
  faultLine : Bool := false
  /-- Plan ticks executed since admission; tick-counted latencies count these (R146). -/
  planTicks : Nat := 0
  /-- Plan ticks executed in this tide. -/
  tideTick : Nat := 0
  /-- Clock periods since admission, hold and slip periods included (R38). -/
  periods : Nat := 0
  /-- Hall times at which the latest 16 of them ended, newest first; and at which the region's present tick began. -/
  ends : List (BitVec 64) := []
  began : BitVec 64 := 0
  /-- Hold ticks in this tide (R40). -/
  holdTicks : Nat := 0
  /-- The hold that a plan fault ended, which the tide unit may still judge in that PX cycle (R61). -/
  lastHold : Option Hold := none
  /-- Banks, as 32 * cell + bank, that the accesses of the latest plan tick used (R158). -/
  busy : List Nat := []
  /-- Remaining ticks of the current word after the first (R69); none: the next tick begins a word. -/
  repLeft : Option Nat := none
  /-- The word at the current address is executed without its L slot (R85). -/
  skipL : Bool := false
  /-- Plan tick in which the current word began (R83). -/
  wordStart : Nat := 0
  loops : List LoopFrame := []
  /-- JMP target pending until the word's last tick (R92), as an image address. -/
  jump : Option Nat := none
  /-- END issued in the current word, pending until its last tick (R92). -/
  endPending : Bool := false
  /-- Tide in which the region's plan ended (R92). -/
  endedTide : Option Nat := none
  /-- Hall time of the region's latest clock edge that ended a period of WAKE, RUN or HOLD. -/
  edge : BitVec 64 := 0
  hold : Option Hold := none
  slip : Option Slip := none
  gens : SMap (Option GenState) := []
  table : SMap Desc := []
  tableFly : List DescWrite := []
  /-- Image page held by each plan-memory ring page, plus one (0: not filled). -/
  ring : SMap Nat := []
  /-- Next image page that the stream engine fills (R97). -/
  nextFill : Nat := 0
  /-- Image pages below this one have been left by the sequencer (R99). -/
  leftPages : Nat := 0
  /-- Where the pages of the region section lie (hall address), and their number (Table 3.15). -/
  pagesAt : Nat := 0
  imagePages : Nat := 0
  streamRun : Bool := false
  /-- Flits being formed by LSEND on each transfer port, keyed by port. -/
  parts : SMap (Option PartFlit) := []
  /-- Flits formed per slot-mask index in this tide (position of the next one). -/
  sent : SMap Nat := []
  /-- Entries copied by LREAD per landing id in this tide (R548). -/
  lread : SMap Nat := []
  /-- Landing ids that were held past their deadline in this tide (R45). -/
  lateLand : List Nat := []
  /-- Events that R139, R146, R154 and R497 raise once per tide, already raised: (event code, cell). -/
  once : List (Nat × Nat) := []
  /-- Per crossbar and transfer port and vector port: uses in the last 16 ticks, newest first (R319). -/
  portUse : List Nat := []
  cells : SMap CellSt := []
  chans : SMap Chan := []
  deriving DecidableEq, Repr

/-- What the loader keeps of the admitted image beyond the registers (R376 to R380). -/
structure Landing where
  id : Nat
  kind : Nat
  /-- Virtual region. -/
  vregion : Nat
  /-- Physical region. -/
  region : Nat
  offset : Nat
  depth : Nat
  firstReady : Bool
  deadline : Nat
  replicas : Nat
  bytes : Nat
  base : Nat
  hbm : Nat
  slots : Nat
  stackSet : Nat
  deriving DecidableEq, Repr

/-- A slot-mask entry (Table 13.7). -/
structure SlotMask where
  link : Nat
  stream : Nat
  landing : Nat
  receive : Bool
  replica : Nat
  first : Nat
  count : Nat
  stride : Nat
  offset : Nat
  vregion : Nat
  deriving DecidableEq, Repr

/-- A landing space of one tide and replica: which tide's data it holds and how far it is (R44 to R47, R398). -/
structure LandSpace where
  landing : Nat
  region : Nat
  replica : Nat
  tide : Nat
  /-- Flits (link landing) or 64-byte units (streams) written. -/
  written : Nat
  complete : Bool
  /-- PX cycle in which it completed (R136). -/
  stamp : Nat
  /-- Arrivals so far per slot-mask index plus one; key 0 counts the units of a stream. -/
  counts : SMap Nat
  deriving DecidableEq, Repr

/-- The admitted plan. -/
structure Plan where
  jobId : Nat := 0
  digest : Nat := 0
  serving : Bool := false
  virtualDevice : Nat := 0
  deviceCount : Nat := 0
  fanout : Nat := 1
  map : List Nat := []
  ticks : Nat := 0
  tidePeriod : Nat := 0
  /-- Physical regions that the plan uses (R33). -/
  used : List (Fin 16) := []
  entries : List (Fin 16 × Nat) := []
  landings : List Landing := []
  masks : List SlotMask := []
  models : List Nat := []
  imageAddr : Nat := 0
  /-- PX cycle of the admission (Table 16.12). -/
  admittedAt : Option Nat := none
  deriving DecidableEq, Repr

/-- The tide unit's state that no register shows (02). -/
structure TideSt where
  /-- TIDE_CTL values in force: overrun_policy, lag_limit, landing_grace, wake_lead (R54). -/
  policy : Nat := 1
  lagLimit : Nat := 4
  grace : Nat := 400
  wakeLead : Nat := 64
  /-- start(k) of the tide in progress. -/
  startTime : BitVec 64 := 0
  /-- The tide in progress has ended (end(k) seen) and its successor has not started; its time. -/
  ended : Option (BitVec 64) := none
  /-- QUIESCE_N asserted and taken (R59, R60). -/
  quiesce : Bool := false
  /-- Landings missed: (region, landing id, tide) (R47). -/
  missed : List (Nat × Nat × Nat) := []
  /-- Landing spaces consumed: (region, landing id, tide) (R398). -/
  consumed : List (Nat × Nat × Nat) := []
  /-- Landing spaces in use. -/
  spaces : List LandSpace := []
  /-- PX cycle of the first plan fault, and whether a tide was in progress then (R61). -/
  faultAt : Nat := 0
  faultRun : Bool := false
  deriving DecidableEq, Repr

/-! ### Causeway links (10) -/

/-- A flit in a link's plan queue (R289): the reserved position it is due at, the hall time from which it may leave,
and its 240-byte payload. -/
structure PlanFlit where
  tide : Nat
  stream : Nat
  index : Nat
  pos : Nat
  ready : BitVec 64
  data : BitVec 1920
  deriving DecidableEq, Repr

/-- A drift flit: its VC and markers (Table 10.3), the packet it belongs to (R336), and whether its packet enters a
ring at the next hop (R328). -/
structure DriftFlit where
  vc : Nat
  first : Bool
  last : Bool
  pkt : Nat
  enters : Bool
  data : BitVec 1920
  deriving DecidableEq, Repr

/-- What a sequenced flit carries. -/
inductive FlitBody where
  | plan (f : PlanFlit)
  | drift (f : DriftFlit)
  deriving DecidableEq, Repr

/-- A sequenced flit sent and not acknowledged (R291, R298), with the number of times it was sent (R297). -/
structure Stored where
  seq : BitVec 16
  sends : Nat
  body : FlitBody
  deriving DecidableEq, Repr

/-- What a link waits for the host to command (R306, R309). -/
inductive LinkWait where
  | spare | train
  deriving DecidableEq, Repr

/-- A link's state that no register shows. -/
structure LinkSt where
  planQueue : List PlanFlit := []
  driftQueue : List DriftFlit := []
  /-- Packets queued or sent whose last flit is not acknowledged (R336). -/
  kept : List (Nat × Packet) := []
  nextPkt : Nat := 0
  /-- Packets that wait while the link takes no drift flits (R299), with whether they enter a ring. -/
  waiting : List (Packet × Bool) := []
  store : List Stored := []
  /-- Flits in the spill region, with the place of each in it (R298). -/
  spill : List (Nat × FlitBody) := []
  nextSeq : BitVec 16 := 0
  /-- Sequence number that the replay in progress sends next (R296). -/
  replayAt : Option (BitVec 16) := none
  /-- Hall time at which the acknowledgement timer last started (R296). -/
  timerAt : BitVec 64 := 0
  expected : BitVec 16 := 0
  /-- The last NAK sent, and when (R293). -/
  nakAt : Option (BitVec 16 × BitVec 64) := none
  /-- Expected values of the NAKs still to send, oldest first (R292). -/
  nakDue : List (BitVec 16) := []
  ackDue : Bool := false
  /-- Sequenced flits accepted since the last ACK flit (R294). -/
  accepted : Nat := 0
  /-- Hall time of the last flit that carried a newer ack, and the ack it carried (R294). -/
  ackAt : BitVec 64 := 0
  ackSent : BitVec 16 := 0
  syncDue : Bool := false
  /-- LANE flits to send: lane and action (R304). -/
  laneOut : List (Nat × Nat) := []
  /-- Hall time of the last report of a lane failure (R304). -/
  laneAt : BitVec 64 := 0
  /-- Lanes whose change waits for an alignment marker, per direction (R305). -/
  txPend : List Nat := []
  rxPend : List Nat := []
  /-- Spare lanes, and whether the host, or the end of its wait, orders them in at the next lane map change (R306). -/
  txSpare : Option Nat := none
  rxSpare : Option Nat := none
  spareTx : Bool := false
  spareRx : Bool := false
  /-- TIME payloads waiting for a drift slot (R314). -/
  timeOut : List (List (BitVec 8)) := []
  /-- Received and freed totals per VC (R302). -/
  received : SMap Nat := []
  freed : SMap Nat := []
  /-- VC whose freed total the next header carries. -/
  creditVc : Nat := 0
  /-- Input buffer per VC (R302), and transit buffer per VC on the far die (R327). -/
  inBuf : SMap (List DriftFlit) := []
  /-- Flits of the input buffer that came before the link last went down, which give no credit. -/
  oldFlits : SMap Nat := []
  transit : SMap (List DriftFlit) := []
  lockLostAt : Option (BitVec 64) := none
  /-- Start of the training attempt in progress (R310), and when the next attempt is due (R309). -/
  trainAt : Option (BitVec 64) := none
  /-- The attempt in progress has received the peer's INIT (R310). -/
  initSeen : Bool := false
  retryAt : Option (BitVec 64) := none
  dampUntil : Option (BitVec 64) := none
  /-- Times of the link's downs within the flap window (R312). -/
  downs : List (BitVec 64) := []
  wait : Option (LinkWait × BitVec 64) := none
  /-- Link training and lane sparing are in host-assisted mode on this link (Table 1.6). -/
  hosted : Bool := false
  /-- EV_CW_MISWIRED already raised for this miswiring (R311). -/
  miswired : Bool := false
  /-- Flits sent, newest last: 256 bytes each. -/
  wire : List (List (BitVec 8)) := []
  deriving DecidableEq, Repr


/-! ### The Isthmus (09) -/

/-- What one receiver of the beacon sideband keeps (R278, R279): the sequence number and beacon states last accepted,
with the sender's low 32 bits of hall time, the losses in succession since, and whether it accepts frames. -/
structure SidebandSt where
  last : BitVec 16 := 0
  losses : Nat := 0
  locked : Bool := false
  states : BitVec 256 := 0
  time : BitVec 32 := 0
  deriving DecidableEq, Repr

/-- What the entries of a run carry (Table 9.1). -/
inductive IstBody where
  /-- The oldest entry on its way of a crossing channel: source region and channel (R38). -/
  | crossing (region ch : Nat)
  /-- A plan flit formed for a link of the other die (R392). -/
  | planOut (link : Nat) (flit : PlanFlit)
  /-- A plan flit received for a landing whose region is on the other die (R392): slot-mask index, sender's tide j. -/
  | planIn (index j : Nat) (data : BitVec 1920)
  /-- A KV page of a slot: its die address on Headland and on Estuary (R224). -/
  | page (slot q src dst : Nat)
  /-- Bytes that a Ferry command writes at a die address of Headland. -/
  | ferry (run addr : Nat) (bytes : List (BitVec 8))
  /-- A copy that a Ferry command takes from the stacks of one die to those of the other: source die and address, and
  destination address. -/
  | mirror (run dieS src dst : Nat)
  /-- A drift packet from an input buffer (R327): link and VC. -/
  | drift (via vc : Nat) (flits : List DriftFlit)
  deriving DecidableEq, Repr

/-- Entries of one transfer that follow one another (Table 9.1): the tag's fields for the transfer, its entries in all,
the run's first entry and how many there are, and the PX cycle in which the transfer was queued. -/
structure IstRun where
  cls : Nat
  region : Nat
  channel : Nat
  tide : Nat
  addr : Nat
  /-- Sequence number of the transfer's first entry. -/
  seq : BitVec 32
  total : Nat
  first : Nat := 0
  count : Nat
  stamp : Nat
  body : IstBody
  deriving DecidableEq, Repr

/-- One direction of the Isthmus (R272, R273): plan entries and those of the other classes that wait for a slot, and
entries sent and not yet delivered, each oldest first. -/
structure IstDir where
  plan : List IstRun := []
  rest : List IstRun := []
  sent : List IstRun := []
  /-- Next sequence number of each class. -/
  seq : SMap (BitVec 32) := []
  /-- PX cycle up to which entry slots have been given. -/
  cycle : Nat := 0
  /-- The flit that failed last, and its replays in succession (R275). -/
  flit : BitVec 8 := 0
  replays : Nat := 0
  deriving DecidableEq, Repr

/-- The Isthmus's state that no register shows. -/
structure IstSt where
  /-- Toward Estuary and toward Headland. -/
  toE : IstDir := {}
  toH : IstDir := {}
  /-- Retrains in succession that brought no module up (R276). -/
  fails : Nat := 0
  /-- Modules that were up when the Isthmus last carried flits (R277). -/
  width : Nat := 0
  /-- Hall time of the last EV_IST_CRC. -/
  crcAt : Option (BitVec 64) := none
  /-- The receivers of the sideband on Estuary and on Headland. -/
  sideE : SidebandSt := {}
  sideH : SidebandSt := {}
  /-- The Headland copy of hall time less Estuary's, in units, and the time up to which it has been slewed (R280). -/
  copy : Int := 0
  copyAt : BitVec 64 := 0
  deriving DecidableEq, Repr


/-! ### Drift fabric and arbiters (11) -/

/-- An outstanding request (R332 to R337). -/
structure Req where
  requester : Nat
  packet : Packet
  /-- Drift retry was in host-assisted mode when the request was issued (Table 1.6). -/
  hosted : Bool
  /-- First-hop link; none while it waits or is answered locally. -/
  hop : Option Nat
  issued : BitVec 64
  /-- Already re-issued under R337. -/
  again : Bool
  deriving DecidableEq, Repr

/-- A request that R334 or R335 ended, as it was issued, and the PX cycle in which that happened (Table 11.7). -/
structure EndedReq where
  req : Req
  cycle : Nat
  deriving DecidableEq, Repr

/-- A completed request: requester, tag, status, data. -/
structure Completion where
  requester : Nat
  tag : Nat
  status : Nat
  data : List (BitVec 8)
  deriving DecidableEq, Repr

/-- A drift access to a cell's scratchpad on its way through the cell's bank service arbiter (R158): the packet, its
harbour source (R160), the cell, the first byte and the number of bytes, the rows it still asks for as byte offsets,
whether the read half of the first of them is done (R147), and the data read so far. -/
structure BankReq where
  packet : Packet
  source : Nat
  region : Nat
  cell : Nat
  off : Nat
  size : Nat
  rows : List Nat
  half : Bool := false
  data : List (BitVec 8) := []
  deriving DecidableEq, Repr

/-- The drift unit's state that no register shows (R347: hall table, tag state). -/
structure FabricSt where
  /-- Hall table: device address and torus coordinates (R324). -/
  hall : List (Nat × Nat × Nat × Nat) := []
  reqs : List Req := []
  /-- Tag generations, keyed by 4096 * requester + tag. -/
  gens : SMap Nat := []
  done : List Completion := []
  /-- Requests that a timeout or a lost link ended in the latest such PX cycle. -/
  ended : List EndedReq := []
  /-- Packets that have reached this device, their destination, and wait for their target unit (R324). -/
  selfQ : List Packet := []
  /-- Requests that wait for a free tag (R332), oldest first; their tags are not given yet. -/
  noTag : List (Nat × Packet) := []
  /-- Hall times of the last EV_DRIFT_MALFORMED, EV_DRIFT_NO_ROUTE and EV_DRIFT_TIMEOUT. -/
  lastOnce : SMap (Option (BitVec 64)) := []
  /-- Management requests waiting for the Keeper (R19), with the model and shard that one asks for (R199). -/
  mgmt : List (Packet × Option (Nat × Nat)) := []
  keeperRestart : Bool := false
  /-- Scratchpad accesses that wait for their bank service arbiter (R158), oldest first. -/
  bank : List BankReq := []
  /-- Index last granted, per arbiter instance (R340), plus one. -/
  lastGrant : SMap Nat := []
  /-- Current wait in cycles, keyed by 16 * instance + requester. -/
  waiting : SMap Nat := []
  deriving DecidableEq, Repr


/-! ### The Ferry and residency (06) -/

/-- A Ferry command (Table 6.4). `slot` is its ring entry; none for a command that the Ferry issued itself. -/
structure FerryCmd where
  op : Nat
  model : Nat
  notify : Bool
  shard : Nat
  target : Nat
  source : Nat
  address : Nat
  offset : Nat
  hops : List Nat
  slot : Option Nat
  deriving DecidableEq, Repr

/-- A command being run. -/
structure FerryRun where
  /-- Number of the run since reset, which the reads of its target carry. -/
  id : Nat
  cmd : FerryCmd
  began : BitVec 64
  /-- Shard header, once it has arrived; ciphertext received so far. -/
  header : List (BitVec 8)
  cipher : List (BitVec 8)
  /-- Bytes received and not yet taken: read responses (FETCH) or relay packets (RECV). -/
  rx : List (BitVec 8)
  /-- The first status of Table 6.5 found so far. -/
  fail : Option Nat
  relayFail : Bool
  deriving DecidableEq, Repr

/-- What the Ferry knows of a shard of a model. -/
structure ShardSt where
  /-- Dies (bit 0 Headland, bit 1 Estuary) on which the copy is verified, and on which it is bad. -/
  good : Nat := 0
  bad : Nat := 0
  /-- Wrap of the shard that was verified: DIRECT. -/
  direct : Bool := false
  digest : List (BitVec 8) := []
  length : Nat := 0
  offset : Nat := 0
  /-- Sources tried for the load or repair in progress: bit 0 mirror, bit 1 neighbour, bit 2 storage (R188, R198). -/
  tried : Nat := 0
  /-- Dies whose copy was re-hashed in this round (R201). -/
  hashed : Nat := 0
  deriving DecidableEq, Repr

/-- What the device waits for the host to command (R186, R188, R194, R200): kind and shard. -/
inductive FerryWait where
  | load | shard (s : Nat) | evict | repair (s : Nat)
  deriving DecidableEq, Repr

/-- The slow tier's staging of a model (R202, R203). -/
structure SlowSt where
  /-- Where each of the two buffers lies. -/
  base0 : Nat
  base1 : Nat
  size : Nat
  /-- Buffer that the running step uses. -/
  inUse : Nat
  /-- Buffers filled and verified, as a mask. -/
  ready : Nat
  deriving DecidableEq, Repr

/-- The Ferry's state that no register shows. -/
structure FerrySt where
  /-- Runs started. -/
  started : Nat := 0
  /-- Next ring entry to start, and ring entries completed ahead of the head. -/
  next : Nat := 0
  complete : List Nat := []
  /-- Running commands, by slot 0-7 (R181). -/
  runs : SMap (Option FerryRun) := []
  /-- Commands that the Ferry has issued to itself, oldest first. -/
  own : List FerryCmd := []
  /-- Own commands that QUIESCE_N aborted, to be posted again (R188). -/
  aborted : List FerryCmd := []
  /-- Shards, keyed by model * 2^32 + shard. -/
  shards : SMap ShardSt := []
  /-- What each model waits for the host to command, and since when. -/
  waits : List (Nat × FerryWait × BitVec 64) := []
  /-- Models whose allocation waits for an EVICT command (R194). -/
  needRoom : List Nat := []
  slow : SMap (Option SlowSt) := []
  /-- EV_REHASH_BEHIND raised in this interval; start of the interval (R201). -/
  rehashAt : BitVec 64 := 0
  /-- QUIESCE_N keeps the Ferry from starting commands (R187). -/
  stopped : Bool := false
  /-- QUIESCE_N is released and the Ferry resumes at the next step boundary (R452). -/
  resumes : Bool := false
  deriving DecidableEq, Repr



/-! ### Serving (07, 08) -/

/-- What the controller copies of an intake entry (R219, Table 7.5). -/
structure Request where
  id : Nat
  customer : Nat
  tenant : Nat
  plan : Nat
  drafts : Nat
  promptLen : Nat
  maxNew : Nat
  promptAddr : Nat
  deadline : Nat
  seed : List (BitVec 8)
  stopIds : List Nat
  stopSeqs : List (List Nat)
  ring : Nat
  deriving DecidableEq, Repr

/-- A KV page (Table 7.9): its HBM frame, its slower-tier frame, and whether the frame is a staged copy. -/
structure KvPage where
  frame : Option Nat
  slow : Option Nat
  staged : Bool
  deriving DecidableEq, Repr

/-- A page table (R226) as the controller wrote it: die addresses of the directory and of the leaf tables by directory
index, and the pages by logical page number. -/
structure KvTable where
  root : Option Nat := none
  leaves : SMap (Option Nat) := []
  pages : SMap (Option KvPage) := []
  deriving DecidableEq, Repr

/-- An occupied slot's state that SVC_SLOT does not show (R219). -/
structure SvcSlot where
  req : Request
  /-- Place in admission order. -/
  order : Nat
  /-- Prompt tokens not yet prefilled (R222). -/
  left : Nat
  input : Nat := 0
  /-- Draft tokens of the last result entry (R243). -/
  drafts : List Nat := []
  /-- The last 7 delivered tokens (R251), oldest first. -/
  recent : List Nat := []
  delivered : Nat := 0
  /-- Consecutive steps held for budget (R258). -/
  holds : Nat := 0
  /-- Admission reservation and step reservation held (R255, R256). -/
  admRes : Nat := 0
  stepRes : Nat := 0
  /-- A step entry of the output ring is reserved (R262). -/
  stepOut : Bool := false
  hasLane : Bool := true
  /-- Page table on Estuary, and the lane's on Headland. -/
  est : KvTable := {}
  head : KvTable := {}
  /-- Chunks done whose handoff has not started: start and tokens (R224). -/
  chunks : List (Nat × Nat) := []
  /-- Logical pages whose copies are under way (R224). -/
  copies : List Nat := []
  /-- Carry record's frame, carry layer, carry chunk (R231, R232). -/
  carry : Option (Nat × Nat × Nat) := none
  /-- Ending status (Table 8.4), from phase 2 to phase 3. -/
  ended : Option Nat := none
  deriving DecidableEq, Repr

/-- What the controller keeps of an intake ring and its output ring. -/
structure SvcRing where
  /-- First boundary at which the head entry waited for its model (R218). -/
  waitSince : Option (BitVec 64) := none
  /-- Pending for the host since (R220); its decision; its acceptance; decided here after the host wait. -/
  askedAt : Option (BitVec 64) := none
  decision : Option Bool := none
  accepted : Bool := false
  timedOut : Bool := false
  /-- Phase bit of the next output entry (Table 8.3). -/
  phase : Bool := true
  deriving DecidableEq, Repr

/-- A decode entry of the step record in force. -/
structure DecEntry where
  /-- 0xFFFF: inactive. -/
  slot : Nat
  held : Bool
  drafts : Nat
  deriving DecidableEq, Repr

/-- A prefill entry of the step record in force: slot (0xFFFF: inactive), start, valid tokens, last chunk. -/
structure PreEntry where
  slot : Nat
  start : Nat
  valid : Nat
  last : Bool
  deriving DecidableEq, Repr

/-- A feed record (R266), and since when it is queued. -/
structure FeedRec where
  customer : Nat
  tenant : Nat
  delivered : Nat
  expired : Nat
  since : BitVec 64
  deriving DecidableEq, Repr

/-- The controller's end of the meter feed (R482). -/
structure FeedTx where
  /-- seq of the next frame; the controller has had a frame accepted since it started. -/
  seq : BitVec 16 := 0
  started : Bool := false
  /-- The frame not yet accepted, with the customer and counts of a count frame; whether it is on the wire; when sent. -/
  frame : Option (List (BitVec 8)) := none
  carries : Option (Nat × Nat × Nat) := none
  onWire : Bool := false
  sentAt : BitVec 64 := 0
  /-- Hall time of the last idle frame. -/
  idleAt : BitVec 64 := 0
  deriving DecidableEq, Repr

/-- The serving controller's state that no register shows. -/
structure SvcSt where
  slots : SMap (Option SvcSlot) := []
  rings : SMap SvcRing := []
  /-- Ring after the one that admitted last (R218). -/
  nextRing : Nat := 0
  orders : Nat := 0
  decode : List DecEntry := []
  prefill : List PreEntry := []
  /-- Bytes of the step record and of its draft block, as published (R211, R244). -/
  record : List (BitVec 8) := []
  block : List (BitVec 8) := []
  published : Bool := false
  /-- First tide of the step in force. -/
  stepStart : Nat := 0
  /-- The ending step's last tide has ended: T_b (R209). -/
  due : Option (BitVec 64) := none
  /-- Consecutive steps of the running plan (R234); reruns of the step in force (R237). -/
  steps : Nat := 0
  reruns : Nat := 0
  /-- The step in force is the first since launch. -/
  first : Bool := false
  /-- Image that the controller is admitting, and L of its launch (R235). -/
  loading : Option Nat := none
  launch : Nat := 0
  /-- The record is to be published again at the rerun's start (R211). -/
  republish : Bool := false
  /-- Pending budget adjustments, keyed by customer (R261). -/
  adjust : SMap Int := []
  /-- Last elapse of the refill period that was counted (at first, when the mode took effect), and the elapses counted
  whose refill has not been applied (R259). -/
  refillAt : BitVec 64 := 0
  refills : Nat := 0
  /-- Customers for which EV_BUDGET_LOW stands raised (R260). -/
  lowSeen : List Nat := []
  /-- Feed queue, oldest first (R266). -/
  feed : List FeedRec := []
  feedTx : FeedTx := {}
  /-- Output entries not yet written, in order: ring, entry with phase bit clear (R264, R412). -/
  output : List (Nat × List (BitVec 8)) := []
  /-- Spills under way: slot, logical page, slower-tier frame (R230). -/
  spills : List (Nat × Nat × Nat) := []
  /-- Stagings under way: slot, logical page, frame; and pages staged, oldest first. -/
  stages : List (Nat × Nat × Nat) := []
  staged : List (Nat × Nat × Nat) := []
  /-- The log overwrote entries at this boundary; every entry of its ring is unconsumed (R238). -/
  overwrote : Bool := false
  logFull : Bool := false
  /-- SVC_CTL as it stood when the boundary that is due began: enable, admit_max, model_wait, retry, switch_lead
  (Table 7.11). -/
  ctl : List Nat := []
  /-- Pages spilled to host memory by WrCur (R408): host address and bytes, newest last. -/
  spilled : List (Nat × List (BitVec 8)) := []
  /-- A debug unlock ends every request with FAULT at the next boundary (R476). -/
  endAll : Bool := false
  /-- Quiesce sequence under way: nothing is admitted (R218, R451). -/
  quiesce : Bool := false
  /-- Hall time of the last step boundary. -/
  boundaryAt : Option (BitVec 64) := none
  deriving DecidableEq, Repr


/-! ### Hall time (12) -/

/-- What the time unit keeps of one link (R353, R354). -/
structure TimeLinkSt where
  /-- Sequence number of the next TIME flit, and those sent with their times, newest last. -/
  seq : BitVec 16 := 0
  sent : List (BitVec 16 × BitVec 64) := []
  /-- Last TIME flit accepted: tx_time, first-bit arrival, seq; and when. -/
  echo : Option (BitVec 64 × BitVec 64 × BitVec 16) := none
  heard : Option (BitVec 64) := none
  /-- The peer follows this device, or is 63 hops from its root; EV_TIME_LOOP stands raised. -/
  loop : Bool := false
  deriving DecidableEq, Repr

/-- What the time unit keeps of one PTP port (R360 to R362). -/
structure PtpSt where
  /-- Grandmaster in use: gm_identity, or the first whose Announce was heard. -/
  gm : Option (BitVec 64) := none
  announceAt : Option (BitVec 64) := none
  /-- Announce interval in hall-time units. -/
  interval : Nat := 0
  /-- Two-step Sync waiting for its Follow_Up: sequence id, arrival, correction. -/
  waiting : Option (BitVec 16 × BitVec 64 × Int) := none
  /-- Last Sync: its origin and arrival in hall time, corrected. -/
  sync : Option (Int × Int) := none
  /-- Delay_Req sent: sequence id and time. -/
  req : Option (BitVec 16 × BitVec 64) := none
  seq : BitVec 16 := 0
  delay : Option Int := none
  /-- Delay_Req messages sent, newest last: (sequence id, originTimestamp). -/
  sent : List (BitVec 16 × BitVec 64) := []
  deriving DecidableEq, Repr

/-- The time unit's state that no register shows. -/
structure TimeSt where
  /-- TIME_PARENT and TIME_CTL in force: written values take effect at a servo update (Table 12.4). -/
  primary : Nat := 0
  fallback : Nat := 0
  slewMax : Nat := 100
  stepThreshold : Nat := 1000
  exchange : Nat := 2
  lossCount : Nat := 16
  hostWait : Nat := 100
  /-- No source is usable: the state is HOLDOVER and no source is active. -/
  lost : Bool := false
  /-- θ and delay measured since the last servo update. -/
  theta : Option Int := none
  delay : Int := 0
  /-- Servo updates in succession with |θ| at most 16 units. -/
  good : Nat := 0
  /-- Phase correction still to slew. -/
  slew : Int := 0
  offsetRaised : Bool := false
  /-- TIME_ADJ written and not yet applied: rate, phase, step; and since when the host has been waited for. -/
  adj : Option (Int × Int × Bool) := none
  adjSince : BitVec 64 := 0
  /-- The next update runs without the host (R357). -/
  byItself : Bool := false
  /-- Hall time of the last servo update, the servo period in force, and the time of the last exchange (R353). -/
  updateAt : Option (BitVec 64) := none
  servoPeriod : Nat := 3
  sentAt : Option (BitVec 64) := none
  /-- Hall times before and after a step in the PX cycle of the latest one (Table 12.4). -/
  stepped : Option (BitVec 64 × BitVec 64) := none
  /-- Hall time of the calendar's last setting from hall time (R366). -/
  calendarAt : Option (BitVec 64) := none
  links : SMap TimeLinkSt := []
  ptp : SMap PtpSt := []
  ppsAt : Option (BitVec 64) := none
  /-- TIME_CAPTURE.value has not been read since it was stored. -/
  unread : Bool := false
  /-- Next start of each armed pulse. -/
  pulseAt : SMap (BitVec 64) := []
  /-- Pulses given, newest last: output, hall time at which it rose, and width in ns. -/
  pulses : List (Nat × BitVec 64 × Nat) := []
  deriving DecidableEq, Repr



/-! ### Launch (13) -/

/-- A device to which the RECORD was sent (R384, R385): virtual index, when, what its ACK said (acked, missing, first
missing), and whether it is lost. -/
structure LaunchChild where
  index : Nat
  sentAt : BitVec 64
  ack : Option (Nat × Nat × Nat)
  lost : Bool
  deriving DecidableEq, Repr

/-- The launch unit's state (R382 to R387), which no register shows. -/
structure LaunchSt where
  /-- L of the record that this device relays. -/
  tide : Option Nat := none
  /-- Virtual index of the relay root, and the device's own status (Table 13.10). -/
  origin : Nat := 0
  status : Nat := 0
  /-- Devices from which the RECORD was received. -/
  senders : List Nat := []
  children : List LaunchChild := []
  /-- The host was asked to relay, and when (R387). -/
  asked : Option (BitVec 64) := none
  /-- The ACKs were sent, or the origin's totals recorded (R386). -/
  reported : Bool := false
  /-- Device addresses to which a RECORD's send ended with a status other than OK, not yet acted on (R385). -/
  failed : List Nat := []
  /-- ACKs that arrived in one PX cycle before the RECORD that they may belong to, and that cycle (Table 13.12). -/
  early : List Packet := []
  earlyAt : Nat := 0
  /-- Records that wait for the loading to end (R382), and a START that does. -/
  held : List Packet := []
  heldStart : Option Nat := none
  deriving DecidableEq, Repr



/-! ### The Quay ports and the sideband (15) -/

/-- An outstanding RDMA READ of a storage target (R416): the Ferry run it serves, remote address, length, first PSN,
and response packets received. -/
structure QuayRead where
  run : Nat
  addr : Nat
  len : Nat
  psn : BitVec 24
  got : Nat
  deriving DecidableEq, Repr

/-- A queue pair (R416, R417). -/
structure QpSt where
  /-- PSN of the next new request. -/
  next : BitVec 24 := 0
  /-- Outstanding READs, oldest first. -/
  reads : List QuayRead := []
  /-- READs not yet issued: run, remote address, length. -/
  waiting : List (Nat × Nat × Nat) := []
  retries : Nat := 0
  /-- The requests from the first missing response on were sent again and that response has not yet come. -/
  again : Bool := false
  /-- Hall time at which the ACK timer last started, and of the last CNP. -/
  timerAt : BitVec 64 := 0
  cnpAt : Option (BitVec 64) := none
  deriving DecidableEq, Repr

/-- A frame that a Quay port sent. -/
inductive QuayFrame where
  /-- An ARP reply to a MAC and IPv4 address (R415). -/
  | arp (port : Nat) (mac : BitVec 48) (ip : BitVec 32)
  /-- A READ request of a target: PSN, remote address, length. -/
  | read (target : Nat) (psn : BitVec 24) (addr len : Nat)
  /-- A congestion notification to a target's responder. -/
  | cnp (target : Nat)
  /-- Priority flow control of a port: pause its priority, or resume it (R414). -/
  | pfc (port priority : Nat) (pause : Bool)
  deriving DecidableEq, Repr

/-- The Quay ports' state that no register shows. -/
structure QuaySt where
  qps : SMap QpSt := []
  /-- Frames sent, newest last. -/
  sent : List QuayFrame := []
  /-- End of the pause received, per port. -/
  pauseEnd : SMap (BitVec 64) := []
  /-- Ports that have paused their sender (R414). -/
  pausing : List Nat := []
  /-- PX cycle in which each port last went down (Table 15.5). -/
  downAt : SMap (Option Nat) := []
  deriving DecidableEq, Repr

/-- The JTAG instruction in force (R422); the vendor-private ones act as BYPASS here. -/
inductive JtagOp where
  | bypass | idcode | samplePreload | extest | clamp | highz
  deriving DecidableEq, Repr

/-- The board sideband's state (R420, R422). -/
structure SideSt where
  /-- Dynamic I3C address. -/
  dyn : Option (BitVec 7) := none
  /-- In-band interrupts raised (R420). -/
  ibi : Nat := 0
  /-- Bytes that I3C reads returned, newest last. -/
  i3c : List (List (BitVec 8)) := []
  /-- Instruction of the JTAG port; reset selects IDCODE, as the standard does (notes/assumptions/32.md). -/
  jtag : JtagOp := .idcode
  /-- Boundary register and its update stage; what the signal lands carry while a JTAG instruction drives them. -/
  boundary : List Bool := []
  latch : List Bool := []
  /-- Bits shifted out of TDO, newest last. -/
  tdo : List (List Bool) := []
  deriving DecidableEq, Repr



/-! ### Clocks, supplies and power (16) -/

/-- What the Lighthouse keeps of one region's clock (R435, R438 to R440). -/
structure RegClkSt where
  /-- Highest frequency at which the timing-margin gauge last read at least margin_min. -/
  best : Nat := 0
  /-- When the DFLL last changed frequency (R436). -/
  steppedAt : Option (BitVec 64) := none
  /-- Stretch level of the droop that the gauge last read (R437). -/
  droop : Nat := 0
  /-- Ceilings that R438 and R440 set by temperature, and when each last moved. -/
  therm : Option Nat := none
  thermAt : BitVec 64 := 0
  diff : Option Nat := none
  diffAt : BitVec 64 := 0
  /-- How far R439 has lowered f_max. -/
  capDrop : Nat := 0
  /-- Ceiling of the neighbour clamp (R440). -/
  clamp : Option Nat := none
  /-- Tide in which EV_DFLL_FLOOR was last raised. -/
  floorTide : Option Nat := none
  deriving DecidableEq, Repr

/-- A neighbour pair and quantity (R440): its event stands raised, and since when it is within the limit. -/
structure NeighbourSt where
  raised : Bool := false
  okSince : Option (BitVec 64) := none
  deriving DecidableEq, Repr

/-- A supply dip in progress (R443): when the rail first fell, its minimum so far in mV, and whether it has reached the
reset level. -/
structure DipSt where
  since : BitVec 64
  low : Nat
  reset : Bool := false
  deriving DecidableEq, Repr

/-- The clocks' state that no register shows. Sources: 0 XTAL_A, 1 XTAL_B, 2 PLL_MAIN, 3 + r the DFLL of region r. -/
structure ClkSt where
  /-- Windows outside the band in succession, per source (R426). -/
  outside : SMap Nat := []
  /-- Rechecks and relocks in progress, per source (R431): good windows so far. -/
  recheck : SMap (Option Nat) := []
  /-- When the neighbour pairs were last checked (R440). -/
  checkedAt : Option (BitVec 64) := none
  /-- Gating nodes that a command has turned on (R433). -/
  gates : SMap Bool := []
  regs : SMap RegClkSt := []
  /-- Neighbour pairs, keyed by 3 * pair + quantity. -/
  pairs : SMap NeighbourSt := []
  deriving DecidableEq, Repr

/-- The power controller's state that no register shows. -/
structure PwrSt where
  dips : SMap (Option DipSt) := []
  /-- Setpoint requested of each rail and not yet confirmed (R441). -/
  avs : SMap (Option Nat) := []
  /-- Limiting by R439 is in progress, and when the average was last compared with the cap. -/
  capping : Bool := false
  capAt : Option (BitVec 64) := none
  /-- The next assertion of PWR_GOOD wakes the device (R448), after 1 µs of deassertion observed while DORMANT: since
  when it is observed, where that µs is not yet known to have passed. -/
  wakes : Bool := true
  lowSince : Option (BitVec 64) := none
  /-- Boot stages are to run: PWR_GOOD woke the device. -/
  boot : Bool := false
  /-- The PARK in force was entered by command (R448). -/
  byCommand : Bool := false
  /-- QUIESCE_N as the Lighthouse takes it. -/
  quiesceN : Bool := false
  /-- Quiesce sequence (Table 16.11): 0 none, 1 steps 1 to 4, 2 the flush of step 5, 3 in PARK. -/
  quiesceStep : Nat := 0
  /-- Dies whose regions are gated off by a thermal trip (R438). -/
  tripped : List Nat := []
  /-- Stacks in self-refresh, and the last request to each stack (R449). -/
  refresh : List Nat := []
  lastReq : SMap (BitVec 64) := []
  /-- When PARK was entered. -/
  parkedAt : BitVec 64 := 0
  deriving DecidableEq, Repr



/-! ### Boot, update, security (17) -/

/-- An update package in progress (R464 to R467). -/
structure UpdSt where
  /-- The package as it was copied. -/
  bytes : List (BitVec 8)
  component : Nat := 0
  /-- Instances not yet activated, ascending. -/
  left : List Nat := []
  /-- The activation in progress: since when (Keeper start, stack retrain, configuration write). -/
  since : Option (BitVec 64) := none
  /-- Tide in which the last region was calibrated. -/
  lastTide : Option Nat := none
  deriving DecidableEq, Repr

/-- The state of boot, update and security that no register shows. -/
structure SecSt where
  /-- Model keys in the 64-entry store, with their tenants; an unlisted entry is empty (R473). -/
  keys : SMap (Option (List (BitVec 8))) := []
  tenants : SMap Nat := []
  /-- Configuration records as the Keeper holds them: type and payload (R456). -/
  records : List (Nat × List (BitVec 8)) := []
  ownerKey : List (BitVec 8) := []
  /-- Digests of the boot image and of the record set in use (R469, R472). -/
  imageDigest : List (BitVec 8) := []
  recordsDigest : List (BitVec 8) := []
  /-- Payload digest of the active version, per component. -/
  active : SMap (List (BitVec 8)) := []
  /-- Recovery image received so far (R461); since when the device waits for one. -/
  recv : List (BitVec 8) := []
  recvOpen : Bool := false
  recoverAt : BitVec 64 := 0
  /-- Dies whose core domain has left reset and is not booted. -/
  toBoot : List Nat := []
  upd : Option UpdSt := none
  /-- Nonce of the last QUOTE (Table 17.7). -/
  nonce : List (BitVec 8) := []
  /-- Dies reset since the last admission, whose fields the ADMIT lock does not hold (R523). -/
  admitFree : List Nat := []
  /-- Regions, and cells as 16 + index, that are gated dark as out of service (R468). -/
  dark : List Nat := []
  deriving DecidableEq, Repr


/-! ### The sealed meter (18) -/

/-- A parameter set (Table 18.3). -/
structure MeterParams where
  period : Nat := 60
  enable : BitVec 6 := 0x3F
  pulse : Nat := 10000
  shunt : List Nat := [50, 75, 1500, 600, 860, 12000]
  rated : List Nat := [1200, 800, 40, 100, 70, 5]
  rail : List Nat := [1, 2, 3, 4, 5, 6]
  deriving DecidableEq, Repr

/-- Delivered and expired totals of a customer or tenant: 63-bit class S counts with the sat bit in bit 63 (R483). -/
structure TokenTotal where
  delivered : Nat := 0
  expired : Nat := 0
  deriving DecidableEq, Repr

/-- What a record takes from the totals when its interval ends (R489). -/
structure MeterSnap where
  flags : Nat
  start : Nat
  stop : Nat
  calendar : Nat
  paramEvents : Nat
  interruptions : Nat
  params : MeterParams
  energy : List Nat
  customers : SMap TokenTotal
  tenants : SMap TokenTotal
  deriving DecidableEq, Repr

/-- A signed record in the store with its customer table (R491). -/
structure MeterRecord where
  number : Nat
  bytes : List (BitVec 8)
  customers : SMap TokenTotal
  deriving DecidableEq, Repr

/-- The sealed meter. Nothing outside its three connections changes it (R479). -/
structure MeterSt where
  /-- VDD_METER is within its operating range. -/
  powered : Bool := true
  /-- Meter serial number in OTP (R481). -/
  serial : Nat := 0
  params : MeterParams := {}
  /-- An accepted set that takes effect at the next interval (R493); OTP banks used. -/
  next : Option MeterParams := none
  banks : Nat := 1
  paramEvents : Nat := 0
  paramSat : Bool := false
  sealOpen : Bool := false
  degraded : Bool := false
  /-- Meter seconds at an occurrence, and when that was (R488). -/
  seconds : Nat := 0
  secondsAt : BitVec 64 := 0
  /-- The last accepted frame's seq; none before the first. -/
  lastSeq : Option Nat := none
  acceptedAt : BitVec 64 := 0
  /-- A feed interruption is in progress (R484). -/
  absent : Bool := false
  interruptions : Nat := 0
  interruptSat : Bool := false
  calendar : Nat := 0
  customers : SMap TokenTotal := []
  tenants : SMap TokenTotal := []
  /-- Sample in which a count record was last accepted, and the totals as that sample began (Table 18.6). -/
  sample : Option Nat := none
  oldCustomers : SMap TokenTotal := []
  oldTenants : SMap TokenTotal := []
  /-- When the meter last refreshed the mirror by its own second (Table 18.8). -/
  refreshAt : Option (BitVec 64) := none
  /-- Energy totals in mJ with the sat bit in bit 63; picojoules not yet counted, per channel. -/
  energy : SMap Nat := []
  residue : SMap Nat := []
  /-- Channels over 120% of rated current in this interval. -/
  overrange : BitVec 6 := 0
  /-- Picojoules toward the next pulse, and pulses given (R487). -/
  pulseResidue : Nat := 0
  pulses : Nat := 0
  /-- The interval in progress: its start and the flags of Table 18.2 so far. -/
  start : Nat := 0
  flags : Nat := 0
  /-- Intervals ended and not yet signed, oldest first; the record store, oldest first. -/
  signing : List MeterSnap := []
  store : List MeterRecord := []
  /-- Bytes sent on METER_TX, one list per answer, newest last. -/
  port : List (List (BitVec 8)) := []
  deriving DecidableEq, Repr

/-- The device without its sealed meter. -/
structure Dev where
  /-- Register fields that differ from their reset values, keyed by `Fld.key`. -/
  regs : SMap Nat := []
  /-- The addressed memories: HBM, scratchpads, plan memory, landing buffers (R15), keyed by space * 2^40 + offset;
  an unlisted byte reads 0 (notes/assumptions/2.md). -/
  mem : List Host.Cell := []
  /-- Free values drawn so far: the model's own counter (notes/assumptions/5.md). -/
  free : Nat := 0
  fuses : Fuses
  /-- A FATAL event has stopped plan and drift activity (R9, R500). -/
  fatal : Bool := false
  /-- Calendar time that the Lighthouse keeps: UTC since 1970 in units of 62.5 ps (R366). TIME_CALENDAR shows it. -/
  cal : Nat := 0
  /-- What reached the register fields in the latest PX cycle. -/
  px : CycleSt := {}
  evt : EvtSt := {}
  life : LifeSt := {}
  host : HostSt := {}
  regions : SMap RegionSt := []
  tide : TideSt := {}
  plan : Plan := {}
  links : SMap LinkSt := []
  ist : IstSt := {}
  fabric : FabricSt := {}
  ferry : FerrySt := {}
  time : TimeSt := {}
  sec : SecSt := {}
  launch : LaunchSt := {}
  svc : SvcSt := {}
  quay : QuaySt := {}
  clk : ClkSt := {}
  pwr : PwrSt := {}
  side : SideSt := {}
  /-- Hall time of the mirror's last refresh, or of the release of Estuary's core domain (18). -/
  mirrorAt : BitVec 64 := 0
  /-- Wrong symbols per 32-byte half of HBM not yet corrected, keyed by die * 2^34 + address / 32 (R170). -/
  hbmErr : SMap Nat := []
  deriving DecidableEq, Repr

/-- Why the block stops: no command's spec'd effect ends here.
`jtagPrivate`: raised by JTAG_VENDOR_PRIVATE while debug is unlocked, since the spec gives the vendor-private
instructions no effect (R476); safe, the model stops where the device does what only its vendor knows. -/
inductive Fault where
  | jtagPrivate
  deriving DecidableEq, Repr

/-- What the model does not do.
`notModelled`: raised by the dispatch of a command that has no meaning yet; safe. -/
inductive Refusal where
  | notModelled (mnemonic : String)
  deriving DecidableEq, Repr

/-- The state of the block: commands waiting, first in, first out; the device; the sealed meter. -/
structure State where
  pending : List Instr
  dev : Dev
  meter : MeterSt
  deriving DecidableEq, Repr

/-- DESIGN CHOICE (notes/assumptions/3.md): the fuses of one grade A device; vendor, device, serial and the owner
digest are 0, which the spec does not state; the stepping is the first, 0x01 (R528). -/
def resetFuses : Fuses :=
  { vendor := 0, device := 0, grade := 0, stepping := 1, serial := 0, goneH := [], goneE := [],
    svn := [0, 0, 0, 0, 0, 0, 0], owner := [0, 0, 0, 0] }

/-- The device right after power-on reset of domain LH, with both core domains held in reset. -/
def Dev.reset : Dev := { fuses := resetFuses }

/-- The block right after reset: no command waits. -/
def State.reset : State := { pending := [], dev := Dev.reset, meter := {} }

end Sys2Proof.Machine
end

