-- ==== Sys2Proof/Machine/Ops.lean ====
section
/-! DEFINITION. The named operations that every family of commands shares: register fields, counters, hall time,
memory addresses, free values, cores and regions, and raising an event with all it brings (19). -/

namespace Sys2Proof.Machine

/-! ### Register fields -/

/-- Key of field `f` of instance `i` in `Dev.regs`. -/
def Fld.key (f : Fld) (i : Nat) : Nat := (f.word * 65536 + i) * 64 + f.lo

/-- The value of a register field. -/
def Dev.get (d : Dev) (f : Fld) (i : Nat := 0) : Nat := tget f.rst d.regs (f.key i)

/-- The device with a register field set; the value is cut to the field's width. -/
def Dev.set (d : Dev) (f : Fld) (i : Nat) (v : Nat) : Dev :=
  { d with regs := tput f.rst d.regs (f.key i) (v % 2 ^ f.width) }

/-- The keys of the register table rise. -/
def Dev.regsWf (d : Dev) : Bool := rising d.regs

/-- The device with a one-bit field set from a truth value. -/
def Dev.setB (d : Dev) (f : Fld) (i : Nat) (b : Bool) : Dev := d.set f i (flag b)

/-- A one-bit field as a truth value. -/
def Dev.is (d : Dev) (f : Fld) (i : Nat := 0) : Bool := d.get f i = 1

/-- A class W counter: advance and wrap (R7). -/
def Dev.incW (d : Dev) (f : Fld) (i : Nat := 0) (n : Nat := 1) : Dev := d.set f i (d.get f i + n)

/-- A class S counter without its event (R7): advance, stick at the largest value, set the sat bit. Second part:
this increment first reached the maximum. -/
def Dev.incRaw (d : Dev) (c : Counter) (i : Nat := 0) (n : Nat := 1) : Dev × Bool :=
  let top := 2 ^ c.cnt.width - 1
  let old := d.get c.cnt i
  let d' := d.set c.cnt i (Nat.min top (old + n))
  if old + n < top then (d', false)
  else (d'.set c.sat i (setBit (d.get c.sat i) c.satBit true), decide (old < top))

/-- All 64 bits of an instance of a register word, composed of its fields (R528 and the owning chapters). -/
def Dev.wordOf (d : Dev) (w : RegWord) (i : Nat) : Nat :=
  (w.fields.map (fun r => d.get r.fld i * 2 ^ r.fld.lo)).foldl (· + ·) 0

/-- The register word that holds a field. -/
def Fld.row (f : Fld) : Option RegWord := regTable.find? (fun w => w.word = f.word)

/-- All 64 bits of the register that holds a field. -/
def Dev.regOf (d : Dev) (f : Fld) (i : Nat := 0) : Nat :=
  match f.row with
  | some w => d.wordOf w i
  | none => 0

/-- Set every field of the register that holds `f` back to its reset value. -/
def Dev.clearReg (d : Dev) (f : Fld) (i : Nat := 0) : Dev :=
  match f.row with
  | some w => w.fields.foldl (fun d r => d.set r.fld i r.fld.rst) d
  | none => d

/-! ### Time -/

/-- Hall time (12, TIME_NOW). -/
def Dev.now (d : Dev) : BitVec 64 := BitVec.ofNat 64 (d.get R.TIME_NOW_now)

/-- Signed difference of two hall times (02: "compares times by signed difference"). -/
def tdiff (a b : BitVec 64) : Int := (a - b).toInt

/-- Hall-time units of 62.5 ps in one ns, one µs, one ms, one s. -/
def nsU : Nat := 16
def usU : Nat := 16000
def msU : Nat := 16000000
def secU : Nat := 16000000000

/-- The device at hall time `t`; hall time does not run backwards on an occurrence that names an earlier time. The
Lighthouse's calendar runs on as long (R366). -/
def Dev.advance (d : Dev) (t : BitVec 64) : Dev :=
  if tdiff t d.now > 0 then { d.set R.TIME_NOW_now 0 t.toNat with cal := d.cal + (tdiff t d.now).toNat } else d

/-- Calendar seconds and 1/1,024 s (TIME_CALENDAR). -/
def Dev.calSeconds (d : Dev) : Nat := d.cal / secU % 2 ^ 40
def Dev.calFraction (d : Dev) : Nat := d.cal % secU * 1024 / secU

/-! ### Changes and writes of one PX cycle (R4, R5, R524, R525) -/

/-- PX cycle of a hall time, at 1.0 GHz (Table 16.3). -/
def cycleOf (t : BitVec 64) : Nat := t.toNat / 16

/-- What reached the register fields in the present PX cycle. -/
def Dev.marks (d : Dev) : CycleSt :=
  if d.px.cycle = cycleOf d.now then d.px else { cycle := cycleOf d.now }

/-- Bits of a wc field that the device set in this PX cycle; bit 64 for an rw field that it changed. -/
def Dev.madeNow (d : Dev) (f : Fld) (i : Nat) : Nat := tget 0 d.marks.made (f.key i)

/-- The place in the order of R524, plus one, of the last requester to write a field in this PX cycle; 0 for none. -/
def Dev.wroteNow (d : Dev) (f : Fld) (i : Nat) : Nat := tget 0 d.marks.wrote (f.key i)

/-- A field as it stood before the writes of this PX cycle. -/
def Dev.before (d : Dev) (f : Fld) (i : Nat := 0) : Nat := (tget none d.marks.before (f.key i)).getD (d.get f i)

/-- The device with a mark that it changed bits `mask` of a field in this PX cycle. -/
def Dev.noteMade (d : Dev) (f : Fld) (i mask : Nat) : Dev :=
  let m := d.marks
  { d with px := { m with made := tput 0 m.made (f.key i) (Nat.lor (tget 0 m.made (f.key i)) mask) } }

/-- The device sets bits of a wc field, so that a write of 1 in the same PX cycle does not clear them (R4). -/
def Dev.setWc (d : Dev) (f : Fld) (i mask : Nat) : Dev := (d.set f i (Nat.lor (d.get f i) mask)).noteMade f i mask

/-- The device changes an rw field, so that a write in the same PX cycle is lost (R525). -/
def Dev.setRw (d : Dev) (f : Fld) (i v : Nat) : Dev := (d.set f i v).noteMade f i (2 ^ 64)

/-- The device clears a ws bit, unless a write of 1 sets it in the same PX cycle (R5). -/
def Dev.clearWs (d : Dev) (f : Fld) (i : Nat) : Dev := if d.wroteNow f i ≠ 0 then d else d.set f i 0

/-- A requester with place `q` in the order of R524 writes a field in this PX cycle. -/
def Dev.noteWrite (d : Dev) (f : Fld) (i q : Nat) : Dev :=
  let m := d.marks
  { d with px := { m with
      wrote := tput 0 m.wrote (f.key i) (Nat.max (tget 0 m.wrote (f.key i)) (q + 1)),
      before := tput none m.before (f.key i) (some (d.before f i)) } }

/-- A register write stores `v` in an rw field, unless the device changed it in the same PX cycle (R525). -/
def Dev.store (d : Dev) (f : Fld) (i v : Nat) : Dev :=
  if d.madeNow f i ≠ 0 then d else (d.noteWrite f i 0).set f i v

/-! ### Free values -/

/-- Draw a fresh free value (notes/assumptions/5.md). -/
def Dev.draw (d : Dev) : Nat × Dev := (Config.freeValue d.free, { d with free := d.free + 1 })

/-- Physical region of a virtual index (R380), and the virtual index of a physical region. -/
def Dev.physRegion (d : Dev) (v : Nat) : Nat := bits (d.get R.DEV_REGION_MAP_phys) (4 * v) 4
def Dev.virtRegion (d : Dev) (r : Nat) : Nat := ((List.range 16).find? (fun v => d.physRegion v = r)).getD r

/-! ### Dies, regions, cells -/

/-- Die of a region: 0 Headland for H0-H7, 1 Estuary for E0-E7 (R2). -/
def dieOf (r : Nat) : Nat := if r < 8 then 0 else 1

/-- Cells per region of the Swial's design: 32 on Headland, 16 on Estuary (Table 1.1). -/
def cellCount (r : Nat) : Nat := if r < 8 then 32 else 16

/-- Cells per block (Table 0.3). -/
def blockSize (r : Nat) : Nat := if r < 8 then 8 else 4

/-- Scratchpad bytes per cell (Table 1.3). -/
def spSize (r : Nat) : Nat := if r < 8 then 0x400000 else 0x200000

/-- Die of a Causeway link (Table 1.1). -/
def dieOfLink (l : Nat) : Nat := if l < 3 then 0 else 1

/-- Die of an HBM stack (Table 0.3). -/
def dieOfStack (s : Nat) : Nat := if s < 2 then 0 else 1

/-- A die's core domain is out of reset (DEV_STATUS, R522). -/
def Dev.coreUp (d : Dev) (die : Nat) : Bool :=
  if die = 0 then d.is R.DEV_STATUS_core_h else d.is R.DEV_STATUS_core_e

/-- What a unit of a die's core domain does, while that domain is out of reset; while it is held in reset its
registers ignore every write (R522). -/
def onCore (die : Nat) (f : Dev → Dev) (d : Dev) : Dev := if d.coreUp die then f d else d

/-- Present cells of a region under the fuses: all on grade A; on grades B and C all but two on Headland and all but one
on Estuary (R26, R529). -/
def Fuses.present (f : Fuses) (r : Nat) : Nat :=
  let all := 2 ^ cellCount r - 1
  if f.grade = 0 then all
  else if r < 8 then
    let x := f.goneH.getD r (0, 0)
    all - 2 ^ x.1.val - 2 ^ ((x.1.val + 1 + x.2.val) % 32)
  else all - 2 ^ (f.goneE.getD (r - 8) 0).val

/-- Present cells of a region, as SEQ_TARGET[r].present reads them (R529). -/
def Dev.presentCells (d : Dev) (r : Nat) : Nat := d.fuses.present r

/-- Cells of a region that execute the plan: the target mask (R380), cells in ascending order. -/
def Dev.targets (d : Dev) (r : Nat) : List Nat :=
  (List.range (cellCount r)).filter (fun c => bit (d.get R.SEQ_TARGET_target r) c)

/-- Index of cell `c` of region `r` in the per-cell registers. -/
def cellIx (r c : Nat) : Nat := r * 32 + c

/-- A region's hidden state. -/
def Dev.reg (d : Dev) (r : Nat) : RegionSt := tget {} d.regions r

/-- The device with a region's hidden state replaced. -/
def Dev.setReg (d : Dev) (r : Nat) (x : RegionSt) : Dev := { d with regions := tput {} d.regions r x }

/-- The device with a region's hidden state changed. -/
def Dev.modReg (d : Dev) (r : Nat) (f : RegionSt → RegionSt) : Dev := d.setReg r (f (d.reg r))

/-- A cell's hidden state. -/
def Dev.cell (d : Dev) (r c : Nat) : CellSt := tget {} (d.reg r).cells c

/-- The device with a cell's hidden state changed. -/
def Dev.modCell (d : Dev) (r c : Nat) (f : CellSt → CellSt) : Dev :=
  d.modReg r (fun x => { x with cells := tput {} x.cells c (f (tget {} x.cells c)) })

/-- A link's hidden state, and a change of it. -/
def Dev.link (d : Dev) (l : Nat) : LinkSt := tget {} d.links l
def Dev.modLink (d : Dev) (l : Nat) (f : LinkSt → LinkSt) : Dev :=
  { d with links := tput {} d.links l (f (d.link l)) }

/-- Every cell of a region. -/
def cellsOf (r : Nat) : List Nat := List.range (cellCount r)

/-! ### Memory addresses (R369, Table 13.2) -/

/-- Key of an offset of a hall space in `Dev.mem`. -/
def memKey (space offset : Nat) : Nat := space * 2 ^ 40 + offset

/-- Key of die address `a` of a die's HBM (R167). -/
def hbmKey (die a : Nat) : Nat := memKey 0 (die * 2 ^ 39 + a)

/-- Key of a byte of a cell's scratchpad (Table 13.2). -/
def spKey (r c off : Nat) : Nat :=
  memKey (1 + dieOf r) ((r % 8) * 2 ^ 27 + (c / blockSize r) * 2 ^ 25 + (c % blockSize r) * 2 ^ 22 + off)

/-- Key of a byte of a region's plan memory. -/
def planKey (r byte : Nat) : Nat := memKey 3 (r * 2 ^ 22 + byte)

/-- Key of a byte of a die's landing buffer. -/
def landKey (die byte : Nat) : Nat := memKey 6 (die * 2 ^ 24 + byte)

/-- Bytes of HBM on a die (R168). -/
def hbmSize (die : Nat) : Nat := if die = 0 then 144 * 2 ^ 30 else 432 * 2 ^ 30

/-- Stack that holds a die address (R167). -/
def stackOf (die a : Nat) : Nat := if die = 0 then a / 4096 % 2 else 2 + a / 4096 % 6

/-- A stack retrains under an HBM_TRAIN update; its service requests wait (Table 17.5). -/
def Dev.stackTrains (d : Dev) (s : Nat) : Bool :=
  match d.sec.upd with
  | some x => x.since.isSome && decide (x.component = 3 ∧ x.left.head? = some s)
  | none => false

/-- A stack of a die retrains, and one that `n` bytes at a die address reach. -/
def Dev.dieTrains (d : Dev) (die : Nat) : Bool :=
  (List.range 8).any (fun s => d.stackTrains s && decide (dieOfStack s = die))
def Dev.bytesTrain (d : Dev) (die a n : Nat) : Bool := d.stackTrains (stackOf die a) || d.stackTrains (stackOf die (a + n - 1))

/-- A request to a stack wakes it from self-refresh in PARK (R449). -/
def wakeStack (s : Nat) (d : Dev) : Dev :=
  if d.get R.PWR_STATE_state = 2 then
    { d with pwr := { d.pwr with
      refresh := d.pwr.refresh.filter (fun x => !decide (x = s)), lastReq := tput 0 d.pwr.lastReq s d.now } }
  else d

/-- The stacks that `n` bytes at a die address span wake. -/
def wakeFor (die a n : Nat) (d : Dev) : Dev := wakeStack (stackOf die (a + n - 1)) (wakeStack (stackOf die a) d)

/-- Area codes of Table 6.1. -/
def areaSystem : Nat := 0
def areaReplay : Nat := 1
def areaPlan : Nat := 2
def areaWeight : Nat := 3
def areaKv : Nat := 4
def areaFerry : Nat := 5
def areaHost : Nat := 6

/-- First byte (die address) and byte size of an HBM area (R169). -/
def Dev.area (d : Dev) (die a : Nat) : Nat × Nat :=
  (d.get R.HB_AREA_base (die * 8 + a) * 65536, d.get R.HB_AREA_size (die * 8 + a) * 65536)

/-- The area of a die that holds bytes [x, x + n), 7 where none does. -/
def Dev.areaAt (d : Dev) (die x n : Nat) : Nat :=
  ((List.range 7).find? (fun a => let b := d.area die a; decide (b.1 ≤ x ∧ x + n ≤ b.1 + b.2))).getD 7

/-- A hall address of this device in space 0x0 as (die, die address); none where it names anything else. -/
def Dev.hbmAt (d : Dev) (a : Nat) : Option (Nat × Nat) :=
  if bits a 40 4 = 0 ∧ bits a 44 20 = d.get R.DEV_ADDR_address then some (bits a 39 1, bits a 0 39) else none

/-- Device address bits of a hall address. -/
def hallDev (a : Nat) : Nat := bits a 44 20

/-- Read `n` bytes of this device at a hall address as a little-endian number (device field ignored). -/
def Dev.hallNum (d : Dev) (a n : Nat) : Nat := mnum d.mem (bits a 0 44) n

/-- Read `n` bytes of this device at a hall address. -/
def Dev.hallBytes (d : Dev) (a n : Nat) : List Byte := mbytes d.mem (bits a 0 44) n

/-- Write bytes of this device at a hall address. -/
def Dev.hallWrite (d : Dev) (a : Nat) (bs : List Byte) : Dev := { d with mem := mwrite d.mem (bits a 0 44) bs }

/-! ### Events (R9, R501 to R507) -/

/-- Cause code of an event in TIDE_FAULT (Table 2.6): a tide-unit fault has its own, another block's is 0x10. -/
def Ev.tideCause (e : Ev) : Nat := if e.block = 2 then e.row else 0x10

/-- Cause code of an event in SEQ_FAULT (Tables 3.17, 4.10, 5.7, R497), 0 where it has none. -/
def Ev.seqCause (e : Ev) : Nat :=
  if e.block = 3 ∧ e.row ≤ 11 then 0x1F + e.row
  else if e.block = 4 ∧ e.row = 1 then 0x30
  else if e.block = 5 ∧ e.row ≤ 5 then 0x3F + e.row
  else if e = E.ROUTER_UE then 0x50
  else 0

/-- The owning chapter's record register of an event, as it stands (Table 19.3, bytes 16 to 23). -/
def Dev.eventDetail (d : Dev) (e : Ev) (region inst : Option Nat) : Nat :=
  let cell := cellIx (region.getD 0) (inst.getD 0)
  if e.block = 2 ∧ e.sev = .fault then d.regOf R.TIDE_FAULT_cause
  else if e.seqCause ≠ 0 ∧ e.seqCause ≠ 0x40 then d.regOf R.SEQ_FAULT_cause (region.getD 0)
  else if e = E.SP_UNCORRECTABLE ∨ e = E.SP_CORRECTED ∨ e = E.SP_SCRUB_UE then d.regOf R.SP_ECC_LAST_word cell
  else if e = E.PLAN_SLIP then d.regOf R.SP_SLIP_FIRST_pc cell
  else if e = E.HARBOUR_VIOLATION then d.regOf R.SP_HARBOUR_LAST_device cell
  else if e = E.ACC_RANGE then d.regOf R.SEQ_ARITH_FIRST_pc (region.getD 0)
  else if e = E.HBM_UE_PLAN ∨ e = E.HBM_UE then d.regOf R.HB_ECC_LAST_address (inst.getD 0)
  else if e = E.SUPPLY_DIP then d.regOf R.PWR_DIP_min_mv (inst.getD 0)
  else if e = E.ADMIT_REFUSED then d.regOf R.DEV_ADMIT_DETAIL_region
  else 0

/-- Bytes 0 to 23 of an event record (Table 19.3). -/
def eventHead (now : BitVec 64) (e : Ev) (region inst : Option Nat) (detail : Nat) : List Byte :=
  leBytes 8 now.toNat ++ leBytes 2 e.code ++ leBytes 1 e.sev.num ++ leBytes 1 (region.getD 0xFF) ++
  leBytes 2 (inst.getD 0xFFFF) ++ leBytes 2 0 ++ leBytes 8 detail

/-- Bytes 24 to 31 of an event record. -/
def eventTail (seq : BitVec 32) : List Byte := leBytes 4 seq.toNat ++ leBytes 4 0

/-- The 32 bytes of an event record (Table 19.3). -/
def eventRecord (now : BitVec 64) (e : Ev) (region inst : Option Nat) (detail : Nat) (seq : BitVec 32) : List Byte :=
  eventHead now e region inst detail ++ eventTail seq

/-- Send MSI-X vector `v` (R409): a masked vector is kept pending. -/
def Dev.sendVector (d : Dev) (v : Nat) : Dev :=
  let ctl := tget (2 ^ 32) d.host.msix (2 * v + 1)
  if bit ctl 32 ∨ d.host.held ∨ ¬ d.is R.HOST_STATUS_link_up then
    { d with host := { d.host with pba := d.host.pba ||| (1#64 <<< v) } }
  else
    { d with host := { d.host with
        vectors := d.host.vectors ++ [v],
        out := d.host.out ++ [{ addr := tget 0 d.host.msix (2 * v), data := leBytes 4 (ctl % 2 ^ 32) }] } }

/-- The vector of a severity (Table 19.5); NOTE records send none. -/
def Dev.vectorOf (d : Dev) : Sev → Option Nat
  | .note => none
  | .warn => some (d.get R.EVT_CTL_vec_warn)
  | .fault => some (d.get R.EVT_CTL_vec_fault)
  | .fatal => some (d.get R.EVT_CTL_vec_fatal)
  | .nmi => some (d.get R.EVT_CTL_vec_nmi)

/-- Send the vector of a severity under the coalescing rule (R505): at most once in each EVT_CTL.coalesce; a severe
vector held back is sent when the interval ends. -/
def Dev.signalEvent (d : Dev) (s : Sev) : Dev :=
  match d.vectorOf s with
  | none => d
  | some v =>
    let st := tget {} d.evt.vecs v
    let due := match st.lastSent with
      | none => true
      | some t => decide (tdiff d.now t ≥ (d.get R.EVT_CTL_coalesce * usU : Nat))
    if due then
      ({ d with evt := { d.evt with vecs := tput {} d.evt.vecs v { st with lastSent := some d.now } } }).sendVector v
    else if s = .warn then d
    else { d with evt := { d.evt with vecs := tput {} d.evt.vecs v { st with held := true } } }

/-- The die and die address of a usable event ring (R503): 4,096 entries wholly in area SYSTEM of a die of this device. -/
def Dev.ringAt (d : Dev) : Option (Nat × Nat) :=
  match d.hbmAt (d.get R.EVT_RING_BASE_base) with
  | some (die, a) => if d.areaAt die a 131072 = areaSystem then some (die, a) else none
  | none => none

/-- The event ring is full (R503). -/
def Dev.ringFull (d : Dev) : Bool :=
  (d.get R.EVT_RING_HEAD_head + 1) % 4096 = d.get R.EVT_RING_TAIL_tail

/-- The ring is full as a record finds it: by the tail before a write of the same PX cycle (19, "When events
coincide"). -/
def Dev.ringFullNow (d : Dev) : Bool :=
  (d.get R.EVT_RING_HEAD_head + 1) % 4096 = d.before R.EVT_RING_TAIL_tail

/-- `n` units have passed since a time, where there is one. -/
def due (since : Option (BitVec 64)) (n : Nat) (t : BitVec 64) : Bool :=
  match since with
  | some t0 => decide (tdiff t t0 ≥ n)
  | none => true

/-- A unit whose clock is not hall time has seen `n` units pass: a time that lies ahead of `t` shows that hall time was
stepped back since (notes/assumptions/122.md). -/
def lapsed (since : Option (BitVec 64)) (n : Nat) (t : BitVec 64) : Bool :=
  due since n t || (match since with
    | some t0 => decide (tdiff t t0 < 0)
    | none => false)

/-- The device has Quay ports (R27). -/
def Dev.quayPresent (d : Dev) : Bool := d.fuses.grade ≠ 2

/-- A Quay port can carry frames. -/
def Dev.quayUp (d : Dev) (q : Nat) : Bool := d.quayPresent && d.is R.QUAY_PORT_enable q && d.is R.QUAY_PORT_link_up q

/-- The level driven on ALERT_N (R506), 1 asserted; its assertion raises an I3C in-band interrupt (R420). -/
def Dev.updateAlert (d : Dev) : Dev :=
  let on := d.is R.EVT_STATUS_nmi_seen || d.is R.EVT_STATUS_fatal_seen || d.is R.EVT_STATUS_boot_alert
  let rises := on && !d.is R.EVT_STATUS_alert
  let d := d.setB R.EVT_STATUS_alert 0 on
  { d with side := { d.side with ibi := d.side.ibi + flag rises } }

/-- The status bits that an event of a severity sets, and ALERT_N (R506, Table 19.10). -/
def Dev.noteSeverity (d : Dev) (s : Sev) : Dev :=
  match s with
  | .fault => d.setWc R.EVT_STATUS_fault_seen 0 1
  | .fatal => (d.setWc R.EVT_STATUS_fatal_seen 0 1).updateAlert
  | .nmi => (d.setWc R.EVT_STATUS_nmi_seen 0 1).updateAlert
  | _ => d

/-- EVT_LAST_SEVERE keeps the latest FAULT, FATAL or NMI record (R503). -/
def Dev.keepSevere (d : Dev) (e : Ev) (region : Option Nat) : Dev :=
  if e.sev.num ≥ 2 then
    ((((d.set R.EVT_LAST_SEVERE_time 0 d.now.toNat).set R.EVT_LAST_SEVERE_code 0 e.code).set
      R.EVT_LAST_SEVERE_severity 0 e.sev.num).set R.EVT_LAST_SEVERE_valid 0 1).set
      R.EVT_LAST_SEVERE_region 0 (region.getD 0xFF)
  else d

/-- An event is masked (R504): only NOTE and WARN events are; a mask applies from the PX cycle after its write. -/
def Dev.masked (d : Dev) (e : Ev) : Bool :=
  decide (e.sev.num < 2) && bit (d.before R.EVT_MASK_mask (e.block - 1)) (e.row - 1)

/-- Write an event's record at the head of the ring at die address `a`; the records of one PX cycle stand in ascending
code order, with their sequence numbers (R501). -/
def Dev.writeRecord (d : Dev) (die a : Nat) (e : Ev) (region inst : Option Nat) (seq : BitVec 32) : Dev :=
  let old := if d.evt.recentAt = cycleOf d.now then d.evt.recent else []
  let all := insertBy (fun x y => decide (x.1 ≤ y.1)) (e.code, eventHead d.now e region inst (d.eventDetail e region inst)) old
  let first := d.get R.EVT_RING_HEAD_head + 4096 - old.length
  let mem := all.zipIdx.foldl (fun m x => mwrite m (hbmKey die (a + 32 * ((first + x.2) % 4096)))
    (x.1.2 ++ eventTail (seq - BitVec.ofNat 32 old.length + BitVec.ofNat 32 x.2))) d.mem
  ({ d with mem := mem, evt := { d.evt with recent := all, recentAt := cycleOf d.now } }).set
    R.EVT_RING_HEAD_head 0 (d.get R.EVT_RING_HEAD_head + 1)

/-- Record and deliver one event (R501 to R506). Second part: how many of the event unit's own counters first reached
their maximum. -/
def Dev.recordEvent (d : Dev) (e : Ev) (region inst : Option Nat) : Dev × Nat :=
  let d := (d.noteSeverity e.sev).keepSevere e region
  if d.masked e then
    let (d, s) := d.incRaw C.EVT_COUNTS_masked
    (d, flag s)
  else
    let seq := d.evt.seq
    let d := { d with evt := { d.evt with seq := seq + 1 } }
    match d.ringAt with
    | some (die, a) =>
      if d.ringFullNow ∨ ¬ d.is R.EVT_CTL_enable then
        let (d, s) := d.incRaw C.EVT_COUNTS_dropped
        (({ d with evt := { d.evt with recent := [] } }.setB R.EVT_STATUS_full 0 d.ringFull).signalEvent e.sev, flag s)
      else
        let (d, s) := (d.writeRecord die a e region inst seq).incRaw C.EVT_COUNTS_written
        ((d.setB R.EVT_STATUS_full 0 d.ringFull).signalEvent e.sev, flag s)
    | none =>
      let (d, s) := d.incRaw C.EVT_COUNTS_dropped
      ((d.setB R.EVT_STATUS_full 0 d.ringFull).signalEvent e.sev, flag s)

/-- EV_COUNTER_SATURATED for the event unit's own counters, which recording that event may itself saturate (R7). -/
def Dev.noteSaturated : Nat → Dev × Nat → Dev
  | 0, (d, _) => d
  | _, (d, 0) => d
  | fuel + 1, (d, n + 1) =>
    let (d', k) := d.recordEvent E.COUNTER_SATURATED none none
    noteSaturated fuel (d', n + k)

/-! ### Life log queue (R515) -/

/-- Put an entry into the Lighthouse queue; a full queue drops its oldest entry. -/
def Dev.lifeAdd (d : Dev) (e : LifeEntry) : Dev :=
  if ¬ d.is R.LIFE_CTL_enable then d
  else
    let q := if d.life.queue.length ≥ 256 then d.life.queue.drop 1 else d.life.queue
    let d := { d with life := { d.life with queue := q ++ [e] } }
    d.set R.LIFE_STATUS_queued 0 d.life.queue.length

/-- Start writing the queue (R515, "at once" of Table 19.7). -/
def Dev.lifeFlush (d : Dev) : Dev :=
  if d.life.queue = [] then d
  else
    let d := { d with life := { d.life with queue := [], writing := d.life.writing ++ d.life.queue } }
    (d.set R.LIFE_STATUS_queued 0 0).set R.LIFE_STATUS_busy 0 1

/-- A class S count of `w` bits that no register shows, advanced by `n` (R7): the count, and whether this increment
first reached the maximum. -/
def stickCount (w old n : Nat) : Nat × Bool :=
  let top := 2 ^ w - 1
  (Nat.min top (old + n), decide (old < top ∧ top ≤ old + n))

/-- Add to a total of Table 19.8 that no register shows: class S of 4 bytes; whether it first reached its maximum. -/
def Dev.lifeRaw (d : Dev) (which n : Nat) : Dev × Bool :=
  let x := stickCount 32 (tget 0 d.life.totals which) n
  ({ d with life := { d.life with totals := tput 0 d.life.totals which x.1 } }, x.2)

/-- Indices of the totals kept in `LifeSt.totals`. -/
def totLanes : Nat := 0
def totRetrains : Nat := 1
def totDips : Nat := 2
def totResets : Nat := 3
def totQuiesces : Nat := 4
def totFatals : Nat := 5

/-! ### Entries of the Isthmus (R271 to R273) -/

def isDown : Nat := 0
def isTraining : Nat := 1
def isUp : Nat := 2
def isDegraded : Nat := 3

/-- Classes of Table 9.1; those of drift are 4 plus the VC. -/
def icPlan : Nat := 1
def icKv : Nat := 2
def icFerry : Nat := 3
def icDrift (vc : Nat) : Nat := 4 + vc

/-- The Isthmus carries flits. -/
def Dev.isthmusUp (d : Dev) : Bool := d.get R.IST_STATUS_state = isUp || d.get R.IST_STATUS_state = isDegraded

/-- Entry slots per PX cycle in each direction: none while the Isthmus is down or trains (R276, R277). -/
def Dev.istSlots (d : Dev) : Nat := if d.isthmusUp then d.get R.IST_RESERVE_capacity else 0

/-- The first `n` entries of a run, and what is left of it. -/
def IstRun.take (r : IstRun) (n : Nat) : IstRun := { r with count := n }
def IstRun.drop (r : IstRun) (n : Nat) : IstRun := { r with first := r.first + n, count := r.count - n }

/-- Entries queued before PX cycle `c` that take `n` slots of it, oldest first: those taken, those left, the slots
left. -/
def takeEntries (c : Nat) : List IstRun → Nat → List IstRun × List IstRun × Nat
  | [], n => ([], [], n)
  | r :: rs, n =>
    if n = 0 ∨ r.stamp ≥ c then ([], r :: rs, n)
    else if r.count ≤ n then
      let x := takeEntries c rs (n - r.count)
      (r :: x.1, x.2)
    else ([r.take n], r.drop n :: rs, 0)

/-- One PX cycle of a direction with `slots` entry slots: plan entries first, then the other classes in the order in
which they were queued (R272, R277, notes/assumptions/109.md). -/
def IstDir.send (x : IstDir) (slots c : Nat) : IstDir :=
  let p := takeEntries c x.plan slots
  let o := takeEntries c x.rest p.2.2
  { x with plan := p.2.1, rest := o.2.1, sent := x.sent ++ p.1 ++ o.1, cycle := c }

/-- The PX cycles up to `now`, those in which nothing waits left out. -/
def IstDir.sendTo (slots now : Nat) : Nat → IstDir → IstDir
  | 0, x => { x with cycle := Nat.max x.cycle now }
  | fuel + 1, x =>
    match (x.plan.head?.toList ++ x.rest.head?.toList).map (·.stamp) with
    | [] => { x with cycle := Nat.max x.cycle now }
    | s :: ss =>
      let c := Nat.max (x.cycle + 1) (ss.foldl Nat.min s + 1)
      if slots = 0 ∨ c > now then { x with cycle := Nat.max x.cycle now } else sendTo slots now fuel (x.send slots c)

/-- Entries that wait for a slot. -/
def IstDir.waiting (x : IstDir) : Nat := ((x.plan ++ x.rest).map (·.count)).foldl (· + ·) 0

/-- Every entry slot up to the present PX cycle has been given. -/
def Dev.istSync (d : Dev) : Dev :=
  let f := fun (x : IstDir) => IstDir.sendTo d.istSlots (cycleOf d.now) (x.waiting + 1) x
  { d with ist := { d.ist with toE := f d.ist.toE, toH := f d.ist.toH } }

/-- A direction of the Isthmus, and a change of it. -/
def Dev.istDir (d : Dev) (toE : Bool) : IstDir := if toE then d.ist.toE else d.ist.toH
def Dev.setIstDir (d : Dev) (toE : Bool) (x : IstDir) : Dev :=
  { d with ist := if toE then { d.ist with toE := x } else { d.ist with toH := x } }

/-- Queue a transfer of `n` entries; tag fields as Table 9.1 names them. -/
def Dev.istQueue (d : Dev) (toE : Bool) (cls region channel addr n : Nat) (body : IstBody) : Dev :=
  let x := d.istDir toE
  let run : IstRun :=
    { cls := cls, region := region, channel := channel,
      tide := if cls = icPlan then d.get R.TIDE_NUMBER_tide % 65536 else 0, addr := addr, seq := tget 0 x.seq cls,
      total := n, count := n, stamp := cycleOf d.now, body := body }
  let x := { x with seq := tput 0 x.seq cls (tget 0 x.seq cls + BitVec.ofNat 32 n) }
  d.setIstDir toE (if cls = icPlan then { x with plan := x.plan ++ [run] } else { x with rest := x.rest ++ [run] })

/-- Every run of a direction. -/
def IstDir.runs (x : IstDir) : List IstRun := x.plan ++ x.rest ++ x.sent

/-- Transfers that their sender gives up leave the Isthmus. -/
def Dev.istDrop (d : Dev) (p : IstRun → Bool) : Dev :=
  let f := fun (x : IstDir) =>
    { x with plan := x.plan.filter (fun r => !p r), rest := x.rest.filter (fun r => !p r),
             sent := x.sent.filter (fun r => !p r) }
  { d with ist := { d.ist with toE := f d.ist.toE, toH := f d.ist.toH } }

/-- A transfer that a predicate picks has entries on the Isthmus. -/
def Dev.onIsthmus (d : Dev) (p : IstBody → Bool) : Bool := (d.ist.toE.runs ++ d.ist.toH.runs).any (fun r => p r.body)

/-- Plan entries that have not been sent are discarded (R498). -/
def Dev.istDiscard (d : Dev) : Dev :=
  let d := d.istSync
  { d with ist := { d.ist with toE := { d.ist.toE with plan := [] }, toH := { d.ist.toH with plan := [] } } }

/-! ### Plan faults (R62, R498) -/

/-- What a plan fault stops at once (R498): every region goes dark, the stream engines stop, crossing entries not yet
sent on the Isthmus are discarded and the links' plan queues are emptied. -/
def Dev.stopPlan (d : Dev) : Dev :=
  let d := (List.range 16).foldl (fun d r => (d.modReg r (fun x =>
    { x with phase := .dark, started := false, streamRun := false, hold := none, slip := none, parts := [],
             chans := [], lastHold := x.hold.orElse (fun _ => x.lastHold) })).set R.SEQ_STATUS_stream_hold r 0)
    d.istDiscard
  ((List.range 6).foldl (fun d l => d.modLink l (fun x => { x with planQueue := [] })) d).set R.TIDE_STATUS_hold_mask 0 0

/-- A plan fault of the present PX cycle is recorded (R61). -/
def Dev.faultNow (d : Dev) : Bool :=
  decide (d.get R.TIDE_STATUS_state = 4) && decide (d.tide.faultAt = cycleOf d.now)

/-- Containment of the first plan fault (R498): the FAULT lines, then everything that stops. -/
def Dev.contain (d : Dev) (region : Option Nat) : Dev :=
  let lines := match region with
    | some r => [r]
    | none => List.range 16
  (lines.foldl (fun d r => d.modReg r (fun x => { x with faultLine := true })) d).stopPlan

/-- SEQ_FAULT of the region (Table 3.18, Table 3.16): the first fault is kept, a further one sets more; of two in one
tick the lower cause is kept. -/
def Dev.recordSeq (d : Dev) (e : Ev) (region : Option Nat) : Dev :=
  match region with
  | some r =>
    let old := d.get R.SEQ_FAULT_cause r
    let kept := ((d.set R.SEQ_FAULT_cause r e.seqCause).set R.SEQ_FAULT_pc r (d.get R.SEQ_STATUS_pc r)).set
      R.SEQ_FAULT_tick r (d.get R.SEQ_STATUS_tick r)
    if e.seqCause = 0 then d
    else if old = 0 then kept
    else (if d.faultNow ∧ e.seqCause < old then kept else d).set R.SEQ_FAULT_more r 1
  | none => d

/-- The fields of TIDE_FAULT (Table 2.14). -/
def Dev.recordTide (d : Dev) (e : Ev) (region : Option Nat) : Dev :=
  let tick := match region with
    | some r => d.get R.SEQ_STATUS_tick r
    | none => 0
  ((d.set R.TIDE_FAULT_cause 0 e.tideCause).set R.TIDE_FAULT_source 0 (region.getD 16)).set R.TIDE_FAULT_tick 0 tick

/-- TIDE_FAULT and the state FAULTED (R62); of two faults in one PX cycle the lower cause is kept (R61). A FATAL event
records no plan fault. -/
def Dev.planFault (d : Dev) (e : Ev) (region : Option Nat) : Dev :=
  let d := d.recordSeq e region
  if d.get R.TIDE_STATUS_state = 4 then
    ((if d.faultNow ∧ e.tideCause < d.get R.TIDE_FAULT_cause then d.recordTide e region else d).set
      R.TIDE_FAULT_more 0 1).contain region
  else
    ({ d.recordTide e region with tide := { d.tide with
        faultAt := cycleOf d.now
        faultRun := decide (d.get R.TIDE_STATUS_state = 2) && d.tide.ended.isNone } }.set R.TIDE_STATUS_state 0 4).contain
      region

/-- The device action of an event's severity (R9, Table 0.5a). -/
def Dev.eventAction (d : Dev) (e : Ev) (region : Option Nat) : Dev :=
  match e.sev with
  | .fault => d.planFault e region
  | .fatal => ({ d with fatal := true }).stopPlan
  | _ => d

/-- A FATAL event's life-log entry, written at once (Table 19.7). -/
def Dev.lifeFatal (d : Dev) (e : Ev) (region inst : Option Nat) (seq : BitVec 32) : Dev :=
  if e.sev = .fatal then
    let x := d.lifeRaw totFatals 1
    let d := (x.1.lifeAdd ⟨0x06, eventRecord d.now e region inst (d.eventDetail e region inst) seq⟩).lifeFlush
    if x.2 ∧ d.coreUp 1 then noteSaturated 4 (d.recordEvent E.COUNTER_SATURATED none none) else d
  else d

/-- Raise an event: its severity's action, then its record and delivery. While Estuary's core domain is held in reset
the event unit is too, and only the Lighthouse's part takes place (R522, notes/assumptions/6.md). -/
def Dev.raise (d : Dev) (e : Ev) (region : Option Nat := none) (inst : Option Nat := none) : Dev :=
  let seq := d.evt.seq
  let d := d.eventAction e region
  let d := if d.coreUp 1 then noteSaturated 4 (d.recordEvent e region inst) else d
  d.lifeFatal e region inst seq

/-- A class S counter: advance, stick, set the sat bit, and raise EV_COUNTER_SATURATED on the increment that first
reaches the maximum (R7). -/
def Dev.inc (d : Dev) (c : Counter) (i : Nat := 0) (n : Nat := 1) : Dev :=
  match d.incRaw c i n with
  | (d, true) => d.raise E.COUNTER_SATURATED
  | (d, false) => d

/-- Add to a total of Table 19.8 that no register shows (R7). -/
def Dev.lifeTotal (d : Dev) (which : Nat) (n : Nat := 1) : Dev :=
  match d.lifeRaw which n with
  | (d, true) => d.raise E.COUNTER_SATURATED
  | (d, false) => d

/-- A lane failure's entry and total (Tables 19.7, 19.8): link, or 256 + Isthmus module; lane; direction. -/
def Dev.lifeLane (d : Dev) (unit lane : Nat) (dir : Bool) : Dev :=
  (d.lifeTotal totLanes).lifeAdd ⟨0x05, leBytes 2 unit ++ leBytes 1 lane ++ leBytes 1 (flag dir)⟩

/-- A class P counter: advance and wrap, raising EV_PERF_OVERFLOW on each wrap (R7). -/
def Dev.incP (d : Dev) (f : Fld) (i : Nat := 0) (n : Nat := 1) : Dev :=
  let v := d.get f i + n
  let d := d.set f i v
  if v ≥ 2 ^ f.width then d.raise E.PERF_OVERFLOW else d

/-- Raise several events of one PX cycle in ascending code order (R501). -/
def Dev.raiseAll (d : Dev) (es : List (Ev × Option Nat × Option Nat)) : Dev :=
  (sortBy (fun a b => decide (a.1.code ≤ b.1.code)) es).foldl (fun d e => d.raise e.1 e.2.1 e.2.2) d

/-- CW_RESERVE.capacity: slots per tide at the current transmit width (R284). -/
def showCapacity (d : Dev) : Dev :=
  (List.range 6).foldl (fun d l =>
    d.set R.CW_RESERVE_capacity l (d.get R.TIDE_PERIOD_period * d.get R.CW_STATUS_tx_width l * 100 / 16384)) d

/-! ### Locks (R523, Table 20.3) -/

/-- The ADMIT lock holds for the fields of a die: since its last reset an admission has set it. -/
def Dev.admitLocked (d : Dev) (die : Nat) : Bool := d.is R.DEV_STATUS_admit_lock && !d.sec.admitFree.contains die

/-- The BOOT lock holds for the fields of a die: since its last reset it has booted. -/
def Dev.bootLocked (d : Dev) (die : Nat) : Bool := d.is R.DEV_STATUS_boot_lock && !d.sec.toBoot.contains die

/-! ### Outcomes -/

/-- What a command answers. -/
abbrev Answer := Host.Outcome State Fault Refusal

/-- A command whose effect lies in the device: the next state, with the queue and the meter as they were. -/
def lift (f : Dev → Dev) (s : State) : Answer := .next { s with dev := f s.dev }

/-- A command of the plan or of drift, which a FATAL event stops (R500). -/
def unlessFatal (f : Dev → Dev) (d : Dev) : Dev := if d.fatal then d else f d

end Sys2Proof.Machine
end

