-- ==== Sys2Proof/Machine/Operands.lean ====
section
/-! DEFINITION. The operand forms of control words: handles, descriptors, generated addresses (R78, R93 to R95), cell
indices, the lead cell (R82), and the bank accesses of one tick (R141 to R147, Table 5.2). -/

namespace Sys2Proof.Machine

/-! ### Descriptors (R93, Table 3.14) -/

def Desc.word (x : Desc) (i : Nat) : Nat := (x.words.getD i 0).toNat
def Desc.base (x : Desc) : Nat := x.word 0
/-- Extent of dimension `k`. -/
def Desc.extent (x : Desc) (k : Nat) : Nat := bits (x.word (k + 1)) 0 24
/-- Signed byte stride of dimension `k`. -/
def Desc.stride (x : Desc) (k : Nat) : Int := sext 40 (bits (x.word (k + 1)) 24 40)
def Desc.format (x : Desc) : Nat := bits (x.word 6) 0 8
/-- Class bit: weight. -/
def Desc.weight (x : Desc) : Bool := bit (x.word 6) 8
def Desc.ndims (x : Desc) : Nat := bits (x.word 6) 9 3
def Desc.cixStride (x : Desc) : Int := sext 40 (bits (x.word 6) 16 40)
def Desc.valid (x : Desc) : Bool := bit (x.word 6) 56
def Desc.isLocal (x : Desc) : Bool := bit (x.word 6) 57
def Desc.bound (x : Desc) : Nat := bits (x.word 7) 0 40

/-- The reserved fields of a descriptor are zero. -/
def Desc.reservedZero (x : Desc) : Bool :=
  bits (x.word 6) 12 4 = 0 && bits (x.word 6) 58 6 = 0 && bits (x.word 7) 40 24 = 0

/-- A handle may use the entry (R95, EV_DESC_INVALID otherwise). -/
def Desc.usable (x : Desc) : Bool :=
  x.valid && decide (1 ≤ x.ndims ∧ x.ndims ≤ 5) &&
  (List.range x.ndims).all (fun k => x.extent k ≠ 0) && decide (x.extent 0 % 8 = 0) && x.reservedZero

/-- Words (of 8 bytes) along dimension `k`. -/
def Desc.size (x : Desc) (k : Nat) : Nat := if k = 0 then x.extent 0 / 8 else x.extent k

/-- Words that a descriptor walks before it wraps (R78). -/
def Desc.total (x : Desc) : Nat := ((List.range x.ndims).map x.size).foldl (· * ·) 1

/-- Byte displacement of odometer position `q`, dimension 0 fastest: dimensions from `k` on, `n` of them left. -/
def odometer (x : Desc) : Nat → Nat → Nat → Int
  | 0, _, _ => 0
  | n + 1, k, q =>
    ((q % x.size k : Nat) : Int) * (if k = 0 then 8 else x.stride k) + odometer x n (k + 1) (q / x.size k)

/-- Table entry `i` of a region, as words that begin at plan tick `at` resolve it (R83). -/
def RegionSt.entry (x : RegionSt) (i start : Nat) : Desc :=
  x.tableFly.foldl (fun e w => if w.index = i ∧ w.eff ≤ start then w.desc else e) (tget {} x.table i)

/-- Resolve a handle (R94, R95): the descriptor and the cell-index select. -/
def Dev.resolve (d : Dev) (r : Nat) (h : BitVec 16) (start : Nat) : Except Ev (Desc × Nat) :=
  let e := (d.reg r).entry (h.toNat % 4096) start
  if e.usable then .ok (e, bits h.toNat 12 2) else .error E.DESC_INVALID

/-- SEQ_CIX[r,c,k] (R96). -/
def Dev.cix (d : Dev) (r c k : Nat) : Nat := d.get R.SEQ_CIX_index ((r * 32 + c) * 4 + k)

/-- Offset field of the origin, before any carry is judged (R94). -/
def Dev.originOff (d : Dev) (r c : Nat) (x : Desc) (sel : Nat) : Int :=
  (bits x.base 0 40 : Int) + x.cixStride * d.cix r c sel

/-- Offset field of the generated address at a position (R94); none: EV_DESC_BOUNDS, outside [O, O + bound) or a carry
out of the offset field (R95). -/
def Dev.genOff (d : Dev) (r c : Nat) (x : Desc) (sel pos : Nat) : Option Nat :=
  let o := d.originOff r c x sel
  let a := o + odometer x x.ndims 0 (pos % x.total)
  if o < 0 ∨ a < o ∨ a + 8 > o + x.bound ∨ a + 8 > (2 ^ 40 : Int) then none else some a.toNat

/-- A generated address names the scratchpad of the cell that makes the access (R95); a local descriptor takes the
device, region, block and cell of that cell (R94). -/
def Dev.namesCell (d : Dev) (r c : Nat) (x : Desc) (off : Nat) : Bool :=
  decide (bits x.base 40 4 = 1 + dieOf r) &&
  (x.isLocal ||
    (decide (hallDev x.base = d.get R.DEV_ADDR_address) &&
     decide (bits off 22 18 = (r % 8) * 32 + (c / blockSize r) * 8 + c % blockSize r)))

/-- Byte offset, within cell c's scratchpad, of position `pos` of a plan access (R94, R95, R142). -/
def Dev.spAddr (d : Dev) (r c : Nat) (x : Desc) (sel pos : Nat) : Except Ev Nat :=
  match d.genOff r c x sel pos with
  | none => .error E.DESC_BOUNDS
  | some off =>
    if ¬ d.namesCell r c x off then .error E.DESC_BOUNDS
    else
      let b := bits off 0 22 / 8 * 8
      if b ≥ spSize r then .error E.SP_RANGE else .ok b

/-- Byte offsets of `n` consecutive positions. -/
def Dev.spAddrs (d : Dev) (r c : Nat) (x : Desc) (sel pos : Nat) : Nat → Except Ev (List Nat)
  | 0 => .ok []
  | n + 1 =>
    match d.spAddr r c x sel pos, d.spAddrs r c x sel (pos + 1) n with
    | .ok a, .ok as => .ok (a :: as)
    | .error e, _ => .error e
    | _, .error e => .error e

/-- A value that the spec leaves open in a plan's arithmetic or data movement (R135, notes/assumptions/101.md): by
virtual region, virtual cell (2^24 for the region as a whole), plan tick and use. -/
def Dev.planFree (d : Dev) (r : Nat) (cell : Option Nat) (tick use : Nat) : Nat :=
  Config.planValue (d.virtRegion r) (match cell with
    | some c => d.cix r c 0
    | none => 2 ^ 24) tick use

/-! ### The lead cell (R82) -/

/-- The cell of the target whose virtual cell number is lowest; none while the target is empty. -/
def Dev.leadCell (d : Dev) (r : Nat) : Option Nat :=
  (d.targets r).foldl (fun b c =>
    match b with
    | none => some c
    | some x => if d.cix r c 0 < d.cix r x 0 then some c else some x) none

/-- A cell's predicate register: p0 always reads 1 (R71). -/
def CellSt.pred (c : CellSt) (i : Nat) : Bool := i = 0 || bit c.preds.toNat i

/-! ### Scratchpad words and storage classes -/

/-- Bank, row and segment of a byte offset (Table 5.1). -/
def bankOf (off : Nat) : Nat := off / 64 % 32
def rowOf (off : Nat) : Nat := off / 2048
def segOf (off : Nat) : Nat := off / 65536

/-- A segment is of weight class (R151). -/
def Dev.weightSeg (d : Dev) (r c seg : Nat) : Bool := bit (d.get R.SP_SEG_CLASS_weight (cellIx r c)) seg

/-- Read a scratchpad word. -/
def Dev.spRead (d : Dev) (r c off : Nat) : BitVec 64 := BitVec.ofNat 64 (mnum d.mem (spKey r c off) 8)

/-- Write a scratchpad word. -/
def Dev.spWrite (d : Dev) (r c off : Nat) (v : BitVec 64) : Dev :=
  { d with mem := mputn d.mem (spKey r c off) 8 v.toNat }

/-- One plan access of a word: cell, place in the order of Table 5.2 (also the requester), byte offset, and for a
write the word and the class of its descriptor. -/
structure Acc where
  cell : Nat
  key : Nat
  /-- Number of the delivery or store that makes it; 0 for a slot's own access. -/
  nth : Nat := 0
  off : Nat
  write : Option (BitVec 64)
  weight : Bool := false
  deriving DecidableEq, Repr

/-- Places in the order of Table 5.2. -/
def keyGather (p : Nat) : Nat := 100 + 100 * p
def keyWload (a : Nat) : Nat := 300 + a
def keyDesc : Nat := 400
def keyLsend (p : Nat) : Nat := 401 + p
def keySample : Nat := 403
/-- Transfer deliveries of a cell's own port p, by kind: 0 CSEND, 1 BSEND, 2 XRECV, 3 LREAD; then CSEND and BSEND of
other cells. -/
def keyOwn (p kind : Nat) : Nat := 500 + 4 * p + kind
def keyArrive (sender p kind : Nat) : Nat := 508 + 4 * sender + 2 * p + kind
def keyDrain (a : Nat) : Nat := 700 + a
def keyStore : Nat := 800
def keyScatter (p : Nat) : Nat := 900 + p

/-- Keep one of each. -/
def distinct {α : Type} [DecidableEq α] (l : List α) : List α :=
  l.foldl (fun acc x => if x ∈ acc then acc else acc ++ [x]) []

/-- What makes one access of a bank row of a write (R143): the requester, which of its deliveries or stores, the row. -/
def Acc.group (a : Acc) : Nat × Nat × Nat := (a.key, a.nth, rowOf a.off)

/-- The accesses that the writes to one bank make (R143). -/
def writeGroups (l : List Acc) : List (Nat × Nat × Nat) := distinct (l.map Acc.group)

/-- The 4-word groups of a requester's row write that it covers only in part. -/
def partialGroup (d : Dev) (r c : Nat) (l : List Acc) (g : Nat × Nat × Nat) : Bool :=
  let mine := l.filter (fun a => decide (a.group = g))
  mine.any (fun a =>
    d.weightSeg r c (segOf a.off) &&
    decide ((distinct ((mine.filter (fun b => decide (b.off / 32 = a.off / 32))).map (·.off))).length < 4))

/-- Accesses that a bank of a cell performs for one tick's plan accesses (R143, R147): reads of one row merge, each
requester's write of a row is one, and a partial write of a weight-class row is one more. -/
def bankAccesses (d : Dev) (r c : Nat) (l : List Acc) : Nat :=
  let reads := distinct ((l.filter (fun a => a.write.isNone)).map (fun a => rowOf a.off))
  let ws := l.filter (fun a => a.write.isSome)
  let groups := writeGroups ws
  reads.length + groups.length + (groups.filter (partialGroup d r c ws)).length

/-- Surplus accesses per cell: (cell, most surplus accesses of any bank, first bank with surplus) (R145). -/
def surplus (d : Dev) (r : Nat) (accs : List Acc) : List (Nat × Nat × Nat) :=
  (distinct (accs.map (·.cell))).filterMap (fun c =>
    let mine := accs.filter (fun a => decide (a.cell = c))
    let banks := sortBy (fun a b => decide (a ≤ b)) (distinct (mine.map (fun a => bankOf a.off)))
    let surplus := banks.filterMap (fun b =>
      let n := bankAccesses d r c (mine.filter (fun a => decide (bankOf a.off = b)))
      if n > 1 then some (b, n - 1) else none)
    match surplus with
    | [] => none
    | (b, n) :: rest => some (c, rest.foldl (fun m x => Nat.max m x.2) n, b))

/-! ### Trials

A word's effects are tried on a copy of the device. If any check of the word fails, the copy is dropped, so no cell of
the region executes the word. -/

/-- A word being tried: the device as changed so far, the faults found, and the plan accesses. -/
structure Trial where
  d : Dev
  errs : List Ev := []
  accs : List Acc := []

/-- What all slots of a word-tick share. -/
structure Ctx where
  r : Nat
  /-- Plan tick, counted since admission. -/
  tick : Nat
  /-- Plan tick in which the word began. -/
  start : Nat
  first : Bool
  cells : List Nat
  shadow : List Nat
  lead : Option Nat
  pc : Nat
  deriving DecidableEq, Repr

/-- The tick is shadow in a cell (R72). -/
def Ctx.isShadow (x : Ctx) (c : Nat) : Bool := x.shadow.contains c

/-- The tick is shadow in the lead cell, whom the D slot and loop entry follow (R72). With no lead cell, it is. -/
def Ctx.leadShadow (x : Ctx) : Bool :=
  match x.lead with
  | none => true
  | some c => x.isShadow c

def Trial.fail (t : Trial) (e : Ev) : Trial := { t with errs := t.errs ++ [e] }

/-- Apply a check's answer. -/
def Trial.bind (t : Trial) {α : Type} (x : Except Ev α) (f : α → Trial) : Trial :=
  match x with
  | .ok a => f a
  | .error e => t.fail e

/-- Apply a step to each cell of the target. -/
def Trial.forCells (t : Trial) (cells : List Nat) (f : Trial → Nat → Trial) : Trial := cells.foldl f t

/-- Note plan accesses. -/
def Trial.access (t : Trial) (l : List Acc) : Trial := { t with accs := t.accs ++ l }

/-- Reads of a plan requester: their words, from memory as it stood before the tick's writes (R144). -/
def Trial.reads (t : Trial) (r c key : Nat) (offs : List Nat) : List (BitVec 64) × Trial :=
  (offs.map (t.d.spRead r c), t.access (offs.map (fun o => { cell := c, key := key, off := o, write := none })))

/-- Writes of a plan requester, noted and put after all reads of the tick (R144). -/
def Trial.writes (t : Trial) (c key : Nat) (weight : Bool) (ws : List (Nat × BitVec 64)) : Trial :=
  t.access (ws.map (fun w => { cell := c, key := key, off := w.1, write := some w.2, weight := weight }))

/-! ### Generators (R78) -/

/-- A use of generator g: its descriptor, select and position, and the generator advanced by a beat. -/
def Trial.take (t : Trial) (r g : Nat) : Except Ev (GenState × Trial) :=
  match tget none (t.d.reg r).gens g with
  | none => .error E.DESC_INVALID
  | some s =>
    .ok (s, { t with d := t.d.modReg r (fun x =>
      { x with gens := tput none x.gens g (some { s with pos := (s.pos + 8) % s.desc.total }) }) })

/-- Words of a 64-byte entry, lowest first, and an entry of words. -/
def entryWords (e : BitVec 512) : List (BitVec 64) := (List.range 8).map (fun i => e.extractLsb' (64 * i) 64)
def entryOf (ws : List (BitVec 64)) : BitVec 512 :=
  BitVec.ofNat 512 (ws.foldr (fun w acc => w.toNat + 2 ^ 64 * acc) 0)

end Sys2Proof.Machine
end

