-- ==== Sys2Proof/Machine/Landing.lean ====
section
/-! DEFINITION. Landings (R43 to R47, R398, R399): which space a tide's data takes, when a landing is complete, which
replica a first-ready landing takes, and when spaces are consumed or missed. -/

namespace Sys2Proof.Machine

/-- The landing with an id that the plan declares for a physical region (R548). -/
def Dev.landing (d : Dev) (r id : Nat) : Option Landing :=
  d.plan.landings.find? (fun l => decide (l.region = r ∧ l.id = id))

/-- Bytes of a landing buffer's space (Table 13.7): one tide's data. -/
def spaceAt (l : Landing) (replica tide : Nat) : Nat := l.base + (replica * l.depth + tide % l.depth) * l.bytes

/-- The tide whose data region r reads in tide k (R43); none: a tide before tide 0. -/
def dueTide (l : Landing) (k : Nat) : Option Nat := if l.offset ≤ k then some (k - l.offset) else none

/-- The spaces in use of a landing for one tide. -/
def Dev.spacesOf (d : Dev) (l : Landing) (j : Nat) : List LandSpace :=
  d.tide.spaces.filter (fun s => decide (s.region = l.region ∧ s.landing = l.id ∧ s.tide = j))

/-- Units of a plan stream's tide that have arrived, or been accepted, so far. -/
def Dev.landedUnits (d : Dev) (l : Landing) (j : Nat) : Nat :=
  match (d.spacesOf l j).find? (fun s => s.replica = 0) with
  | some s => tget 0 s.counts 0
  | none => 0

/-- The replica that the plan reads: the complete one whose last flit was written first, the lower index on a tie
(R136); none while no replica is complete. -/
def Dev.chosenReplica (d : Dev) (l : Landing) (j : Nat) : Option Nat :=
  let done := (d.spacesOf l j).filter (·.complete)
  (done.foldl (fun (b : Option LandSpace) s =>
    match b with
    | none => some s
    | some x => if s.stamp < x.stamp ∨ (s.stamp = x.stamp ∧ s.replica < x.replica) then some s else some x)
    none).map (·.replica)

/-- The landing that a LAND names is complete in tide k (R44, R45). -/
def Dev.landingComplete (d : Dev) (l : Landing) (k : Nat) : Bool :=
  match dueTide l k with
  | none => false
  | some j => (d.chosenReplica l j).isSome

/-- The data of tide j has been consumed (R398), or was missed (R47). -/
def Dev.spaceClosed (d : Dev) (r id j : Nat) : Bool :=
  d.tide.consumed.contains (r, id, j) || d.tide.missed.contains (r, id, j)

/-- Consume a landing's spaces of tide j, those of every replica together (R398, R399); a first-ready landing's
consumption is counted (R136). -/
def Dev.consume (d : Dev) (l : Landing) (j : Nat) : Dev :=
  if d.spaceClosed l.region l.id j then d
  else
    let d := { d with tide := { d.tide with
      consumed := d.tide.consumed ++ [(l.region, l.id, j)],
      spaces := d.tide.spaces.filter (fun s => !decide (s.region = l.region ∧ s.landing = l.id ∧ s.tide = j)) } }
    if l.firstReady then d.inc C.DEV_TIMING_CHOICE_COUNT_first_ready else d

/-- At end(k), the spaces that tide k was to read are consumed (R398). -/
def Dev.consumeAtEnd (d : Dev) (k : Nat) : Dev :=
  d.plan.landings.foldl (fun d l =>
    match dueTide l k with
    | none => d
    | some j => if j < d.get R.TIDE_LAUNCH_launch_tide then d else d.consume l j) d

/-- A landing missed in tide k (R45, R47). -/
def Dev.missLanding (d : Dev) (r id k : Nat) : Dev :=
  match d.landing r id with
  | none => d
  | some l =>
    match dueTide l k with
    | none => d
    | some j => { d with tide := { d.tide with missed := d.tide.missed ++ [(r, id, j)] } }

/-- The next entry that LREAD copies in tide k (R548), and the device after: the entry holding the last byte consumes
the space. Bytes beyond the landing's are the free value given (notes/assumptions/13.md). -/
def Dev.lreadEntry (d : Dev) (l : Landing) (k n more : Nat) : BitVec 512 × Dev :=
  let j := (dueTide l k).getD 0
  let rep := (d.chosenReplica l j).getD 0
  let a := spaceAt l rep j + 64 * n
  let have' := Nat.min 64 (l.bytes - 64 * n)
  let v := mnum d.mem (landKey (dieOf l.region) a) have' + more * 2 ^ (8 * have')
  let d := if 64 * n + 64 ≥ l.bytes ∧ 64 * n < l.bytes then d.consume l j else d
  (BitVec.ofNat 512 v, d)

/-- Write data of tide j into a replica's space, at the place that the count of arrivals under `key` gives; `total`
arrivals complete the space (02, "A landing is complete when its last flit has been written"). Discarded when the
tide's data was consumed or missed (R47); refused with R46 when the space still holds an earlier tide's. -/
def Dev.landWrite (d : Dev) (l : Landing) (replica j key : Nat) (place : Nat → Nat) (bytes : List Byte) (total : Nat) :
    Dev :=
  if d.spaceClosed l.region l.id j then d.inc C.TIDE_COUNTS_stale_flits
  else if d.tide.spaces.any (fun s => decide (s.region = l.region ∧ s.landing = l.id ∧ s.replica = replica ∧
      s.tide < j ∧ s.tide % l.depth = j % l.depth)) then
    d.raise E.LANDING_OVERRUN (some l.region)
  else
    let old := ((d.spacesOf l j).find? (fun s => s.replica = replica)).getD
      { landing := l.id, region := l.region, replica, tide := j, written := 0, complete := false, stamp := 0,
        counts := [] }
    let rest := d.tide.spaces.filter (fun s => !decide (s = old))
    let n := tget 0 old.counts key
    let w := old.written + 1
    let new := { old with
      written := w, complete := decide (w ≥ total), stamp := if old.complete then old.stamp else cycleOf d.now,
      counts := tput 0 old.counts key (n + 1) }
    { d with
      mem := mwrite d.mem (landKey (dieOf l.region) (spaceAt l replica j + place n)) bytes,
      tide := { d.tide with spaces := rest ++ [new] } }

end Sys2Proof.Machine
end

