-- ==== Sys2Proof/Machine/Numeric.lean ====
section
/-! DEFINITION. Numbers and formats (04): values, the encodings of Table 4.2, the single rounding of R120 with the
outcomes of Table 4.5, and the exact and correctly rounded operations of R123 to R127. -/

namespace Sys2Proof.Machine

/-- A value: NaN, an infinity, or (-1)^neg * man * 2^exp; man = 0 is a signed zero. -/
inductive Val where
  | nan
  | inf (neg : Bool)
  | fin (neg : Bool) (man : Nat) (exp : Int)
  deriving DecidableEq, Repr

/-- How a floating-point format names its special encodings (Table 4.2). -/
inductive Specials where
  | none | nanOnly | ieee
  deriving DecidableEq, Repr

/-- A floating-point format (Table 4.2): exponent and mantissa bits, bias, specials. -/
structure FloatFmt where
  eBits : Nat
  mBits : Nat
  bias : Nat
  specials : Specials
  deriving DecidableEq, Repr

def fE2M1 : FloatFmt := ⟨2, 1, 1, .none⟩
def fE2M3 : FloatFmt := ⟨2, 3, 1, .none⟩
def fE3M2 : FloatFmt := ⟨3, 2, 3, .none⟩
def fE4M3 : FloatFmt := ⟨4, 3, 7, .nanOnly⟩
def fE5M2 : FloatFmt := ⟨5, 2, 15, .ieee⟩
def fFP16 : FloatFmt := ⟨5, 10, 15, .ieee⟩
def fBF16 : FloatFmt := ⟨8, 7, 127, .ieee⟩
def fFP32 : FloatFmt := ⟨8, 23, 127, .ieee⟩

/-- The element formats behind the format codes. -/
inductive Elem where
  | float (f : FloatFmt)
  | int (w : Nat)
  | scale
  deriving DecidableEq, Repr

/-- Groups of Table 4.3, by products per PE per tick. -/
def group46 : Nat := 16
def group8 : Nat := 8
def group16 : Nat := 2

/-- A row of Table 4.1 with what the other tables say of its format. -/
structure FmtRow where
  code : Nat
  elem : Elem
  width : Nat
  mx : Bool
  mac : Bool
  drain : Bool
  ldst : Bool
  cvt : Bool
  /-- Products per PE per tick (Table 4.3), 0 where the format is no MAC operand. -/
  k : Nat
  deriving DecidableEq, Repr

/-- Table 4.1. -/
def fmtTable : List FmtRow := [
  ⟨0x01, .float fE2M1, 4, false, true, true, true, true, group46⟩,
  ⟨0x02, .float fE2M3, 6, false, true, false, true, true, group46⟩,
  ⟨0x03, .float fE3M2, 6, false, true, false, true, true, group46⟩,
  ⟨0x04, .float fE4M3, 8, false, true, true, true, true, group8⟩,
  ⟨0x05, .float fE5M2, 8, false, true, true, true, true, group8⟩,
  ⟨0x06, .int 8, 8, false, true, true, true, true, group8⟩,
  ⟨0x07, .scale, 8, false, false, false, true, false, 0⟩,
  ⟨0x08, .float fE2M1, 4, true, true, false, false, false, group46⟩,
  ⟨0x09, .float fE2M3, 6, true, true, false, false, false, group46⟩,
  ⟨0x0A, .float fE3M2, 6, true, true, false, false, false, group46⟩,
  ⟨0x0B, .float fE4M3, 8, true, true, false, false, false, group8⟩,
  ⟨0x0C, .float fE5M2, 8, true, true, false, false, false, group8⟩,
  ⟨0x0D, .int 8, 8, true, true, false, false, false, group8⟩,
  ⟨0x10, .float fBF16, 16, false, true, true, true, true, group16⟩,
  ⟨0x11, .float fFP16, 16, false, true, true, true, true, group16⟩,
  ⟨0x12, .float fFP32, 32, false, false, true, true, true, 0⟩,
  ⟨0x13, .int 32, 32, false, false, true, true, false, 0⟩]

/-- The row of a format code; none: the code is reserved. -/
def fmtRow (code : Nat) : Option FmtRow := fmtTable.find? (fun r => r.code = code)

/-- Value of a floating-point element (R106). -/
def decodeFloat (f : FloatFmt) (raw : Nat) : Val :=
  let m := bits raw 0 f.mBits
  let e := bits raw f.mBits f.eBits
  let neg := bit raw (f.mBits + f.eBits)
  let top := 2 ^ f.eBits - 1
  if f.specials = .ieee ∧ e = top then (if m = 0 then .inf neg else .nan)
  else if f.specials = .nanOnly ∧ e = top ∧ m = 2 ^ f.mBits - 1 then .nan
  else if e = 0 then .fin neg m (1 - f.bias - f.mBits)
  else .fin neg (2 ^ f.mBits + m) ((e : Int) - f.bias - f.mBits)

/-- Value of a two's-complement integer. -/
def decodeInt (w raw : Nat) : Val :=
  let v := sext w raw
  .fin (decide (v < 0)) v.natAbs 0

/-- Value of an element of any format (R106); an MXINT8 element carries its factor 2^-6 (R107). -/
def decodeElem (r : FmtRow) (raw : Nat) : Val :=
  match r.elem with
  | .float f => decodeFloat f raw
  | .int w =>
    if r.mx then
      match decodeInt w raw with
      | .fin n m e => .fin n m (e - 6)
      | v => v
    else decodeInt w raw
  | .scale => if raw % 256 = 0xFF then .nan else .fin false 1 ((raw % 256 : Nat) - 127)

/-- Number of bits of a number: 0 for 0. -/
def bitLen (n : Nat) : Nat := if n = 0 then 0 else Nat.log2 n + 1

/-- `m * 2^-k` rounded to an integer, ties to even. -/
def shiftRound (m k : Nat) : Nat :=
  let q := m / 2 ^ k
  let r := m % 2 ^ k
  if k = 0 then m
  else if r > 2 ^ (k - 1) ∨ (r = 2 ^ (k - 1) ∧ q % 2 = 1) then q + 1 else q

/-- The NaN outcome of a floating-point format (Table 4.5). -/
def nanCode (f : FloatFmt) : Nat :=
  match f.specials with
  | .none => 0
  | .nanOnly => 0x7F
  | .ieee => if f = fE5M2 then 0x7F else (2 ^ f.eBits - 1) * 2 ^ f.mBits + 2 ^ (f.mBits - 1)

/-- Code of the largest finite magnitude. -/
def maxCode (f : FloatFmt) : Nat :=
  match f.specials with
  | .ieee => (2 ^ f.eBits - 1) * 2 ^ f.mBits - 1
  | .nanOnly => 2 ^ (f.eBits + f.mBits) - 2
  | .none => 2 ^ (f.eBits + f.mBits) - 1

/-- The infinity outcome's magnitude (Table 4.5). -/
def infCode (f : FloatFmt) : Nat :=
  if f.specials = .ieee then (2 ^ f.eBits - 1) * 2 ^ f.mBits else maxCode f

/-- The overflow outcome's magnitude (Table 4.5): E5M2 saturates though it has an infinity. -/
def overflowCode (f : FloatFmt) : Nat :=
  if f.specials = .ieee ∧ f ≠ fE5M2 then infCode f else maxCode f

/-- A code with its sign bit. -/
def signed (f : FloatFmt) (neg : Bool) (c : Nat) : Nat := c + flag neg * 2 ^ (f.eBits + f.mBits)

/-- The code that a finite magnitude `m * 2^e` rounds to, before overflow is judged: exponent and mantissa fields run
on into each other, so a carry out of the mantissa is the next binade (R120). -/
def roundMag (f : FloatFmt) (m : Nat) (e : Int) : Nat :=
  if m = 0 then 0
  else
    let eMin : Int := 1 - f.bias - f.mBits
    -- exponent of the unit in the last place
    let ulp : Int := max eMin (e + (bitLen m : Int) - 1 - f.mBits)
    let sh : Int := ulp - e
    let q := if sh ≤ 0 then m * 2 ^ (-sh).toNat else shiftRound m sh.toNat
    let base := (ulp - eMin).toNat * 2 ^ f.mBits
    base + q

/-- Round a value to a floating-point format (R120, Table 4.5). A zero keeps its sign. -/
def roundFloat (f : FloatFmt) : Val → Nat
  | .nan => nanCode f
  | .inf neg => signed f neg (infCode f)
  | .fin neg m e =>
    let c := roundMag f m e
    if c > maxCode f then signed f neg (overflowCode f) else signed f neg c

/-- Round a value to a two's-complement integer of `w` bits, saturating (R120, Table 4.5). -/
def roundInt (w : Nat) : Val → Nat
  | .nan => 0
  | .inf neg => if neg then 2 ^ (w - 1) else 2 ^ (w - 1) - 1
  | .fin neg m e =>
    let q := if e ≥ 0 then m * 2 ^ e.toNat else shiftRound m (-e).toNat
    if neg then (if q > 2 ^ (w - 1) then 2 ^ (w - 1) else (2 ^ w - q) % 2 ^ w)
    else Nat.min q (2 ^ (w - 1) - 1)

/-- Code of a lane stored through an E8M0 descriptor (R129). -/
def roundScale : Val → Nat
  | .fin false m e =>
    if m = 0 then 0xFF
    else
      let k : Int := e + (bitLen m : Int) - 1 + 127
      if k < 0 then 0 else if k > 254 then 254 else k.toNat
  | _ => 0xFF

/-- Convert a value to the code of any element format (R120, R129). -/
def encodeElem (r : FmtRow) (v : Val) : Nat :=
  match r.elem with
  | .float f => roundFloat f v
  | .int w => roundInt w v
  | .scale => roundScale v

/-- Lane format of a vector operation (Table 3.5). -/
def laneFmt (bf16 : Bool) : FloatFmt := if bf16 then fBF16 else fFP32

/-- Lanes of a vector register, and bits per lane. -/
def laneCount (bf16 : Bool) : Nat := if bf16 then 128 else 64
def laneBits (bf16 : Bool) : Nat := if bf16 then 16 else 32

/-! ### Exact arithmetic -/

/-- A finite value as an integer multiple of 2^e for an exponent not above its own. -/
def scaled (neg : Bool) (m : Nat) (e0 e : Int) : Int :=
  let v : Int := (m * 2 ^ (e0 - e).toNat : Nat)
  if neg then -v else v

/-- The value of an integer multiple of 2^e; zero takes the sign given. -/
def ofScaled (v : Int) (e : Int) (zeroNeg : Bool) : Val :=
  if v = 0 then .fin zeroNeg 0 e else .fin (decide (v < 0)) v.natAbs e

/-- Exact sum (R123): +0 for an exact zero sum, except -0 of two -0 operands. -/
def addVal : Val → Val → Val
  | .nan, _ => .nan
  | _, .nan => .nan
  | .inf a, .inf b => if a = b then .inf a else .nan
  | .inf a, _ => .inf a
  | _, .inf b => .inf b
  | .fin n1 m1 e1, .fin n2 m2 e2 =>
    let e := min e1 e2
    ofScaled (scaled n1 m1 e1 e + scaled n2 m2 e2 e) e (n1 && n2 && decide (m1 = 0) && decide (m2 = 0))

/-- Negation. -/
def negVal : Val → Val
  | .nan => .nan
  | .inf n => .inf (!n)
  | .fin n m e => .fin (!n) m e

/-- Exact product (R123). DESIGN CHOICE (notes/assumptions/100.md): an infinity times an infinity is an infinity with the
product's sign, and an exact zero product has the exclusive-or of the operand signs. -/
def mulVal : Val → Val → Val
  | .nan, _ => .nan
  | _, .nan => .nan
  | .inf a, .inf b => .inf (a != b)
  | .inf a, .fin n m _ => if m = 0 then .nan else .inf (a != n)
  | .fin n m _, .inf b => if m = 0 then .nan else .inf (n != b)
  | .fin n1 m1 e1, .fin n2 m2 e2 => .fin (n1 != n2) (m1 * m2) (e1 + e2)

/-- Exact fused multiply-add (R123): the sign of an exact zero follows the sum rule on the exact product. -/
def fmaVal (a b c : Val) : Val := addVal (mulVal a b) c

/-- Order of two values that are not NaN, with -0 below +0 (R125): true where the first is less. -/
def ltTotal : Val → Val → Bool
  | .inf true, .inf true => false
  | .inf true, _ => true
  | _, .inf true => false
  | .inf false, _ => false
  | _, .inf false => true
  | .fin n1 m1 e1, .fin n2 m2 e2 =>
    let e := min e1 e2
    let a := scaled n1 m1 e1 e
    let b := scaled n2 m2 e2 e
    decide (a < b) || (decide (a = b) && decide (a = 0) && n1 && !n2)
  | _, _ => false

/-- Numeric equality of two values that are not NaN: both zeros are equal. -/
def eqNum : Val → Val → Bool
  | .inf a, .inf b => a == b
  | .fin n1 m1 e1, .fin n2 m2 e2 => let e := min e1 e2; scaled n1 m1 e1 e == scaled n2 m2 e2 e
  | _, _ => false

/-- Numeric order of two values that are not NaN. -/
def ltNum (a b : Val) : Bool := ltTotal a b && !eqNum a b

def isNan : Val → Bool
  | .nan => true
  | _ => false

/-- MAX and MIN (R125). -/
def maxVal (a b : Val) : Val := if isNan a || isNan b then .nan else if ltTotal a b then b else a
def minVal (a b : Val) : Val := if isNan a || isNan b then .nan else if ltTotal b a then b else a

/-- Conditions of CMP (Table 3.6): eq, ne, lt, le, gt, ge; other codes hold nowhere. -/
def cmpVal (cond : Nat) (a b : Val) : Bool :=
  if isNan a || isNan b then decide (cond = 1)
  else match cond with
    | 0 => eqNum a b
    | 1 => !eqNum a b
    | 2 => ltNum a b
    | 3 => ltNum a b || eqNum a b
    | 4 => ltNum b a
    | 5 => ltNum b a || eqNum a b
    | _ => false

/-- Sum of all lanes of REDUCE (R126). -/
def sumVal : List Val → Val
  | [] => .fin true 0 0
  | v :: vs => addVal v (sumVal vs)

/-! ### Special functions (R124) -/

/-- Working precision of the special functions in bits below the point. -/
def fixP : Nat := 320

/-- Bits of the integer square root of `n` below bit `b`, on top of `r`. -/
def isqrtBits (n : Nat) : Nat → Nat → Nat
  | 0, r => r
  | b + 1, r => if (r + 2 ^ b) * (r + 2 ^ b) ≤ n then isqrtBits n b (r + 2 ^ b) else isqrtBits n b r

/-- Integer square root. -/
def isqrt (n : Nat) : Nat := isqrtBits n (bitLen n / 2 + 1) 0

/-- Sum of z^(2k+1)/(2k+1) from k = i, for z in fixed point: term t = z^(2i+1). -/
def atanhTerms (z2 : Nat) : Nat → Nat → Nat → Nat
  | 0, _, _ => 0
  | fuel + 1, i, t => t / (2 * i + 1) + atanhTerms z2 fuel (i + 1) (t * z2 / 2 ^ fixP)

/-- 2 * atanh(z) for z = a / b at most 1/3, in fixed point. -/
def atanh2 (a b : Nat) : Nat :=
  let z := a * 2 ^ fixP / b
  2 * atanhTerms (z * z / 2 ^ fixP) 110 0 z

/-- ln 2 in fixed point. -/
def ln2Fix : Nat := atanh2 1 3

/-- Sum of x^k/k! from k = i, for x in fixed point: term t = x^i/i!. -/
def expTerms (x : Nat) : Nat → Nat → Nat → Nat
  | 0, _, _ => 0
  | fuel + 1, i, t => t + expTerms x fuel (i + 1) (t * x / 2 ^ fixP / (i + 1))

/-- A magnitude with a mark below its last place that it is not exact, so that rounding it rounds the exact value. -/
def sticky (m : Nat) : Nat := 2 * m + 1

/-- 2^x for finite non-zero x: exact for an integer x; otherwise far more places than any lane format keeps, with the
mark of `sticky`. -/
def exp2Fin (neg : Bool) (m : Nat) (e : Int) : Val :=
  let v : Int := if neg then -(m : Int) else m
  if e ≥ 0 then
    let n := v * 2 ^ e.toNat
    if n > 4096 then .fin false 1 4096 else if n < -4096 then .fin false 1 (-4096) else .fin false 1 n
  else
    let den : Int := 2 ^ (-e).toNat
    let n := v.fdiv den
    let r := (v - n * den).toNat
    if n > 4096 then .fin false 1 4096
    else if n < -4096 then .fin false 1 (-4096)
    else if r = 0 then .fin false 1 n
    else
      let f := if (-e).toNat ≤ fixP then r * 2 ^ (fixP - (-e).toNat) else r / 2 ^ ((-e).toNat - fixP)
      let y := expTerms (f * ln2Fix / 2 ^ fixP) 100 0 (2 ^ fixP)
      .fin false (sticky y) (n - fixP - 1)

/-- log2 of a positive finite value: exact for a power of two. -/
def log2Fin (m : Nat) (e : Int) : Val :=
  let n : Int := e + (bitLen m : Int) - 1
  let p := 2 ^ (bitLen m - 1)
  if m = p then
    (if n = 0 then .fin false 0 0 else .fin (decide (n < 0)) n.natAbs 0)
  else
    -- m / p lies in (1, 2): ln of it is 2 atanh((m - p) / (m + p))
    let frac := atanh2 (m - p) (m + p) * 2 ^ fixP / ln2Fix
    let s : Int := n * 2 ^ fixP + frac
    .fin (decide (s < 0)) (sticky s.natAbs) (-(fixP : Int) - 1)

/-- 1/x for finite non-zero x. -/
def rcpFin (neg : Bool) (m : Nat) (e : Int) : Val :=
  let q := 2 ^ (bitLen m + 64) / m
  let exact := 2 ^ (bitLen m + 64) % m = 0
  .fin neg (2 * q + flag (!exact)) (-e - (bitLen m : Int) - 65)

/-- 1/sqrt(x) for positive finite x. -/
def rsqrtFin (m : Nat) (e : Int) : Val :=
  -- an even exponent, then 1/sqrt(m) = sqrt(2^(2s)/m) / 2^s
  let m' := if e % 2 = 0 then m else 2 * m
  let e' := if e % 2 = 0 then e else e - 1
  let s := bitLen m' + 64
  let n := 2 ^ (2 * s) / m'
  let q := isqrt n
  let exact := 2 ^ (2 * s) % m' = 0 && decide (q * q = n)
  .fin false (2 * q + flag (!exact)) (-(e' / 2) - (s : Int) - 1)

/-- EXP2 (Table 4.7). -/
def exp2Val : Val → Val
  | .nan => .nan
  | .inf neg => if neg then .fin false 0 0 else .inf false
  | .fin n m e => if m = 0 then .fin false 1 0 else exp2Fin n m e

/-- LOG2 (Table 4.7). -/
def log2Val : Val → Val
  | .nan => .nan
  | .inf neg => if neg then .nan else .inf false
  | .fin n m e => if m = 0 then .inf true else if n then .nan else log2Fin m e

/-- RCP (Table 4.7). -/
def rcpVal : Val → Val
  | .nan => .nan
  | .inf neg => .fin neg 0 0
  | .fin n m e => if m = 0 then .inf n else rcpFin n m e

/-- RSQRT (Table 4.7). -/
def rsqrtVal : Val → Val
  | .nan => .nan
  | .inf neg => if neg then .nan else .fin false 0 0
  | .fin n m e => if m = 0 then .inf n else if n then .nan else rsqrtFin m e

end Sys2Proof.Machine
end

