-- ==== Sys2Proof/Machine/Arrays.lean ====
section
/-! DEFINITION. The MAC arrays (04): weight tiles, array passes, accumulator lanes, contributions, CLEAR, MAC, WLOAD,
WSWAP, DRAIN and the reading of accumulator rows. -/

namespace Sys2Proof.Machine

/-- A run of 64-bit words as one number, lowest first (R108: a little-endian bit stream). -/
def streamNat (ws : List (BitVec 64)) : Nat := ws.foldr (fun w acc => w.toNat + 2 ^ 64 * acc) 0

/-! ### Weight tiles (R108, R111, R549) -/

/-- Logical positions per PE of a tile: K, or 4K where it is compressed (R111). -/
def tilePerPe (row : FmtRow) (sparse : Bool) : Nat := if sparse then 4 * row.k else row.k

/-- Logical positions of one column record. -/
def recordLen (row : FmtRow) (sparse : Bool) : Nat := 16 * tilePerPe row sparse

/-- Words of one run of at most 256 logical elements (R108). -/
def unitWords (row : FmtRow) (sparse : Bool) (n : Nat) : Nat :=
  flag row.mx + (if sparse then (n / 2 * row.width + n / 4 * 4 + 63) / 64 else (n * row.width + 63) / 64)

/-- Words of one column record. -/
def recordWords (row : FmtRow) (sparse : Bool) : Nat :=
  let n := recordLen row sparse
  (n / 256) * unitWords row sparse 256 + (if n % 256 = 0 then 0 else unitWords row sparse (n % 256))

/-- Words of a whole tile: 16 column records. -/
def tileWords (row : FmtRow) (sparse : Bool) : Nat := 16 * recordWords row sparse

/-- A weight element of a record: its value, and its scale code (none: the format has no scales). -/
structure WElem where
  pos : Nat
  raw : Nat
  scale : Option Nat
  deriving DecidableEq, Repr

/-- The stored elements of the unit that starts at logical position 256 * u of a record. DESIGN CHOICE
(notes/assumptions/99.md): a compressed run of n < 256 logical elements holds its n/2 values, then its n/4 nibbles. -/
def unitElems (row : FmtRow) (sparse : Bool) (recd : Nat) (len u : Nat) : List WElem :=
  let n := Nat.min 256 (len - 256 * u)
  let base := 64 * (u * unitWords row sparse 256)
  let data := base + 64 * flag row.mx
  let scaleOf (p : Nat) := if row.mx then some (bits recd (base + 8 * (p / 32)) 8) else none
  if sparse then
    (List.range (n / 2)).map (fun s =>
      let g := s / 2
      let nib := bits recd (data + n / 2 * row.width + 4 * g) 4
      let p := 4 * g + (if s % 2 = 0 then nib % 4 else nib / 4)
      { pos := 256 * u + p, raw := bits recd (data + row.width * s) row.width, scale := scaleOf p })
  else
    (List.range n).map (fun p =>
      { pos := 256 * u + p, raw := bits recd (data + row.width * p) row.width, scale := scaleOf p })

/-- All stored elements of column j of a tile. -/
def columnElems (row : FmtRow) (t : WTile) (j : Nat) : List WElem :=
  let len := recordLen row t.sparse
  let rw := recordWords row t.sparse
  let recd := streamNat ((t.words.drop (j * rw)).take rw)
  (List.range ((len + 255) / 256)).flatMap (unitElems row t.sparse recd len)

/-- An element's value under its block's scale (R107): every element of a block whose scale is 0xFF is NaN. -/
def scaledVal (row : FmtRow) (raw : Nat) (scale : Option Nat) : Val :=
  match scale with
  | none => decodeElem row raw
  | some s =>
    if s = 0xFF then .nan
    else match decodeElem row raw with
      | .fin n m e => .fin n m (e + (s : Int) - 127)
      | v => v

/-! ### Products and lanes (R112 to R118) -/

/-- The product of an activation and a weight element, none where it contributes nothing (R112). -/
def product (x w : Val) : Option Val :=
  match w, x with
  | .fin _ 0 _, _ => none
  | .fin _ _ _, .fin _ 0 _ => none
  | w, x => some (mulVal x w)

/-- Enter one product into a lane under window base W (R115 to R118). Second part: 1 when it lay wholly below. -/
def enterProduct (win : Int) (l : Lane) : Val → Lane × Nat
  | .nan => ({ l with nan := true }, 0)
  | .inf neg =>
    let l := if neg then { l with ninf := true } else { l with pinf := true }
    ({ l with nan := l.nan || (l.pinf && l.ninf) }, 0)
  | .fin neg m e =>
    let t := if e ≥ win then m * 2 ^ (e - win).toNat else m / 2 ^ (win - e).toNat
    if t = 0 then ({ l with below := Nat.min 65535 (l.below + flag (m ≠ 0)) }, flag (m ≠ 0))
    else
      let l := if t ≥ 2 ^ 159 then { l with ovf := true } else l
      ({ l with e := if neg then l.e - BitVec.ofNat 200 t else l.e + BitVec.ofNat 200 t }, 0)

/-- Enter a list of products into a lane; with the number wholly below. -/
def enterProducts (win : Int) (l : Lane) (ps : List Val) : Lane × Nat :=
  ps.foldl (fun (acc : Lane × Nat) p => let r := enterProduct win acc.1 p; (r.1, acc.2 + r.2)) (l, 0)

/-- The activation elements of a pass (R110, R549). -/
def actVals (row : FmtRow) (c : Contrib) : List Val :=
  let s := streamNat c.act
  let n := (if c.tile.sparse then 32 else 16) * c.passK
  (List.range n).map (fun i =>
    scaledVal row (bits s (row.width * i) row.width) (if row.mx then some (c.scales.getD (i / 32) 0) else none))

/-- The products that a pass contributes to lane j (R110, R111, R549): stored weight at position pos of PE i meets the
activation element at position pos of the elements that feed row i, where there is one. DESIGN CHOICE
(notes/assumptions/97.md): in a sparse pass of 32K elements row i takes elements 2Ki to 2Ki + 2K - 1, since the 16 rows
cannot take K each. -/
def columnProducts (c : Contrib) (wrow : FmtRow) (xs : List Val) (j : Nat) : List Val :=
  let perPe := tilePerPe wrow c.tile.sparse
  let fed := (if c.tile.sparse then 2 else 1) * c.passK
  (columnElems wrow c.tile j).filterMap (fun w =>
    let i := w.pos / perPe
    let k := w.pos % perPe
    if k < fed then product (xs.getD (i * fed + k) (.fin false 0 0)) (scaledVal wrow w.raw w.scale) else none)

/-- Enter a contribution into its set (R115): under the window of the set now, at the row fixed at issue. -/
def enterContrib (s : AccSet) (c : Contrib) : AccSet × Nat :=
  match fmtRow c.actFmt, fmtRow c.tile.fmt with
  | some arow, some wrow =>
    let xs := actVals arow c
    (List.range 16).foldl (fun (acc : AccSet × Nat) j =>
      let key := 16 * c.row + j
      let r := enterProducts acc.1.win (tget {} acc.1.lanes key) (columnProducts c wrow xs j)
      ({ acc.1 with lanes := tput {} acc.1.lanes key r.1 }, acc.2 + r.2)) (s, 0)
  | _, _ => (s, 0)

/-- Enter an array's contributions due at or before a tick, oldest first. -/
def ArraySt.enterDue (a : ArraySt) (tick : Nat) : ArraySt × Nat :=
  let due := a.flying.filter (fun c => decide (c.due ≤ tick))
  let rest := a.flying.filter (fun c => decide (¬ c.due ≤ tick))
  due.foldl (fun (acc : ArraySt × Nat) c =>
    let r := enterContrib (tget {} acc.1.sets c.set) c
    ({ acc.1 with sets := tput {} acc.1.sets c.set r.1 }, acc.2 + r.2)) ({ a with flying := rest }, 0)

/-! ### Lanes read (R117, R120) -/

/-- A lane whose accumulator has wrapped gets ovf when it is read (R117). -/
def Lane.checked (l : Lane) : Lane :=
  if l.e.toInt ≥ 2 ^ 159 ∨ l.e.toInt < -(2 ^ 159 : Int) then { l with ovf := true } else l

/-- The value that a lane converts to (R120, rules 1 to 4). -/
def Lane.value (l : Lane) (win : Int) : Val :=
  if l.nan ∨ (l.pinf ∧ l.ninf) then .nan
  else if l.pinf then .inf false
  else if l.ninf then .inf true
  else if l.ovf then .nan
  else .fin (decide (l.e.toInt < 0)) l.e.toInt.natAbs win

/-- Mark the lanes of a row as read. -/
def AccSet.readRow (s : AccSet) (row : Nat) : AccSet :=
  (List.range 16).foldl (fun s j =>
    { s with lanes := tput {} s.lanes (16 * row + j) (tget {} s.lanes (16 * row + j)).checked }) s

/-- Lanes of a row, after `readRow`. -/
def AccSet.row (s : AccSet) (row : Nat) : List Lane := (List.range 16).map (fun j => tget {} s.lanes (16 * row + j))

/-- What R139 and R140 record of lanes drained or read: counts, and once per region and tide the events. -/
def noteLanes (x : Ctx) (c arr set : Nat) (ls : List Lane) (d : Dev) : Dev :=
  let ovf := (ls.filter (·.ovf)).length
  let spc := (ls.filter (fun l => l.nan || l.pinf || l.ninf)).length
  let d := if ovf = 0 then d else d.inc C.SEQ_ARITH_range_lanes x.r ovf
  let d := if spc = 0 then d else d.inc C.SEQ_ARITH_special_lanes x.r spc
  let d :=
    if ovf = 0 ∨ (d.reg x.r).once.contains (E.ACC_RANGE.code, 0) then d
    else
      let d := d.modReg x.r (fun s => { s with once := s.once ++ [(E.ACC_RANGE.code, 0)] })
      let d := if d.is R.SEQ_ARITH_FIRST_valid x.r then d
        else (((((d.set R.SEQ_ARITH_FIRST_pc x.r x.pc).set R.SEQ_ARITH_FIRST_tick x.r (d.get R.SEQ_STATUS_tick x.r)).set
          R.SEQ_ARITH_FIRST_cell x.r c).set R.SEQ_ARITH_FIRST_array x.r arr).set R.SEQ_ARITH_FIRST_set x.r set).set
          R.SEQ_ARITH_FIRST_valid x.r 1
      d.raise E.ACC_RANGE (some x.r) (some c)
  if spc = 0 ∨ (d.reg x.r).once.contains (E.ACC_SPECIAL.code, 0) then d
  else (d.modReg x.r (fun s => { s with once := s.once ++ [(E.ACC_SPECIAL.code, 0)] })).raise
    E.ACC_SPECIAL (some x.r) (some c)

/-- An array's state in a cell, and a change of it. -/
def Dev.arr (d : Dev) (r c a : Nat) : ArraySt := tget {} (d.cell r c).arrays a
def Dev.modArr (d : Dev) (r c a : Nat) (f : ArraySt → ArraySt) : Dev :=
  d.modCell r c (fun s => { s with arrays := tput {} s.arrays a (f (tget {} s.arrays a)) })
def Dev.modSet (d : Dev) (r c a set : Nat) (f : AccSet → AccSet) : Dev :=
  d.modArr r c a (fun s => { s with sets := tput {} s.sets set (f (tget {} s.sets set)) })

/-! ### Array slots -/

/-- CLEAR (R113): a CLEAR in a shadow tick changes nothing (R114). -/
def clearSlot (x : Ctx) (a : Nat) (acc : BitVec 2) (win : BitVec 8) (t : Trial) : Trial :=
  t.forCells (x.cells.filter (fun c => !x.isShadow c)) (fun t c =>
    { t with d := t.d.modSet x.r c a acc.toNat (fun _ => { win := win.toInt }) })

/-- WSWAP (R75): refused, with the region's fault, fewer than 8 ticks after the last WLOAD began. -/
def wswapSlot (x : Ctx) (a : Nat) (t : Trial) : Trial :=
  t.forCells (x.cells.filter (fun c => !x.isShadow c)) (fun t c =>
    match (t.d.arr x.r c a).lastStart with
    | some s =>
      if x.tick < s + 8 then t.fail E.CW_WEIGHT_RACE
      else { t with d := t.d.modArr x.r c a (fun s => { s with active := s.standby, standby := s.active }) }
    | none => { t with d := t.d.modArr x.r c a (fun s => { s with active := s.standby, standby := s.active }) })

/-- WLOAD (R74, R75, R551): begin loading the standby buffer from the weight descriptor. The class check is R153. -/
def wloadSlot (x : Ctx) (a : Nat) (sparse : Bool) (h : BitVec 16) (t : Trial) : Trial :=
  t.bind (t.d.resolve x.r h x.start) (fun (desc, sel) =>
    let t := match fmtRow desc.format with
      | some row => if row.mac then t else t.fail E.ARITH_FORMAT
      | none => t.fail E.ARITH_FORMAT
    t.forCells (x.cells.filter (fun c => !x.isShadow c)) (fun t c =>
      let race := match (t.d.arr x.r c a).lastStart with
        | some s => decide (x.tick < s + 8)
        | none => false
      let t := if race then t.fail E.CW_WEIGHT_RACE else t
      t.bind (t.d.spAddrs x.r c desc sel 0 desc.total) (fun offs =>
        let rows := distinct (offs.map (fun o => o / 64 * 64))
        let t := if rows.all (fun o => t.d.weightSeg x.r c (segOf o)) then t else t.fail E.SP_CLASS
        { t with d := t.d.modArr x.r c a (fun s =>
            { s with lastStart := some x.tick,
                     load := some { start := x.tick, fmt := desc.format, sparse := sparse, offs := offs,
                                    rows := rows, got := [] } }) })))

/-- Row reads that a WLOAD in progress makes in tick i (R551). -/
def WLoad.rowsAt (w : WLoad) (i : Nat) : List Nat :=
  let n := w.rows.length
  (w.rows.drop (i * n / 8)).take ((i + 1) * n / 8 - i * n / 8)

/-- The tile reads of every WLOAD in progress, in every present cell of the target, in shadow ticks too (R551). -/
def wloadReads (r tick : Nat) (cells : List Nat) (t : Trial) : Trial :=
  t.forCells cells (fun t c =>
    (List.range 8).foldl (fun t a =>
      match (t.d.arr r c a).load with
      | none => t
      | some w =>
        if tick < w.start ∨ tick ≥ w.start + 8 then t
        else
          (w.rowsAt (tick - w.start)).foldl (fun t o =>
            let (ws, t) := t.reads r c (keyWload a) ((List.range 8).map (fun i => o + 8 * i))
            { t with d := t.d.modArr r c a (fun s =>
                { s with load := s.load.map (fun l => { l with got := l.got ++ [(o, entryOf ws)] }) }) }) t) t)

/-- A WLOAD whose eighth tick has passed fills the standby buffer (R74); words that the descriptor is short of are free
values (notes/assumptions/9.md). -/
def finishLoad (r c a tick : Nat) (d : Dev) : Dev :=
  match (d.arr r c a).load with
  | none => d
  | some w =>
    if tick < w.start + 7 then d
    else
      let words := w.offs.map (fun o =>
        match w.got.find? (fun g => g.1 = o / 64 * 64) with
        | some g => g.2.extractLsb' (o % 64 * 8) 64
        | none => 0)
      let need := match fmtRow w.fmt with
        | some row => tileWords row w.sparse
        | none => 0
      let extra := (List.range (need - words.length)).map (fun i =>
        BitVec.ofNat 64 (d.planFree r (some c) w.start (10000 + 4096 * a + i)))
      d.modArr r c a (fun s =>
        { s with load := none, standby := { fmt := w.fmt, sparse := w.sparse, words := words ++ extra } })

/-- The pass K of an array against an activation format's group (R549); an array never swapped holds zero weights and
runs at the activation's own (notes/assumptions/10.md). -/
def ArraySt.passK (s : ArraySt) (kAct : Nat) : Nat :=
  match fmtRow s.active.fmt with
  | some row => Nat.min kAct row.k
  | none => kAct

/-- Words of a vector's elements (R549, Table 5.4), its scale word apart. -/
def vectorWords (row : FmtRow) (k : Nat) (sparse : Bool) : Nat :=
  ((if sparse then 32 else 16) * k * row.width + 63) / 64

/-- One MAC's effect on its array (R114, R115): the pointers, the pass count and the contribution on its way. -/
def issueMac (x : Ctx) (c set : Nat) (issued : Nat → WTile → Contrib) (s : ArraySt) : ArraySt :=
  let u := tget {} s.sets set
  let row := u.macRow
  let u := { u with macRow := (u.macRow + 1) % 16 }
  if x.isShadow c then { s with sets := tput {} s.sets set u }
  else
    let passes := u.passes + 1
    let lanes := if passes = 2 ^ 31 then
        (List.range 256).foldl (fun m i => tput {} m i { (tget {} m i) with ovf := true }) u.lanes
      else u.lanes
    { s with sets := tput {} s.sets set { u with passes := passes % 2 ^ 32, lanes := lanes },
             flying := s.flying ++ [issued row s.active] }

/-- Issue the MACs of one xport in one cell (R149, R150, R548, R549): arrays as (array, set), lowest first. A vector's
formats and its completeness are each judged (R103). DESIGN CHOICE (notes/assumptions/98.md): the sparse setting compared
is that of the WLOAD that filled the active buffer. -/
def macCell (x : Ctx) (port : Nat) (arrs : List (Nat × Nat)) (t : Trial) (c : Nat) : Trial :=
  match arrs with
  | [] => t
  | (m, _) :: _ =>
    let q := tget [] (t.d.cell x.r c).aq (2 * m + port)
    match q with
    | [] => t.fail E.SP_ACT_UNDERFLOW
    | w0 :: _ =>
      match fmtRow w0.fmt with
      | none => t.fail E.ARITH_FORMAT
      | some row =>
        if ¬ row.mac then t.fail E.ARITH_FORMAT
        else
          let ks := arrs.map (fun a => (t.d.arr x.r c a.1).passK row.k)
          let sp := arrs.map (fun a => (t.d.arr x.r c a.1).active.sparse)
          let k := ks.headD 0
          let sparse := sp.headD false
          let n := flag row.mx + vectorWords row k sparse
          let vec := q.take n
          let mixed := !(ks.all (· = k) && sp.all (· = sparse) && vec.all (fun w => w.fmt = w0.fmt))
          let short := decide (vec.length < n) || !vec.all (fun w => w.ready ≤ x.tick)
          let t := if mixed then t.fail E.ARITH_FORMAT else t
          let t := if short then t.fail E.SP_ACT_UNDERFLOW else t
          if mixed || short then t
          else
            let t := { t with d := t.d.modCell x.r c (fun s => { s with aq := tput [] s.aq (2 * m + port) (q.drop n) }) }
            let elems := (vec.drop (flag row.mx)).map (·.data)
            let blocks := (if sparse then 32 else 16) * k / 32
            -- one scale word names eight blocks; the scales of further blocks are free (notes/assumptions/11.md)
            let more := t.d.planFree x.r (some c) x.tick (140 + port)
            let scales := if row.mx then
                (List.range 8).map (fun b => bits w0.data.toNat (8 * b) 8) ++
                  (if blocks > 8 then (List.range 8).map (fun b => bits more (8 * b) 8) else [])
              else []
            let issued := fun (set row : Nat) (tile : WTile) =>
              ({ due := x.tick + 24, set, row, passK := k, actFmt := w0.fmt, scales, act := elems, tile } : Contrib)
            arrs.foldl (fun t a => { t with d := t.d.modArr x.r c a.1 (issueMac x c a.2 (issued a.2)) }) t

/-- All MACs of a word (R149): the arrays of each xport take one vector together. -/
def macSlots (x : Ctx) (macs : List (Nat × Nat × Nat)) (t : Trial) : Trial :=
  [0, 1].foldl (fun t p =>
    let arrs := (macs.filter (fun m => decide (m.2.1 = p))).map (fun m => (m.1, m.2.2))
    if arrs = [] then t else t.forCells x.cells (macCell x p arrs)) t

/-- Rows per DRAIN tick (Table 4.4). -/
def drainRows (width : Nat) : Nat := if width = 32 then 1 else if width = 16 then 2 else if width = 8 then 4 else 8

/-- The 64 bytes that a DRAIN writes in one tick, from its rows of lanes (R119). -/
def drainWords (row : FmtRow) (win : Int) (ls : List Lane) : List (BitVec 64) :=
  let n := (ls.map (fun l => encodeElem row (l.value win))).foldr (fun v acc => v + 2 ^ row.width * acc) 0
  (List.range 8).map (fun i => BitVec.ofNat 64 (n / 2 ^ (64 * i)))

/-- The format that a handle's descriptor names, for a use that Table 4.1 must mark (R138): the trial, failed where the
handle or the format is bad, and the format. -/
def Trial.format (t : Trial) (x : Ctx) (h : BitVec 16) (use : FmtRow → Bool) : Option FmtRow × Trial :=
  match t.d.resolve x.r h x.start with
  | .error e => (none, t.fail e)
  | .ok (desc, _) =>
    match (fmtRow desc.format).filter use with
    | some row => (some row, t)
    | none => (none, t.fail E.ARITH_FORMAT)

/-- DRAIN in one cell, of the beat at generator state `g`; in a shadow tick the row pointer advances (R114). -/
def drainCell (x : Ctx) (a acc : Nat) (row : FmtRow) (g : GenState) (t : Trial) (c : Nat) : Trial :=
  let rows := drainRows row.width
  let set := tget {} (t.d.arr x.r c a).sets acc
  let advanced := fun (s : AccSet) => { s with drainRow := (s.drainRow + rows) % 16 }
  if x.isShadow c then { t with d := t.d.modSet x.r c a acc advanced }
  else
    let idx := (List.range rows).map (fun i => (set.drainRow + i) % 16)
    let set' := idx.foldl AccSet.readRow set
    let ls := idx.flatMap set'.row
    t.bind (t.d.spAddrs x.r c g.desc g.select g.pos 8) (fun offs =>
      let t := t.writes c (keyDrain a) g.desc.weight (offs.zip (drainWords row set.win ls))
      let d := t.d.modSet x.r c a acc (fun _ => advanced set')
      { t with d := noteLanes x c a acc ls d })

/-- DRAIN (R119): rounds rows at the drain row pointer and writes them through a beat of G[gen]. The format and the
generator are each judged (R103). -/
def drainSlot (x : Ctx) (a : Nat) (acc gen : BitVec 2) (h : BitVec 16) (t : Trial) : Trial :=
  let (row, t) := t.format x h (·.drain)
  match t.take x.r gen.toNat, row with
  | .error e, _ => t.fail e
  | .ok (_, t), none => t
  | .ok (g, t), some row => t.forCells x.cells (drainCell x a acc.toNat row g)

/-- RDACC (R121): one row of set acc from arrays 2g and 2g + 1 as 64 FP32 lanes, status words above; both drain row
pointers advance. The result's bits. -/
def rdaccCell (x : Ctx) (g acc c : Nat) (d : Dev) : BitVec 2048 × Dev :=
  let step := fun (res : (List Nat × List Nat) × Dev) (a : Nat) =>
    let set := tget {} (res.2.arr x.r c a).sets acc
    let set' := set.readRow set.drainRow
    let ls := set'.row set.drainRow
    let d := res.2.modSet x.r c a acc (fun _ => { set' with drainRow := (set.drainRow + 1) % 16 })
    let d := noteLanes x c a acc ls d
    let vals := ls.map (fun l => roundFloat fFP32 (l.value set.win))
    let stat := ls.map (fun l => flag l.ovf + 2 * flag l.nan + 4 * flag l.pinf + 8 * flag l.ninf + l.below * 2 ^ 16)
    ((res.1.1 ++ vals, res.1.2 ++ stat), d)
  let r := [2 * g, 2 * g + 1].foldl step (([], []), d)
  (BitVec.ofNat 2048 ((r.1.1 ++ r.1.2).foldr (fun v acc => v + 2 ^ 32 * acc) 0), r.2)

end Sys2Proof.Machine
end

