-- ==== Sys2Proof/Machine/Vector.lean ====
section
/-! DEFINITION. The vector unit (04, R122 to R133): the operations lane by lane, TOPK, SAMPLE, REDUCE, LD and ST, the
special-function unit's occupation, and results on their way to their registers. -/

namespace Sys2Proof.Machine

/-! ### Lanes -/

/-- Lanes of a register as raw codes, lane 0 first. -/
def regLanes (bf16 : Bool) (v : BitVec 2048) : List Nat :=
  (List.range (laneCount bf16)).map (fun i => bits v.toNat (laneBits bf16 * i) (laneBits bf16))

/-- A register of lanes, lane 0 first; missing lanes are +0. -/
def regOfLanes (bf16 : Bool) (ls : List Nat) : BitVec 2048 :=
  BitVec.ofNat 2048 (ls.foldr (fun v acc => v % 2 ^ laneBits bf16 + 2 ^ laneBits bf16 * acc) 0)

/-- The value of a lane. -/
def laneVal (bf16 : Bool) (raw : Nat) : Val := decodeFloat (laneFmt bf16) raw

/-- A value rounded once to the lane format. -/
def toLane (bf16 : Bool) (v : Val) : Nat := roundFloat (laneFmt bf16) v

/-- A natural number as a lane. -/
def natLane (bf16 : Bool) (n : Nat) : Nat := toLane bf16 (.fin false n 0)

/-- The value that a target format represents nearest to a lane (R127). -/
def cvtVal (row : FmtRow) (v : Val) : Val := decodeElem row (encodeElem row v)

/-- The result lane of an operation that works lane by lane (R123 to R125, R127). -/
def laneOp (op : VecOp) (bf16 : Bool) (mod : Nat) (a b c : Nat) : Nat :=
  let x := laneVal bf16 a
  let y := laneVal bf16 b
  let z := laneVal bf16 c
  let r : Val := match op with
    | .add => addVal x y
    | .sub => addVal x (negVal y)
    | .mul => mulVal x y
    | .fma => fmaVal x y z
    | .max => maxVal x y
    | .min => minVal x y
    | .exp2 => exp2Val x
    | .log2 => log2Val x
    | .rcp => rcpVal x
    | .rsqrt => rsqrtVal x
    | .cmp => if cmpVal mod x y then .fin false 1 0 else .fin false 0 0
    | .cvt => match fmtRow mod with
      | some row => cvtVal row x
      | none => x
    | .ld | .st | .rdacc | .topk | .sample | .reduce => x
  toLane bf16 r

/-- REDUCE (R126): the result in lane 0, +0 in every other lane. -/
def reduceLanes (bf16 : Bool) (mod : Nat) (ls : List Nat) : List Nat :=
  let vs := ls.map (laneVal bf16)
  let r := match mod with
    | 0 => sumVal vs
    | 1 => match vs with
      | [] => .nan
      | v :: vs => vs.foldl maxVal v
    | _ => match vs with
      | [] => .nan
      | v :: vs => vs.foldl minVal v
  [toLane bf16 r]

/-- A candidate of TOPK: its lane, value code and label code. -/
structure Cand where
  lane : Nat
  value : Nat
  label : Nat
  deriving DecidableEq, Repr

/-- A value ranks no lower than another in TOPK, NaN lowest (R130). -/
def rankGe (a b : Val) : Bool :=
  match a, b with
  | _, .nan => true
  | .nan, _ => false
  | a, b => !ltTotal a b

/-- Candidate a ranks before candidate b (R130): larger value, then lower label, then lower lane. -/
def Cand.before (a b : Cand) : Bool :=
  let x := laneVal false a.value
  let y := laneVal false b.value
  let la := laneVal false a.label
  let lb := laneVal false b.label
  if ¬ rankGe y x then true
  else if ¬ rankGe x y then false
  else if ¬ rankGe la lb then true
  else if ¬ rankGe lb la then false
  else decide (a.lane ≤ b.lane)

/-- TOPK (R130). -/
def topkLanes (k : Nat) (va vb : List Nat) : List Nat :=
  let cands := (List.range 32).map (fun i => ({ lane := i, value := va.getD i 0, label := vb.getD i 0 } : Cand))
  let best := (sortBy Cand.before cands).take k
  let negInf := toLane false (.inf true)
  let minus1 := toLane false (.fin true 1 0)
  best.map (·.value) ++ List.replicate (32 - k) negInf ++ best.map (·.label) ++ List.replicate (32 - k) minus1

/-! ### Sampling (R131, R132) -/

/-- The integer from 1 to 32 that lane 0 of vc holds, none where it holds none. -/
def sampleN (raw : Nat) : Option Nat :=
  match laneVal false raw with
  | .fin false m e =>
    let n := if e ≥ 0 then (if e > 8 then 33 else m * 2 ^ e.toNat) else
      if m % 2 ^ (-e).toNat = 0 then m / 2 ^ (-e).toNat else 0
    if 1 ≤ n ∧ n ≤ 32 then some n else none
  | _ => none

/-- A weight that SAMPLE accepts, as a multiple of 2^-149; none: NaN, infinite or negative. -/
def sampleWeight (raw : Nat) : Option Nat :=
  match laneVal false raw with
  | .fin neg m e => if neg && decide (m ≠ 0) then none else some (m * 2 ^ (e + 149).toNat)
  | _ => none

/-- The smallest i whose running sum exceeds the threshold: S_i * 2^64 > u * total. -/
def pickIndex (u total : Nat) : List Nat → Nat → Nat → Nat
  | [], i, _ => i
  | w :: ws, i, s => if (s + w) * 2 ^ 64 > u * total then i else pickIndex u total ws (i + 1) (s + w)

/-- SAMPLE's selected index and status (R131, R132). -/
def sampleIndex (u : Nat) (n : Option Nat) (va : List Nat) : Nat × Nat :=
  match n with
  | none => (0, 1)
  | some n =>
    let ws := (va.take n).map sampleWeight
    if ws.any Option.isNone then (0, 1)
    else
      let ws := ws.map (fun w => w.getD 0)
      let total := ws.foldl (· + ·) 0
      if total = 0 then (0, 1) else (pickIndex u total ws 0 0, 0)

/-- The message of a 48-byte record: seed, slot, token index (R131). -/
def sampleMessage (bs : List Byte) : List Byte := bs.take 34 ++ (bs.drop 40).take 8

/-- u: the first 8 bytes of SHAKE256 of the message, little-endian (R131). -/
def sampleU (words : List (BitVec 64)) : Nat :=
  leNat ((shake256 (sampleMessage (words.flatMap (fun w => leBytes 8 w.toNat))) 8).take 8)

/-- SAMPLE's result lanes. -/
def sampleLanes (words : List (BitVec 64)) (va vb vc : List Nat) : List Nat :=
  let r := sampleIndex (sampleU words) (sampleN (vc.getD 0 0)) va
  [vb.getD r.1 0, natLane false r.1, natLane false r.2]

/-! ### LD and ST (R128, R129) -/

/-- Elements of one 64-byte beat. -/
def beatElems (row : FmtRow) : Nat := if row.width = 6 then 64 else 512 / row.width

/-- The converted elements of a beat that LD shifts in, in beat order. -/
def ldLanes (row : FmtRow) (bf16 : Bool) (beat : BitVec 512) : List Nat :=
  (List.range (Nat.min (laneCount bf16) (beatElems row))).map (fun i =>
    toLane bf16 (decodeElem row (bits beat.toNat (row.width * i) row.width)))

/-- The words of a beat that ST writes: their number and bits. Elements beyond the register's lanes are the free
value given (notes/assumptions/12.md). -/
def stWords (row : FmtRow) (bf16 : Bool) (va : BitVec 2048) (more : Nat) : List (BitVec 64) :=
  let n := beatElems row
  let codes := (regLanes bf16 va).take n |>.map (fun l => encodeElem row (laneVal bf16 l))
  let have' := codes.length
  let num := codes.foldr (fun v acc => v + 2 ^ row.width * acc) 0 +
    (more % 2 ^ (row.width * (n - have'))) * 2 ^ (row.width * have')
  (List.range (if row.width = 6 then 6 else 8)).map (fun i => BitVec.ofNat 64 (num / 2 ^ (64 * i)))

/-- va after ST: rotated toward lane 0 by n lanes. -/
def stRotate (row : FmtRow) (bf16 : Bool) (va : BitVec 2048) : BitVec 2048 :=
  let n := beatElems row % laneCount bf16 * laneBits bf16
  (va >>> n) ||| (va <<< (2048 - n))

/-! ### Issue -/

/-- Latency L of Table 4.8. -/
def opLatency (op : VecOp) (bf16 : Bool) : Nat :=
  match op with
  | .add | .sub | .mul | .max | .min | .cmp | .cvt => 3
  | .fma | .rdacc => 4
  | .ld | .reduce => 6
  | .topk => 8
  | .exp2 | .log2 | .rcp | .rsqrt => if bf16 then 14 else 10
  | .sample => 20
  | .st => 4

/-- A special-function operation (R77). -/
def opSpecial : VecOp → Bool
  | .exp2 | .log2 | .rcp | .rsqrt => true
  | _ => false

/-- Ports that issue an operation (R122): port 0, port 1. -/
def opOnPort (op : VecOp) (p : Nat) : Bool :=
  opSpecial op || (match op with
    | .ld | .st | .rdacc => p = 1
    | _ => p = 0)

/-- Checks of a vector slot that R138 makes in every tick that issues it. -/
def vecFormatOk (p : Nat) (s : VecSlot) : Bool :=
  opOnPort s.op p &&
  (match s.op with
    | .topk | .sample | .rdacc => !s.bf16
    | .cvt => match fmtRow s.mod.toNat with
      | some row => row.cvt && !(decide (row.code = 0x12) && s.bf16)
      | none => false
    | _ => true)

/-- A register of a cell. -/
def CellSt.vreg (s : CellSt) (i : Nat) : BitVec 2048 := tget 0 s.vregs i

/-- Put a result on its way. -/
def Trial.fly (t : Trial) (x : Ctx) (c : Nat) (f : VFly) : Trial :=
  { t with d := t.d.modCell x.r c (fun s => { s with vfly := s.vfly ++ [f] }) }

/-- SAMPLE's record: six words from the origin of the descriptor in the executing cell (R131). -/
def sampleRecord (x : Ctx) (desc : Desc) (sel c : Nat) (d : Dev) : Except Ev (List Nat) :=
  match d.spAddr x.r c desc sel 0 with
  | .error e => .error e
  | .ok _ =>
    let o := (d.originOff x.r c desc sel).toNat
    if desc.bound < 48 ∨ o + 48 > 2 ^ 40 ∨ ¬ d.namesCell x.r c desc (o + 47) then .error E.DESC_BOUNDS
    else if bits o 0 22 + 48 > spSize x.r then .error E.SP_RANGE
    else .ok ((List.range 6).map (fun i => bits o 0 22 / 8 * 8 + 8 * i))

/-- LD in a cell (R128): the beat last gathered for the vector unit on its port. Its format is judged in a shadow tick
too, where there is such a beat (R138). -/
def ldCell (x : Ctx) (p : Nat) (s : VecSlot) (t : Trial) (c : Nat) : Trial :=
  match tget none (t.d.cell x.r c).beat (bits s.arg.toNat 0 1) with
  | none => if x.isShadow c then t else t.fail E.DESC_INVALID
  | some b =>
    match fmtRow b.fmt with
    | none => t.fail E.ARITH_FORMAT
    | some row =>
      if ¬ row.ldst then t.fail E.ARITH_FORMAT
      else if x.isShadow c then t
      else
        let ls := ldLanes row s.bf16 b.data
        t.fly x c { due := Nat.max (b.tick + 5) x.tick, issue := x.tick, port := p, vd := s.vd.toNat,
                    shift := ls.length * laneBits s.bf16, data := regOfLanes s.bf16 ls }

/-- ST in one cell, of the beat at generator state `g`: the write takes place 4 ticks after issue (R133), and its class
is judged as that of a plan write (R153). -/
def stCell (x : Ctx) (s : VecSlot) (row : FmtRow) (g : GenState) (t : Trial) (c : Nat) : Trial :=
  let va := (t.d.cell x.r c).vreg s.va.toNat
  let ws := stWords row s.bf16 va (t.d.planFree x.r (some c) x.tick 120)
  t.bind (t.d.spAddrs x.r c g.desc g.select g.pos ws.length) (fun offs =>
    let t := if offs.all (fun o => t.d.weightSeg x.r c (segOf o) == g.desc.weight) then t else t.fail E.SP_CLASS
    { t with d := t.d.modCell x.r c (fun u =>
      { u with stores := u.stores ++ [{ due := x.tick + 4, key := keyStore, words := offs.zip ws }],
               vregs := tput 0 u.vregs s.va.toNat (stRotate row s.bf16 va) }) })

/-- ST in the target's cells (R129): one beat of G[mod[17:16]] for the whole slot. The format and the generator are each
judged (R103). -/
def stSlot (x : Ctx) (s : VecSlot) (t : Trial) : Trial :=
  let (row, t) := t.format x s.arg (·.ldst)
  match t.take x.r (bits s.mod.toNat 0 2), row with
  | .error e, _ => t.fail e
  | .ok (_, t), none => t
  | .ok (g, t), some row => t.forCells (x.cells.filter (fun c => !x.isShadow c)) (stCell x s row g)

/-- SAMPLE (R131, R132) in the active cells. -/
def sampleSlot (x : Ctx) (p : Nat) (s : VecSlot) (t : Trial) : Trial :=
  t.bind (t.d.resolve x.r s.arg x.start) (fun (desc, sel) =>
    t.forCells (x.cells.filter (fun c => !x.isShadow c)) (fun t c =>
      t.bind (sampleRecord x desc sel c t.d) (fun offs =>
        let (ws, t) := t.reads x.r c keySample offs
        let u := t.d.cell x.r c
        let lanes := sampleLanes ws (regLanes false (u.vreg s.va.toNat)) (regLanes false (u.vreg s.vb.toNat))
          (regLanes false (u.vreg s.vc.toNat))
        t.fly x c { due := x.tick + 19, issue := x.tick, port := p, vd := s.vd.toNat, shift := 0,
                    data := regOfLanes false lanes })))

/-- RDACC (R121): in a shadow tick the drain row pointers advance and nothing else changes (Table 4.9). -/
def rdaccSlot (x : Ctx) (p : Nat) (s : VecSlot) (t : Trial) : Trial :=
  let g := bits s.mod.toNat 2 2
  let acc := bits s.mod.toNat 0 2
  t.forCells x.cells (fun t c =>
    if x.isShadow c then
      { t with d := [2 * g, 2 * g + 1].foldl (fun d a =>
          d.modSet x.r c a acc (fun u => { u with drainRow := (u.drainRow + 1) % 16 })) t.d }
    else
      let (v, d) := rdaccCell x g acc c t.d
      { t with d := d }.fly x c
        { due := x.tick + 3, issue := x.tick, port := p, vd := s.vd.toNat, shift := 0, data := v })

/-- The special-function unit taken for an operation (R77), in an active cell. DESIGN CHOICE (notes/assumptions/95.md): in
a cell where the tick is shadow the unit is neither tested nor taken. -/
def takeSfu (x : Ctx) (bf16 : Bool) (t : Trial) (c : Nat) : Trial :=
  if x.tick < (t.d.cell x.r c).sfuFree then t.fail E.CW_UNIT_BUSY
  else { t with d := t.d.modCell x.r c (fun s => { s with sfuFree := x.tick + if bf16 then 8 else 4 }) }

/-- An operation that works on registers alone, in an active cell. -/
def aluCell (x : Ctx) (p : Nat) (s : VecSlot) (t : Trial) (c : Nat) : Trial :=
  let t := if opSpecial s.op then takeSfu x s.bf16 t c else t
  let u := t.d.cell x.r c
  let a := regLanes s.bf16 (u.vreg s.va.toNat)
  let b := regLanes s.bf16 (u.vreg s.vb.toNat)
  let cc := regLanes s.bf16 (u.vreg s.vc.toNat)
  let lanes := match s.op with
    | .topk => topkLanes (s.mod.toNat + 1) a b
    | .reduce => reduceLanes s.bf16 s.mod.toNat a
    | op => (List.range (laneCount s.bf16)).map (fun i =>
        laneOp op s.bf16 s.mod.toNat (a.getD i 0) (b.getD i 0) (cc.getD i 0))
  t.fly x c { due := x.tick + opLatency s.op s.bf16 - 1, issue := x.tick, port := p, vd := s.vd.toNat, shift := 0,
              data := regOfLanes s.bf16 lanes }

/-- A vector slot other than RDACC (which reads before the word's CLEARs). What R138 asks of the slot and what the
operation itself meets are each judged (R103). -/
def vecSlot (x : Ctx) (p : Nat) (s : VecSlot) (t : Trial) : Trial :=
  let t := if vecFormatOk p s then t else t.fail E.ARITH_FORMAT
  match s.op with
  | .rdacc => t
  | .st => stSlot x s t
  | .sample => sampleSlot x p s t
  | .ld => t.forCells x.cells (ldCell x p s)
  | _ => t.forCells (x.cells.filter (fun c => !x.isShadow c)) (aluCell x p s)

/-! ### Results (R133, Table 4.9) -/

/-- One result precedes another into its register: earlier due, earlier issue, then V1 before V0. -/
def VFly.before (a b : VFly) : Bool :=
  if a.due ≠ b.due then decide (a.due < b.due)
  else if a.issue ≠ b.issue then decide (a.issue < b.issue)
  else decide (b.port ≤ a.port)

/-- A register with a result written. -/
def VFly.into (f : VFly) (v : BitVec 2048) : BitVec 2048 :=
  if f.shift = 0 then f.data else (v >>> f.shift) ||| (f.data <<< (2048 - f.shift))

/-- Of results in the order of `VFly.before`, those that stand: of several that reach one register in one tick the last
(Table 4.9). -/
def standing : List VFly → List VFly
  | [] => []
  | f :: l => if l.any (fun g => decide (g.due = f.due ∧ g.vd = f.vd)) then standing l else f :: standing l

/-- Write a cell's results due at or before a tick. -/
def CellSt.landResults (s : CellSt) (tick : Nat) : CellSt :=
  let due := standing (sortBy VFly.before (s.vfly.filter (fun f => decide (f.due ≤ tick))))
  let s := { s with vfly := s.vfly.filter (fun f => decide (¬ f.due ≤ tick)) }
  due.foldl (fun s f => { s with vregs := tput 0 s.vregs f.vd (f.into (s.vreg f.vd)) }) s

end Sys2Proof.Machine
end

