-- ==== Sys2Proof/Machine/Units.lean ====
section
/-! DEFINITION. The slots of the address generators, crossbar ports, transfer ports, descriptor table and predicate
registers (03), the crossing channels (R38 to R41), and the forming of plan flits (R392). -/

namespace Sys2Proof.Machine

/-! ### Address generators (R78) -/

/-- A generator slot: START latches, STEP and SETPOS need a descriptor. DESIGN CHOICE (notes/assumptions/92.md): a STEP
or SETPOS past the descriptor's end wraps to the remainder, not to zero. -/
def genSlot (x : Ctx) (g : Nat) (s : GenSlot) (t : Trial) : Trial :=
  let put := fun (t : Trial) (v : GenState) =>
    { t with d := t.d.modReg x.r (fun u => { u with gens := tput none u.gens g (some v) }) }
  match s with
  | .start h => t.bind (t.d.resolve x.r h x.start) (fun (desc, sel) => put t { desc := desc, select := sel, pos := 0 })
  | .step n =>
    match tget none (t.d.reg x.r).gens g with
    | none => t.fail E.DESC_INVALID
    | some v => put t { v with pos := (v.pos + n.toNat) % v.desc.total }
  | .setpos n =>
    match tget none (t.d.reg x.r).gens g with
    | none => t.fail E.DESC_INVALID
    | some v => put t { v with pos := n.toNat % v.desc.total }

/-! ### Crossbar ports (R79, R547, R148 to R150) -/

/-- Lanes that a mask selects, ascending. -/
def maskLanes (mask : BitVec 8) : List Nat := (List.range 8).filter (fun i => mask.getLsbD i)

/-- Where gathered words of a shadow tick, or of a beat with a bad address, would go: zeros of the same number. -/
def noWords (lanes : List Nat) : List (BitVec 64) := lanes.map (fun _ => 0)

/-- Addresses of the selected lanes of a beat. -/
def beatAddrs (d : Dev) (r c : Nat) (g : GenState) (lanes : List Nat) : Except Ev (List Nat) :=
  lanes.foldr (fun i acc =>
    match d.spAddr r c g.desc g.select (g.pos + i), acc with
    | .ok a, .ok as => .ok (a :: as)
    | .error e, _ => .error e
    | _, .error e => .error e) (.ok [])

/-- A gathered beat: word i from address i where the mask selects it, else zero. -/
def beatWords (lanes : List Nat) (ws : List (BitVec 64)) : List (BitVec 64) :=
  (List.range 8).map (fun i => match (lanes.zip ws).find? (fun p => p.1 = i) with
    | some p => p.2
    | none => 0)

/-- Put gathered words into the unit that the slot names. -/
def gatherInto (x : Ctx) (p : Nat) (unit fmt : Nat) (lanes : List Nat) (ws : List (BitVec 64)) (t : Trial) (c : Nat) :
    Trial :=
  let s := t.d.cell x.r c
  if unit ≤ 7 then
    let key := 2 * unit + p
    let q := tget [] s.aq key ++ ws.map (fun w => { data := w, fmt := fmt, ready := x.tick + 6 : AqWord })
    if q.length > 64 then t.fail E.SP_ACT_OVERFLOW
    else { t with d := t.d.modCell x.r c (fun s => { s with aq := tput [] s.aq key q }) }
  else if unit = 8 then
    if x.isShadow c then t
    else
      let beat : VBeat := { data := entryOf (beatWords lanes ws), fmt := fmt, tick := x.tick }
      { t with d := t.d.modCell x.r c (fun s => { s with beat := tput none s.beat p (some beat) }) }
  else
    let q := tget [] s.tbuf (unit - 9) ++ [{ data := entryOf (beatWords lanes ws), ready := x.tick + 6 : TEntry }]
    if q.length > 8 then t.fail E.SP_ACT_OVERFLOW
    else { t with d := t.d.modCell x.r c (fun s => { s with tbuf := tput [] s.tbuf (unit - 9) q }) }

/-- GATHER: one beat of the generator for the region, read in every active cell; a shadow GATHER reads nothing and
appends zeros (R149, R547). -/
def gatherSlot (x : Ctx) (p : Nat) (s : XbarSlot) (t : Trial) : Trial :=
  match t.take x.r s.gen.toNat with
  | .error e => t.fail e
  | .ok (g, t) =>
    let lanes := maskLanes s.mask
    t.forCells x.cells (fun t c =>
      if x.isShadow c then gatherInto x p s.unit.toNat g.desc.format lanes (noWords lanes) t c
      else
        match beatAddrs t.d x.r c g lanes with
        | .error e => gatherInto x p s.unit.toNat g.desc.format lanes (noWords lanes) (t.fail e) c
        | .ok offs =>
          let (ws, t) := t.reads x.r c (keyGather p) offs
          gatherInto x p s.unit.toNat g.desc.format lanes ws t c)

/-- Remove the oldest entry of a transfer-port buffer (R547). -/
def popEntry (x : Ctx) (port c : Nat) (t : Trial) : BitVec 512 × Trial :=
  match tget [] (t.d.cell x.r c).tbuf port with
  | e :: q =>
    if e.ready ≤ x.tick then
      (e.data, { t with d := t.d.modCell x.r c (fun s => { s with tbuf := tput [] s.tbuf port q }) })
    else (0, t.fail E.SP_ACT_UNDERFLOW)
  | [] => (0, t.fail E.SP_ACT_UNDERFLOW)

/-- The entry that a SCATTER's unit gives in a cell. The vector unit's output words, which the spec does not define, are
free values (notes/assumptions/14.md). -/
def scatterEntry (x : Ctx) (p unit c : Nat) (t : Trial) : BitVec 512 × Trial :=
  if unit = 8 then (BitVec.ofNat 512 (t.d.planFree x.r (some c) x.tick (110 + p)), t) else popEntry x (unit - 9) c t

/-- SCATTER: writes the unit's words to the addresses of one beat. -/
def scatterSlot (x : Ctx) (p : Nat) (s : XbarSlot) (t : Trial) : Trial :=
  match t.take x.r s.gen.toNat with
  | .error e => (t.fail e).forCells x.cells (fun t c => (scatterEntry x p s.unit.toNat c t).2)
  | .ok (g, t) =>
    let lanes := maskLanes s.mask
    t.forCells x.cells (fun t c =>
      let (e, t) := scatterEntry x p s.unit.toNat c t
      if x.isShadow c then t
      else
        t.bind (beatAddrs t.d x.r c g lanes) (fun offs =>
          let ws := entryWords e
          t.writes c (keyScatter p) g.desc.weight (offs.zip (lanes.map (fun i => ws.getD i 0)))))

/-! ### Transfers (R80, R547, R548) -/

/-- Position of a receive handle in a cell, advanced by one entry of eight words (notes/assumptions/15.md). -/
def takeCursor (r c port : Nat) (h : BitVec 16) (desc : Desc) (d : Dev) : Nat × Dev :=
  let key := 65536 * port + h.toNat
  let pos := tget 0 (d.cell r c).cursors key
  (pos, d.modCell r c (fun s => { s with cursors := tput 0 s.cursors key ((pos + 8) % desc.total) }))

/-- A delivery to cell c is put on its way: its addresses are those of the handle as resolved in c, its class is
judged as that of a plan write (R153). -/
def sendTo (x : Ctx) (port c : Nat) (h : BitVec 16) (desc : Desc) (sel due key : Nat) (e : BitVec 512) (t : Trial) :
    Trial :=
  let (pos, d) := takeCursor x.r c port h desc t.d
  let t := { t with d := d }
  t.bind (t.d.spAddrs x.r c desc sel pos 8) (fun offs =>
    let t := if offs.all (fun o => t.d.weightSeg x.r c (segOf o) == desc.weight) then t else t.fail E.SP_CLASS
    { t with d := t.d.modCell x.r c (fun s =>
      { s with deliveries := s.deliveries ++ [{ due := due, key := key, words := offs.zip (entryWords e) }] }) })

/-- Place in the order of Table 5.2 of a delivery from cell `c` to cell `c'`: a cell's own come first. -/
def keySend (c c' port kind : Nat) : Nat := if c = c' then keyOwn port kind else keyArrive c port kind

/-- CSEND (kind 0) and BSEND (kind 1): each target cell's oldest entry goes to the destination cell; zeros in shadow
(Table 3.3). The destination, the handle and the buffers are each judged (R103). -/
def cellSend (x : Ctx) (port kind lat : Nat) (dest : Nat → Nat) (cellNo : Nat) (h : BitVec 16) (t : Trial) : Trial :=
  let bad := decide (cellNo ≥ blockSize x.r) || !x.cells.all (fun c => x.cells.contains (dest c))
  let t := if bad then t.fail E.CW_FORMAT else t
  let t := match t.d.resolve x.r h x.start with
    | .error e => t.fail e
    | .ok _ => t
  t.forCells x.cells (fun t c =>
    let (e, t) := popEntry x port c t
    let e := if x.isShadow c then 0 else e
    match t.d.resolve x.r h x.start with
    | .error _ => t
    | .ok (desc, sel) =>
      if bad then t
      else sendTo x port (dest c) h desc sel (x.tick + lat) (keySend c (dest c) port kind) e t)

/-- A channel of its source region, and a change of it. -/
def Dev.chan (d : Dev) (r ch : Nat) : Chan := tget {} (d.reg r).chans ch
def Dev.modChan (d : Dev) (r ch : Nat) (f : Chan → Chan) : Dev :=
  d.modReg r (fun u => { u with chans := tput {} u.chans ch (f (tget {} u.chans ch)) })

/-- An entry on its way has reached its channel (R38): within a die, at the start of consumer period p + 14. -/
def CrossFly.arrived (f : CrossFly) (periods : Nat) : Bool := !f.ist && decide (periods ≥ f.sentPeriod + 14)

/-- Entries of a channel that are readable: those in its FIFO, and the oldest ones on their way that have arrived. -/
def Dev.readable (d : Dev) (src ch : Nat) : List (BitVec 512) :=
  let c := d.chan src ch
  match c.dest with
  | none => c.fifo
  | some dst => c.fifo ++ (c.flying.takeWhile (fun f => f.arrived (d.reg dst).periods)).map (·.data)

/-- The channel binds to region r (R38). -/
def Dev.boundTo (d : Dev) (src ch r : Nat) : Bool :=
  match (d.chan src ch).dest with
  | some x => decide (x.val = r)
  | none => false

/-- Take the oldest readable entry of a channel. -/
def Dev.receive (d : Dev) (src ch : Nat) : BitVec 512 × Dev :=
  let c := d.chan src ch
  match c.fifo with
  | e :: rest => (e, d.modChan src ch (fun c => { c with fifo := rest }))
  | [] =>
    match c.flying with
    | f :: rest => (f.data, d.modChan src ch (fun c => { c with flying := rest }))
    | [] => (0, d)

/-- Clock period of region r in progress at time t (R38): the number of its periods that had ended by then. -/
def Dev.periodAt (d : Dev) (r : Nat) (t : BitVec 64) : Nat :=
  (d.reg r).periods - ((d.reg r).ends.filter (fun e => decide (tdiff e t > 0))).length

/-- XSEND: the lead cell's entry is enqueued; every target cell removes its own (R548). -/
def xsendSlot (x : Ctx) (port : Nat) (ch : Nat) (t : Trial) : Trial :=
  let (sent, t) := x.cells.foldl (fun (acc : BitVec 512 × Trial) c =>
    let (e, t) := popEntry x port c acc.2
    (if x.lead = some c then (if x.isShadow c then 0 else e) else acc.1, t)) ((0 : BitVec 512), t)
  match (t.d.chan x.r ch).dest with
  | none => t
  | some dst =>
    let across := dieOf x.r ≠ dieOf dst
    let f : CrossFly :=
      { data := sent, sentPeriod := t.d.periodAt dst (t.d.reg x.r).began, ist := across,
        tide := t.d.get R.TIDE_NUMBER_tide }
    let d := t.d.modChan x.r ch (fun c => { c with flying := c.flying ++ [f] })
    { t with d := if across then d.istQueue (dieOf dst = 1) icPlan dst ch 0 1 (.crossing x.r ch) else d }

/-- XRECV: one entry, written through the handle in every active target cell in the same tick (R548). -/
def xrecvSlot (x : Ctx) (port : Nat) (src ch : Nat) (h : BitVec 16) (t : Trial) : Trial :=
  t.bind (t.d.resolve x.r h x.start) (fun (desc, sel) =>
    let (e, d) := t.d.receive (t.d.physRegion src) ch
    let t := { t with d := d }
    t.forCells x.cells (fun t c =>
      let (pos, d) := takeCursor x.r c port h desc t.d
      let t := { t with d := d }
      if x.isShadow c then t
      else
        t.bind (t.d.spAddrs x.r c desc sel pos 8) (fun offs =>
          t.writes c (keyOwn port 2) desc.weight (offs.zip (entryWords e)))))

/-- LREAD: the next entry of the space, written 16 ticks later in every active target cell (R548, Table 14.1). The
landing and the handle are each judged (R103). -/
def lreadSlot (x : Ctx) (port id : Nat) (h : BitVec 16) (t : Trial) : Trial :=
  let t := if (t.d.landing x.r id).isNone then t.fail E.CW_FORMAT else t
  t.bind (t.d.resolve x.r h x.start) (fun (desc, sel) =>
    match t.d.landing x.r id with
    | none => t
    | some l =>
      let n := tget 0 (t.d.reg x.r).lread id
      let more := t.d.planFree x.r none x.tick (100 + port)
      let (e, d) := t.d.lreadEntry l (t.d.get R.TIDE_NUMBER_tide) n more
      let d := d.modReg x.r (fun u => { u with lread := tput 0 u.lread id (n + 1) })
      Trial.forCells { t with d := d } x.cells (fun t c =>
        if x.isShadow c then { t with d := (takeCursor x.r c port h desc t.d).2 }
        else sendTo x port c h desc sel (x.tick + 16) (keyOwn port 3) e t))

/-- Reserved position of flit i of a slot-mask index in a tide (Table 13.7). -/
def Dev.flitPos (d : Dev) (index i : Nat) : Nat :=
  match d.plan.masks[index]? with
  | some m => m.first + i * m.stride
  | none => 0

/-- An entry joins the flit that LSEND is forming; the fourth completes it, with its low 48 bytes (R392), and it enters
the link's plan queue 20 ns after the end of the tick; for a link of the other die it crosses the Isthmus as four plan
entries and may leave 60 ns after the tick (Table 14.1). -/
def formFlit (x : Ctx) (port link index stream : Nat) (e : BitVec 512) (d : Dev) : Dev :=
  let u := d.reg x.r
  let part := match tget none u.parts port with
    | some p => if p.link = link ∧ p.index = index ∧ p.stream = stream then p else ⟨link, index, stream, []⟩
    | none => ⟨link, index, stream, []⟩
  let entries := part.entries ++ [e]
  if entries.length < 4 then
    d.modReg x.r (fun u => { u with parts := tput none u.parts port (some { part with entries := entries }) })
  else
    let data := BitVec.ofNat 1920 (entries.foldr (fun e acc => e.toNat + 2 ^ 512 * acc) 0)
    let n := tget 0 u.sent index
    let wait := if dieOfLink link = dieOf x.r then 20 * nsU else 60 * nsU
    let flit : PlanFlit :=
      { tide := d.get R.TIDE_NUMBER_tide, stream := stream, index := index, pos := d.flitPos index n,
        ready := d.now + BitVec.ofNat 64 wait, data := data }
    let d := d.modReg x.r (fun u => { u with parts := tput none u.parts port none, sent := tput 0 u.sent index (n + 1) })
    if dieOfLink link = dieOf x.r then d.modLink link (fun l => { l with planQueue := l.planQueue ++ [flit] })
    else d.istQueue (dieOfLink link = 1) icPlan 0 0 0 4 (.planOut link flit)

/-- LSEND: one entry of the descriptor, read in the lead cell; zeros in shadow (R548, Table 3.3). -/
def lsendSlot (x : Ctx) (port : Nat) (link index stream : Nat) (h : BitVec 16) (t : Trial) : Trial :=
  t.bind (t.d.resolve x.r h x.start) (fun (desc, sel) =>
    match x.lead with
    | none => t
    | some c =>
      let (pos, d) := takeCursor x.r c port h desc t.d
      let t := { t with d := d }
      if x.isShadow c then { t with d := formFlit x port link index stream 0 t.d }
      else
        t.bind (t.d.spAddrs x.r c desc sel pos 8) (fun offs =>
          let (ws, t) := t.reads x.r c (keyLsend port) offs
          { t with d := formFlit x port link index stream (entryOf ws) t.d }))

/-- A transfer slot (Table 3.9). -/
def xferSlot (x : Ctx) (port : Nat) (s : XferSlot) (t : Trial) : Trial :=
  match s with
  | .csend cell h => cellSend x port 0 4 (fun c => c / blockSize x.r * blockSize x.r + cell.toNat) cell.toNat h t
  | .bsend block cell h => cellSend x port 1 10 (fun _ => block.toNat * blockSize x.r + cell.toNat) cell.toNat h t
  | .xsend ch => xsendSlot x port ch.toNat t
  | .xrecv src ch h => xrecvSlot x port src.toNat ch.toNat h t
  | .lsend link index stream h => lsendSlot x port link.toNat index.toNat stream.toNat h t
  | .land id => if (t.d.landing x.r id.toNat).isSome then t else t.fail E.CW_FORMAT
  | .lread id h => lreadSlot x port id.toNat h t

/-! ### Descriptor slot (R82, R83) -/

/-- A table entry with every write to it so far, in effect or not. -/
def RegionSt.latest (u : RegionSt) (i : Nat) : Desc :=
  u.tableFly.foldl (fun e w => if w.index = i then w.desc else e) (tget {} u.table i)

/-- Write a table entry for words that begin two ticks later (R83). -/
def tableWrite (x : Ctx) (h : BitVec 16) (desc : Desc) (d : Dev) : Dev :=
  d.modReg x.r (fun u => { u with tableFly := u.tableFly ++ [⟨x.tick + 2, h.toNat % 4096, desc⟩] })

/-- The words of a D-slot beat, read in the lead cell (R78). -/
def descReads (x : Ctx) (gen n : Nat) (t : Trial) (f : List (BitVec 64) → Trial → Trial) : Trial :=
  match t.take x.r gen with
  | .error e => t.fail e
  | .ok (g, t) =>
    match x.lead with
    | none => t
    | some c =>
      if x.isShadow c then t
      else t.bind (t.d.spAddrs x.r c g.desc g.select g.pos n) (fun offs =>
        let (ws, t) := t.reads x.r c keyDesc offs
        f ws t)

/-- The count registers that a D slot writes, seen by reads at the next tick (R83). DESIGN CHOICE
(notes/assumptions/94.md): a CNTLD whose tick is shadow in the lead cell resolves no handle. -/
def descCounts (x : Ctx) (s : DescSlot) (d : Dev) : Except Ev (Option (Nat × Nat)) :=
  if x.leadShadow then .ok none
  else match s with
    | .cntld dim n h =>
      match d.resolve x.r h x.start with
      | .ok (desc, _) => .ok (some (n.toNat, desc.extent dim.toNat))
      | .error e => .error e
    | .cntset v n => .ok (some (n.toNat, v.toNat))
    | _ => .ok none

/-- The table part of a D slot. -/
def descSlot (x : Ctx) (s : DescSlot) (t : Trial) : Trial :=
  match s with
  | .dload gen h => descReads x gen.toNat 8 t (fun ws t => { t with d := tableWrite x h ⟨ws⟩ t.d })
  | .dbase gen h => descReads x gen.toNat 1 t (fun ws t =>
      let e := (t.d.reg x.r).latest (h.toNat % 4096)
      let words := (List.range 8).map (fun i => if i = 0 then ws.headD 0 else e.words.getD i 0)
      { t with d := tableWrite x h ⟨words⟩ t.d })
  | .cntsrc _ _ | .cntld _ _ _ | .cntset _ _ => t

/-! ### Predicate slot (R84) -/

/-- One raw lane of a register is not zero. The spec names no lane width: where lanes of 32 and of 16 bits disagree,
the bit is the free value given (notes/assumptions/16.md). -/
def pvecBit (v : BitVec 2048) (lane : Nat) (free : Bool) : Bool :=
  let half := decide (bits v.toNat (16 * lane) 16 ≠ 0)
  let full := decide (bits v.toNat (32 * lane) 32 ≠ 0)
  if lane ≥ 64 ∨ half = full then half else free

/-- The value that a P slot gives cell c. -/
def predValue (x : Ctx) (s : PredSlot) (c : Nat) (free : Bool) (d : Dev) : Bool :=
  let u := d.cell x.r c
  match s with
  | .pcix _ sel cmp imm =>
    let v := d.cix x.r c sel.toNat
    match cmp.toNat with
    | 0 => decide (v = imm.toNat)
    | 1 => decide (v ≠ imm.toNat)
    | 2 => decide (v < imm.toNat)
    | _ => decide (v ≥ imm.toNat)
  | .plog _ pa pb op =>
    let a := u.pred pa.toNat
    let b := u.pred pb.toNat
    match op.toNat with
    | 0 => a && b
    | 1 => a || b
    | 2 => xor a b
    | _ => a && !b
  | .pvec _ reg lane => pvecBit (u.vreg reg.toNat) lane.toNat free
  | .pcnt _ n imm => decide (d.get R.SEQ_LOOP_COUNT_count (x.r * 16 + n.toNat) > imm.toNat)

/-- The register that a P slot writes. -/
def predDest : PredSlot → Nat
  | .pcix pd _ _ _ | .plog pd _ _ _ | .pvec pd _ _ | .pcnt pd _ _ => pd.toNat

/-- A P slot: written in each active cell, read by words that begin in the next tick (R84). -/
def predSlot (x : Ctx) (s : PredSlot) (t : Trial) : Trial :=
  t.forCells (x.cells.filter (fun c => !x.isShadow c)) (fun t c =>
    let v := predValue x s c (bit (t.d.planFree x.r (some c) x.tick 130) 0) t.d
    { t with d := t.d.modCell x.r c (fun u =>
        { u with preds := BitVec.ofNat 16 (setBit u.preds.toNat (predDest s) v) }) })

end Sys2Proof.Machine
end

