-- ==== Sys2Proof/Machine/Scratchpad.lean ====
section
/-! DEFINITION. The scratchpad's part of a tick (05): error correction on plan reads (R151, R154, R155), class checks
(R153), writes in the order of Table 5.2, conflicts and slip (R145, R146), and what was on its way and lands. -/

namespace Sys2Proof.Machine

/-! ### Errors -/

/-- Wrong bits noted for a word. -/
def CellSt.wrong (s : CellSt) (off : Nat) : Nat := tget 0 s.spErr (off / 8)

/-- The byte offsets that one code covers: an aligned 256-bit group in a weight segment, else the word (Table 5.5). -/
def codeWords (d : Dev) (r c off : Nat) : List Nat :=
  if d.weightSeg r c (segOf off) then (List.range 4).map (fun i => off / 32 * 32 + 8 * i) else [off / 8 * 8]

/-- Clear the errors noted for a code's words. -/
def clearErrs (r c : Nat) (offs : List Nat) (d : Dev) : Dev :=
  d.modCell r c (fun s => { s with spErr := offs.foldl (fun m o => tput 0 m (o / 8) 0) s.spErr })

/-- First byte of what one code covers. -/
def codeBase (d : Dev) (r c off : Nat) : Nat := (codeWords d r c off).headD 0

/-- SP_ECC_LAST (R154, R155). -/
def recordEcc (r c off nbits : Nat) (ue : Bool) (d : Dev) : Dev :=
  let i := cellIx r c
  (((((d.set R.SP_ECC_LAST_word i (off / 8)).setB R.SP_ECC_LAST_weight i (d.weightSeg r c (segOf off))).setB
    R.SP_ECC_LAST_uncorrectable i ue).set R.SP_ECC_LAST_bits i nbits).set R.SP_ECC_LAST_valid i 1)

/-- A corrected error (R154): counted, recorded, written back; the event once per cell per tide. -/
def correctErr (r c off nbits : Nat) (d : Dev) : Dev :=
  let d := recordEcc r c off nbits false (clearErrs r c (codeWords d r c off) (d.inc C.SP_COUNTS_corrected (cellIx r c)))
  if (d.reg r).once.contains (E.SP_CORRECTED.code, c) then d
  else (d.modReg r (fun s => { s with once := s.once ++ [(E.SP_CORRECTED.code, c)] })).raise E.SP_CORRECTED (some r) (some c)

/-- What is recorded of an uncorrectable error (R155, R156): count, record, and a weight segment marked bad. -/
def noteUe (r c off : Nat) (d : Dev) : Dev :=
  let i := cellIx r c
  let d := recordEcc r c off 0 true (d.inc C.SP_COUNTS_uncorrectable i)
  if d.weightSeg r c (segOf off) then d.set R.SP_SEG_BAD_bad i (setBit (d.get R.SP_SEG_BAD_bad i) (segOf off) true) else d

/-- How one read of what a code covers fares: second part, an uncorrectable error is reported. SP_ECC_LAST names the
word with the error, of several the lowest (the model's choice, notes/assumptions/102.md). Errors beyond the code have
one of the three outcomes that R151 allows, by a free value, with free data. -/
def eccRead (r c at0 : Nat) (d : Dev) : Dev × Bool :=
  let ws := codeWords d r c at0
  let off := (ws.find? (fun o => (d.cell r c).wrong o ≠ 0)).getD at0
  let n := (ws.map ((d.cell r c).wrong)).foldl (· + ·) 0
  let weight := d.weightSeg r c (segOf off)
  let most := if weight then 3 else 1
  if n = 0 then (d, false)
  else if n ≤ most then (correctErr r c off n d, false)
  else if n = most + 1 then (noteUe r c off d, true)
  else
    let (f, d) := d.draw
    if f % 3 = 0 then (noteUe r c off d, true)
    else
      let d := ws.foldl (fun d o => let (v, d) := d.draw; d.spWrite r c o (BitVec.ofNat 64 v)) d
      if f % 3 = 1 then (correctErr r c off (1 + f / 3 % most) d, false) else (d, false)

/-- Errors that enter the scratchpad with a command. -/
def takeUpsets (r : Nat) (us : List Upset) (d : Dev) : Dev :=
  us.foldl (fun d u =>
    if u.word.toNat * 8 < spSize r then
      d.modCell r u.cell (fun s => { s with spErr := tput 0 s.spErr u.word.toNat (tget 0 s.spErr u.word.toNat + u.bits) })
    else d) d

/-- What a tick's accesses read, one of each (cell, first byte that a code covers): the reads, and the read halves of
partial writes to weight-class groups (R147). -/
def eccTargets (d : Dev) (r : Nat) (accs : List Acc) : List (Nat × Nat) :=
  distinct (accs.filterMap (fun a =>
    let mine := accs.filter (fun b =>
      decide (b.cell = a.cell ∧ b.group = a.group ∧ b.off / 32 = a.off / 32) && b.write.isSome)
    if a.write.isNone || (d.weightSeg r a.cell (segOf a.off) && decide ((distinct (mine.map (·.off))).length < 4)) then
      some (a.cell, codeBase d r a.cell a.off)
    else none))

/-- Error correction over a tick's reads: the device, and whether any was uncorrectable. -/
def eccAll (r : Nat) (accs : List Acc) (d : Dev) : Dev × Bool :=
  (eccTargets d r accs).foldl (fun acc p =>
    if (codeWords acc.1 r p.1 p.2).all (fun o => (acc.1.cell r p.1).wrong o = 0) then acc
    else
      let x := eccRead r p.1 p.2 acc.1
      (x.1, acc.2 || x.2)) (d, false)

/-! ### What is on its way -/

/-- Items of a list of writes on their way that are due before a tick, in the order in which they stand. -/
def dueBefore (l : List FlyWrite) (tick : Nat) : List FlyWrite :=
  sortBy (fun a b => decide (a.due < b.due ∨ (a.due = b.due ∧ a.key ≤ b.key))) (l.filter (fun w => decide (w.due < tick)))

/-- Write items in order. A word that the last tick's plan wrote from a later place of Table 5.2 keeps that write
(R144); a write of the last tick is noted as one of its plan writes. -/
def landItems (r c tick : Nat) (ws : List FlyWrite) (d : Dev) : Dev :=
  ws.foldl (fun d w =>
    w.words.foldl (fun d p =>
      if w.due + 1 ≠ tick then (clearErrs r c [p.1] d).spWrite r c p.1 p.2
      else if (d.cell r c).lastW.any (fun l => decide (l.2 = p.1 ∧ l.1 > w.key)) then d
      else ((clearErrs r c [p.1] d).spWrite r c p.1 p.2).modCell r c (fun s =>
        { s with lastW := s.lastW ++ [(w.key, p.1)] })) d) d

/-- ST writes of a region that are due (R133). -/
def landStores (r : Nat) (d : Dev) : Dev :=
  let tick := (d.reg r).planTicks
  (d.targets r).foldl (fun d c =>
    let due := dueBefore (d.cell r c).stores tick
    if due = [] then d
    else (landItems r c tick due d).modCell r c (fun s => { s with stores := s.stores.filter (fun w => decide (¬ w.due < tick)) })) d

/-- Transfer deliveries of a region that are due (R80). -/
def landDeliveries (r : Nat) (d : Dev) : Dev :=
  let tick := (d.reg r).planTicks
  (d.targets r).foldl (fun d c =>
    let due := dueBefore (d.cell r c).deliveries tick
    if due = [] then d
    else (landItems r c tick due d).modCell r c (fun s =>
      { s with deliveries := s.deliveries.filter (fun w => decide (¬ w.due < tick)) })) d

/-- Writes on their way that are due: the deliveries, then the stores, as Table 5.2 orders them. -/
def landWrites (r : Nat) (d : Dev) : Dev := landStores r (landDeliveries r d)

/-- Vector results of a region that are due (R133). -/
def landResults (r : Nat) (d : Dev) : Dev :=
  let tick := (d.reg r).planTicks
  if tick = 0 then d
  else (d.targets r).foldl (fun d c =>
    if (d.cell r c).vfly = [] then d else d.modCell r c (fun s => s.landResults (tick - 1))) d

/-- MAC contributions of a region that are due (R115); products wholly below the window are counted (R140). -/
def landContributions (r : Nat) (d : Dev) : Dev :=
  let tick := (d.reg r).planTicks
  if tick = 0 then d
  else (d.targets r).foldl (fun d c => (List.range 8).foldl (fun d a =>
    let s := d.arr r c a
    if s.flying.all (fun f => decide (¬ f.due < tick)) then d
    else
      let x := s.enterDue (tick - 1)
      let d := d.modArr r c a (fun _ => x.1)
      if x.2 = 0 then d else d.inc C.SEQ_ARITH_below r x.2) d) d

/-- Weight loads of a region that are complete (R74). -/
def landLoads (r : Nat) (d : Dev) : Dev :=
  let tick := (d.reg r).planTicks
  if tick = 0 then d
  else (d.targets r).foldl (fun d c => (List.range 8).foldl (fun d a => finishLoad r c a (tick - 1) d) d) d

/-- Everything that reached its target in the ticks before this one. -/
def settle (r : Nat) (d : Dev) : Dev :=
  landLoads r (landContributions r (landResults r (landWrites r d)))

/-- Bank accesses of this tick by writes that are on their way (R145). -/
def arrivingAccs (d : Dev) (r tick : Nat) : List Acc :=
  (d.targets r).flatMap (fun c =>
    let s := d.cell r c
    ((s.deliveries ++ s.stores).filter (fun w => decide (w.due = tick))).zipIdx.flatMap (fun w =>
      w.1.words.map (fun p => { cell := c, key := w.1.key, nth := w.2 + 1, off := p.1, write := some p.2 })))

/-- The class of every plan write is that of its segment (R153). -/
def classOk (d : Dev) (r : Nat) (accs : List Acc) : Bool :=
  accs.all (fun a => a.write.isNone || d.weightSeg r a.cell (segOf a.off) == a.weight)

/-- Apply a tick's own writes in the order of Table 5.2 (R144), and note them. -/
def applyWrites (r : Nat) (accs : List Acc) (d : Dev) : Dev :=
  let ws := sortBy (fun a b => decide (a.key ≤ b.key)) (accs.filter (fun a => a.write.isSome))
  let d := (d.targets r).foldl (fun d c => d.modCell r c (fun s => { s with lastW := [] })) d
  ws.foldl (fun d a =>
    let d := (clearErrs r a.cell [a.off] d).spWrite r a.cell a.off (a.write.getD 0)
    d.modCell r a.cell (fun s => { s with lastW := s.lastW ++ [(a.key, a.off)] })) d

/-- Slip periods that a tick's accesses cost (R145), with what R146 records at the first. -/
def slipOf (d : Dev) (r pc tick : Nat) (accs : List Acc) : Option Slip :=
  match surplus d r accs with
  | [] => none
  | l => some { left := l.foldl (fun m x => Nat.max m x.2.1) 0, recorded := false, pc := pc, tick := tick,
                cells := l.map (fun x => (x.1, x.2.2)) }

/-- Banks, as 32 * cell + bank, that a tick's accesses used. -/
def banksOf (accs : List Acc) : List Nat := distinct (accs.map (fun a => 32 * a.cell + bankOf a.off))

/-- Banks, and block routers as 4096 + block, that a tick's plan used (R319). -/
def usedBy (accs : List Acc) (routers : List Nat) : List Nat := banksOf accs ++ routers.map (4096 + ·)

/-- R319: a bank or a block router's port used in all 16 ticks of an aligned group; the event once per region per
tide. -/
def noteShare (r tick : Nat) (used : List Nat) (d : Dev) : Dev :=
  let prev := (d.reg r).portUse
  let now := if tick % 16 = 0 then used else prev.filter (fun u => used.contains u)
  let d := d.modReg r (fun s => { s with portUse := now })
  if tick % 16 = 15 ∧ now ≠ [] ∧ ¬ (d.reg r).once.contains (E.ARB_SHARE.code, 0) then
    (d.modReg r (fun s => { s with once := s.once ++ [(E.ARB_SHARE.code, 0)] })).raise E.ARB_SHARE (some r)
  else d

end Sys2Proof.Machine
end

