-- ==== Sys2Proof/Machine/Sequencer.lean ====
section
/-! DEFINITION. The sequencer (03): fetching words (R65, R97 to R99), holds (R39, R45, R98), loops (R85 to R92), the
execution of one word-tick (R69 to R72), and what follows a tick. -/

namespace Sys2Proof.Machine

/-! ### Plan memory (R97 to R99) -/

/-- Plan-memory page of image page q. -/
def Dev.planPage (d : Dev) (r q : Nat) : Nat :=
  let rp := d.get R.SEQ_STREAM_resident_pages r
  let nr := d.get R.SEQ_STREAM_ring_pages r
  if q < rp ∨ nr = 0 then q % 64 else rp + (q - rp) % nr

/-- Image page q is where its words are expected (R98). -/
def Dev.pageFilled (d : Dev) (r q : Nat) : Bool :=
  decide (q < d.get R.SEQ_STREAM_resident_pages r ∨ d.get R.SEQ_STREAM_ring_pages r = 0) ||
  decide (tget 0 (d.reg r).ring (d.planPage r q) = q + 1)

/-- Image address of the word to execute. -/
def Dev.imagePc (d : Dev) (r : Nat) : Nat :=
  d.get R.SEQ_STREAM_pc_page r * 32768 + d.get R.SEQ_STATUS_pc r % 32768

/-- Plan-memory address of an image address. -/
def Dev.planAddr (d : Dev) (r ia : Nat) : Nat := d.planPage r (ia / 32768) * 32768 + ia % 32768

/-- Set the address of the word to execute. -/
def Dev.setPc (d : Dev) (r ia : Nat) : Dev :=
  (d.set R.SEQ_STATUS_pc r (d.planAddr r ia)).set R.SEQ_STREAM_pc_page r (ia / 32768)

/-- One 16-bit unit. -/
def Dev.planUnit (d : Dev) (r ia : Nat) : Nat := mnum d.mem (planKey r (2 * d.planAddr r ia)) 2

/-- `n` units from an image address as one number (R65). -/
def Dev.planUnits (d : Dev) (r ia : Nat) : Nat → Nat
  | 0 => 0
  | n + 1 => d.planUnit r ia + 65536 * d.planUnits r (ia + 1) n

/-- What the sequencer finds at its address. -/
inductive Fetched where
  | unfilled
  | bad (e : Ev)
  | word (w : CWord) (units : Nat)
  deriving DecidableEq, Repr

/-- Fetch and decode the word at the current address (R68, R98). -/
def Dev.fetch (d : Dev) (r : Nat) : Fetched :=
  let ia := d.imagePc r
  if ¬ (d.pageFilled r (ia / 32768) ∧ d.pageFilled r ((ia + 3) / 32768)) then .unfilled
  else
    let n := (presentBits (d.planUnits r ia 2)).length
    if ¬ d.pageFilled r ((ia + wordUnits n - 1) / 32768) then .unfilled
    else match decodeWord (d.planUnits r ia (wordUnits n)) with
      | .error e => .bad e
      | .ok w => .word w (wordUnits n)

/-- The image page that a loop's end address names (R99). -/
def Dev.lastPage (d : Dev) (r startPage p : Nat) : Nat :=
  let rp := d.get R.SEQ_STREAM_resident_pages r
  let nr := d.get R.SEQ_STREAM_ring_pages r
  if p < rp ∨ nr = 0 then p
  else
    let q0 := Nat.max startPage rp
    ((List.range nr).map (q0 + ·)).find? (fun q => d.planPage r q = p) |>.getD p

/-- The image page that a JMP target names; none: EV_SEQ_STREAM_STALE (R99). -/
def Dev.jumpPage (d : Dev) (r cur p : Nat) : Option Nat :=
  let rp := d.get R.SEQ_STREAM_resident_pages r
  let nr := d.get R.SEQ_STREAM_ring_pages r
  if p < rp ∨ nr = 0 then some p
  else if cur ≥ rp ∧ d.planPage r cur = p then some cur
  else if cur + 1 ≥ rp ∧ d.planPage r (cur + 1) = p then some (cur + 1)
  else none

/-! ### Holds (R39, R45) -/

/-- The slots of a word, by kind. -/
def CWord.xfer (w : CWord) : List (Nat × XferSlot) :=
  w.slots.filterMap (fun s => match s with | .xfer p s => some (p.val, s) | _ => none)
def CWord.loopSlot (w : CWord) : Option LoopSlot :=
  w.slots.findSome? (fun s => match s with | .loop s => some s | _ => none)
def CWord.descSlot (w : CWord) : Option DescSlot :=
  w.slots.findSome? (fun s => match s with | .desc s => some s | _ => none)
def CWord.predSlot (w : CWord) : Option PredSlot :=
  w.slots.findSome? (fun s => match s with | .pred s => some s | _ => none)
def CWord.arrs (w : CWord) : List (Nat × ArrSlot) :=
  w.slots.filterMap (fun s => match s with | .arr i s => some (i.val, s) | _ => none)
def CWord.vecs (w : CWord) : List (Nat × VecSlot) :=
  w.slots.filterMap (fun s => match s with | .vec p s => some (p.val, s) | _ => none)
def CWord.gens (w : CWord) : List (Nat × GenSlot) :=
  w.slots.filterMap (fun s => match s with | .gen i s => some (i.val, s) | _ => none)
def CWord.xbars (w : CWord) : List (Nat × XbarSlot) :=
  w.slots.filterMap (fun s => match s with | .xbar p s => some (p.val, s) | _ => none)

/-- A landing of a region is incomplete in the tide in progress (R45). -/
def Dev.landOpen (d : Dev) (r id : Nat) : Bool :=
  match d.landing r id with
  | some l => !d.landingComplete l (d.get R.TIDE_NUMBER_tide)
  | none => false

/-- The landings of a word that are incomplete (R45). -/
def Dev.openLands (d : Dev) (r : Nat) (w : CWord) : List Nat :=
  distinct (((CWord.xfer w).filterMap (fun s => match s.2 with
    | .land id => some id.toNat
    | _ => none)).filter (d.landOpen r))

/-- Why a word must hold now; none: it may execute. -/
def Dev.holdOf (d : Dev) (r : Nat) (w : CWord) : Option HoldKind :=
  let xs := (CWord.xfer w).map (·.2)
  let recvs := xs.filterMap (fun s => match s with | .xrecv src ch _ => some (src.toNat, ch.toNat) | _ => none)
  let sends := xs.filterMap (fun s => match s with | .xsend ch => some ch.toNat | _ => none)
  match d.openLands r w with
  | id :: _ => some (.landing id)
  | [] =>
    if recvs.any (fun p =>
        let src := d.physRegion p.1
        let need := (recvs.filter (· = p)).length
        !d.boundTo src p.2 r || decide ((d.readable src p.2).length < need)) then some .recv
    else if sends.any (fun ch =>
        let c := d.chan r ch
        decide (c.flying.length + c.fifo.length + (sends.filter (· = ch)).length > 64)) then some .send
    else none

/-! ### Loops (R85 to R92) -/

/-- A BOUNDED iteration beyond its latched count is in progress (R87). -/
def RegionSt.loopShadow (u : RegionSt) : Bool := u.loops.any (fun f => f.bounded && decide (f.iter ≥ f.latched))

/-- The L slot of a word's first tick: the region's state after, or the event that R81, R91, R99 and Table 3.16 name.
Second part: a count was clamped (R88). -/
def loopSlot (d : Dev) (r ia : Nat) (start : Nat) (leadShadow : Bool) (ds : Option DescSlot) (s : LoopSlot) :
    Except Ev (RegionSt × Bool) :=
  let u := d.reg r
  let enter := fun (last : BitVec 21) (bounded : Bool) (total : Nat) (count : Except Ev Nat) =>
    let lia := d.lastPage r (ia / 32768) (last.toNat / 32768) * 32768 + last.toNat % 32768
    let beyond : Bool := match u.loops with
      | [] => false
      | f :: _ => decide (lia > f.last)
    if u.loops.length ≥ 8 then .error E.LOOP_DEPTH
    else if lia < ia ∨ beyond = true then .error E.LOOP_NEST
    else match count with
      | .error e => .error e
      | .ok n =>
        let f : LoopFrame := { bounded, start := ia, last := lia, total, latched := Nat.min n total, iter := 0 }
        .ok ({ u with loops := f :: u.loops }, bounded && decide (n > total))
  match s with
  | .loopf last count => enter last false (count.toNat + 1) (.ok (count.toNat + 1))
  | .loopb src last n ceiling =>
    enter last true ceiling.toNat
      (if leadShadow then .ok 0
       else if src then
         match ds with
         | some (.cntsrc dim h) =>
           match d.resolve r h start with
           | .ok (desc, _) => .ok (desc.extent dim.toNat)
           | .error e => .error e
         | _ => .error E.CW_FORMAT
       else .ok (d.get R.SEQ_LOOP_COUNT_count (r * 16 + n.toNat)))
  | .jmp target =>
    match d.jumpPage r (ia / 32768) (target.toNat / 32768) with
    | none => .error E.SEQ_STREAM_STALE
    | some q =>
      let t := q * 32768 + target.toNat % 32768
      let bad : Bool := match u.loops with
        | [] => false
        | f :: _ => decide (t ≤ f.start ∨ t > f.last) || u.loops.any (fun f => decide (f.last = ia))
      if bad then .error E.LOOP_NEST else .ok ({ u with jump := some t }, false)
  | .done => if u.loops ≠ [] then .error E.CW_FORMAT else .ok ({ u with endPending := true }, false)

/-- After an end word: loop back or leave (R85), innermost loop first. Answers the loops left, and where to go back. -/
def leaveLoops (ia : Nat) : List LoopFrame → List LoopFrame × Option Nat
  | [] => ([], none)
  | f :: rest =>
    if f.last = ia then
      if f.iter + 1 < f.total then ({ f with iter := f.iter + 1 } :: rest, some f.start) else leaveLoops ia rest
    else (f :: rest, none)

/-- What SEQ_STATUS shows of a region. -/
def showStatus (r : Nat) (d : Dev) : Dev :=
  let u := d.reg r
  (((d.set R.SEQ_STATUS_depth r u.loops.length).setB R.SEQ_STATUS_loop_shadow r u.loopShadow).set
    R.SEQ_STATUS_tick r u.tideTick).setB R.SEQ_STATUS_stream_hold r
      (match u.hold with | some h => decide (h.kind = .stream) | none => false)

/-- A word's last tick is over: the plan ends in the region, or the next word's address is set (R85, R92). -/
def nextWord (r units : Nat) (d : Dev) : Dev :=
  let u := d.reg r
  let ia := d.imagePc r
  if u.endPending then
    (d.modReg r (fun u => { u with endPending := false, endedTide := some (d.get R.TIDE_NUMBER_tide) })).set
      R.SEQ_STATUS_ended r 1
  else match u.jump with
    | some t => (d.modReg r (fun u => { u with jump := none, skipL := false })).setPc r t
    | none =>
      let x := leaveLoops ia u.loops
      match x.2 with
      | some s => (d.modReg r (fun u => { u with loops := x.1, skipL := true })).setPc r s
      | none => (d.modReg r (fun u => { u with loops := x.1, skipL := false })).setPc r (ia + units)

/-! ### One word-tick -/

/-- The present cells of a region, in ascending order. -/
def Dev.presentList (d : Dev) (r : Nat) : List Nat := (cellsOf r).filter (fun c => bit (d.presentCells r) c)

/-- Latch the governing predicate of a word in each present cell (R71). -/
def latchGov (r : Nat) (g : Gov) (d : Dev) : Dev :=
  (d.presentList r).foldl (fun d c => d.modCell r c (fun s => { s with gov := xor (s.pred g.pred.toNat) g.inv })) d

/-- The slots of one tick, in the order that Tables 4.9 and 5.2, R78 and R83 give. DESIGN CHOICE
(notes/assumptions/93.md): a transfer-port buffer gives up a send's entry, then takes a GATHER's, then gives up a
SCATTER's. -/
def slotsTick (x : Ctx) (w : CWord) (t : Trial) : Trial :=
  let arrs := CWord.arrs w
  let vecs := CWord.vecs w
  let t := (CWord.gens w).foldl (fun t s => genSlot x s.1 s.2 t) t
  let drains := arrs.filterMap (fun a => match a.2 with | .drain acc _ _ => some (a.1, acc.toNat) | _ => none)
  let clash := vecs.any (fun v => decide (v.2.op = .rdacc) && drains.any (fun d =>
    decide (d.1 / 2 = bits v.2.mod.toNat 2 2 ∧ d.2 = bits v.2.mod.toNat 0 2)))
  let t := if clash then t.fail E.ARITH_FORMAT else t
  let macs := arrs.filterMap (fun a => match a.2 with | .mac p acc => some (a.1, p.toNat, acc.toNat) | _ => none)
  let t := macSlots x macs t
  let t := (CWord.xfer w).foldl (fun t s => xferSlot x s.1 s.2 t) t
  let t := (CWord.xbars w).foldl (fun t s => if s.2.scatter then t else gatherSlot x s.1 s.2 t) t
  let t := arrs.foldl (fun t a => match a.2 with | .wload sp h => wloadSlot x a.1 sp h t | _ => t) t
  let t := wloadReads x.r x.tick x.cells t
  let t := match CWord.descSlot w with
    | some s => if x.first then descSlot x s t else t
    | none => t
  let t := arrs.foldl (fun t a => match a.2 with | .drain acc gen h => drainSlot x a.1 acc gen h t | _ => t) t
  let t := vecs.foldl (fun t v => if v.2.op = .rdacc ∧ vecFormatOk v.1 v.2 then rdaccSlot x v.1 v.2 t else t) t
  let t := arrs.foldl (fun t a => match a.2 with
    | .clear acc win => clearSlot x a.1 acc win t
    | .wswap => wswapSlot x a.1 t
    | _ => t) t
  let t := vecs.foldl (fun t v => vecSlot x v.1 v.2 t) t
  (CWord.xbars w).foldl (fun t s => if s.2.scatter then scatterSlot x s.1 s.2 t else t) t

/-- Blocks whose router carries a transfer out in this tick (R319). -/
def routersOf (x : Ctx) (w : CWord) : List Nat :=
  if (CWord.xfer w).any (fun s => match s.2 with | .bsend _ _ _ | .xsend _ | .lsend _ _ _ _ => true | _ => false) then
    distinct (x.cells.map (fun c => c / blockSize x.r))
  else []

/-- Raise the plan faults that one tick of a region met, lowest cause first (Table 3.16). DESIGN CHOICE
(notes/assumptions/96.md): predicates, vector registers and accumulators stand as before the tick. -/
def faultTick (r : Nat) (es : List Ev) (d : Dev) : Dev :=
  let codes := distinct (es.map Ev.code)
  let es := codes.filterMap (fun c => es.find? (fun e => e.code = c))
  d.raiseAll (es.map (fun e => (e, some r, none)))

/-- A clock period of a region ends now (R38). -/
def RegionSt.countPeriod (now : BitVec 64) (u : RegionSt) : RegionSt :=
  { u with periods := u.periods + 1, ends := (now :: u.ends).take 16 }

/-- A tick that has been executed: its clock period and plan tick are counted, the slip that it costs begins, and
tick 0 of the tide lowers MARK (R34, R35). -/
def endTick (r : Nat) (busy : List Nat) (slip : Option Slip) (d : Dev) : Dev :=
  let d := d.modReg r (fun u =>
    { u.countPeriod d.now with
      planTicks := u.planTicks + 1, tideTick := u.tideTick + 1, slip := slip, busy := busy,
      mark := u.mark && !u.started, started := false })
  showStatus r d

/-- The faults of a tick: those found before its slots, its slots' own, and a write of the wrong class (R153). -/
def tickFaults (x : Ctx) (pre : List Ev) (t : Trial) (d : Dev) : List Ev :=
  pre ++ t.errs ++ (if classOk d x.r t.accs then [] else [E.SP_CLASS])

/-- The accesses of a tick, once no check has failed: error correction (a tick whose reads it changed is taken again),
writes, shares, slip. `pre` are the faults found before its slots, `redo` gives the tick's trial on a device, `d0` is
the device without the word. -/
def finishTick (x : Ctx) (pre : List Ev) (redo : Dev → Trial) (routers : List Nat) (after : Dev → Dev) (d0 d : Dev) :
    Dev :=
  let t := redo d
  let errs := tickFaults x pre t d
  if errs ≠ [] then faultTick x.r errs d0
  else
    let all := t.accs ++ arrivingAccs d x.r x.tick
    let ecc := eccAll x.r all d
    if ecc.2 then faultTick x.r [E.SP_UNCORRECTABLE] (eccAll x.r all d0).1
    else
      let t := if ecc.1 = d then t else redo ecc.1
      let d := applyWrites x.r t.accs t.d
      let d := noteShare x.r (d.reg x.r).tideTick (usedBy all routers) d
      let slip := slipOf d x.r x.pc (d.reg x.r).tideTick all
      endTick x.r (banksOf all) slip (after d)

/-- A tick that issues no word (R92): what is in progress goes on. -/
def idleTick (r : Nat) (d : Dev) : Dev :=
  let d := settle r d
  let u := d.reg r
  let x : Ctx :=
    { r := r, tick := u.planTicks, start := u.wordStart, first := false, cells := d.targets r, shadow := [],
      lead := d.leadCell r, pc := d.get R.SEQ_STATUS_pc r }
  finishTick x [] (fun d => wloadReads r x.tick x.cells { d := d }) [] id d d

/-- The first tick of a word: what the word latches of the region (R83, R99), and its predicate (R71). -/
def beginWord (r : Nat) (g : Gov) (d : Dev) : Dev :=
  let tick := (d.reg r).planTicks
  let page := d.imagePc r / 32768
  latchGov r g (d.modReg r (fun u =>
    { u with wordStart := tick, leftPages := Nat.max u.leftPages page,
             table := u.tableFly.foldl (fun m f => if f.eff ≤ tick then tput {} m f.index f.desc else m) u.table,
             tableFly := u.tableFly.filter (fun f => decide (¬ f.eff ≤ tick)) }))

/-- The governing predicate makes the tick shadow in a cell (R72). -/
def Dev.govShadow (d : Dev) (r c : Nat) : Bool := !(d.cell r c).gov

/-- What the slots of a word-tick share: its plan tick, the one in which the word began, its image address; `all` the
tick is shadow in every cell (R87). -/
def wordCtx (r tick start ia : Nat) (first all : Bool) (d : Dev) : Ctx :=
  let here := d.presentList r
  { r, tick, start, first, cells := (d.targets r).filter (fun c => bit (d.presentCells r) c),
    shadow := if all then here else here.filter (d.govShadow r), lead := d.leadCell r, pc := d.planAddr r ia }

/-- A tick that was shadow in every present cell is counted (R73). -/
def countShadow (x : Ctx) (d : Dev) : Dev :=
  if (d.presentList x.r).all x.isShadow then d.incP R.SEQ_SHADOW_TICKS_shadow_ticks x.r else d

/-- A BOUNDED loop's count was clamped to its ceiling (R88). -/
def noteClamp (r : Nat) (clamped : Bool) (d : Dev) : Dev :=
  if clamped then (d.inc C.SEQ_COUNTS_ceiling_clamps r).raise E.LOOP_CEILING (some r) else d

/-- What follows the slots of a tick, predicates and counts apart: R73, R88, and the repeat or the next word (R69). -/
def closeTick (x : Ctx) (rep units : Nat) (clamped : Bool) (d : Dev) : Dev :=
  let d := noteClamp x.r clamped (countShadow x d)
  let left := if x.first then rep else (d.reg x.r).repLeft.getD 1 - 1
  if left = 0 then nextWord x.r units (d.modReg x.r (fun u => { u with repLeft := none }))
  else d.modReg x.r (fun u => { u with repLeft := some left })

/-- What follows the slots of a tick: predicates read counts before they change (R84), then `closeTick`. -/
def closeWord (x : Ctx) (w : CWord) (units : Nat) (cnt : Option (Nat × Nat)) (clamped : Bool) (d : Dev) : Dev :=
  let d := match CWord.predSlot w with
    | some s => if x.first then (predSlot x s { d := d }).d else d
    | none => d
  let d := match cnt with
    | some (n, v) => d.setRw R.SEQ_LOOP_COUNT_count (x.r * 16 + n) v
    | none => d
  closeTick x w.rep.toNat units clamped d

/-- A word's first tick is shadow in the lead cell by its own predicate, or there is no lead cell. -/
def leadShadowed (d : Dev) (r : Nat) : Bool :=
  match d.leadCell r with
  | some c => d.govShadow r c
  | none => true

/-- The region after a word's L slot, where the tick executes one, and whether a count was clamped. -/
def enterLoop (r start ia : Nat) (runs : Bool) (w : CWord) (d : Dev) : Except Ev (RegionSt × Bool) :=
  match CWord.loopSlot w with
  | some s =>
    if runs then loopSlot d r ia start ((d.reg r).loopShadow || leadShadowed d r) (CWord.descSlot w) s
    else .ok (d.reg r, false)
  | none => .ok (d.reg r, false)

/-- The count register that a word's first tick writes. -/
def countWrite (x : Ctx) (w : CWord) (d : Dev) : Except Ev (Option (Nat × Nat)) :=
  match CWord.descSlot w with
  | some s => if x.first then descCounts x s d else .ok none
  | none => .ok none

/-- A target cell is not present (R29, R102). -/
def absentTarget (r : Nat) (d : Dev) : List Ev :=
  if (d.targets r).any (fun c => !bit (d.presentCells r) c) then [E.ABSENT_TARGET] else []

/-- The value of a check that may fail, and its fault. -/
def checked {α : Type} (a : α) : Except Ev α → α × List Ev
  | .ok x => (x, [])
  | .error e => (a, [e])

/-- One tick of a word at the region's address, once what was due has landed: every check of the word is made, and the
faults of all of them are those of the tick (R103). -/
def wordOn (r : Nat) (w : CWord) (units : Nat) (first : Bool) (d0 : Dev) : Dev :=
  let ia := d0.imagePc r
  let u := d0.reg r
  let tick := u.planTicks
  let start := if first then tick else u.wordStart
  let d := if first then beginWord r w.gov d0 else d0
  let lp := checked (d.reg r, false) (enterLoop r start ia (first && !u.skipL) w d)
  let u' := lp.1.1
  let x := wordCtx r tick start ia first u'.loopShadow d
  let d := d.setReg r u'
  let inside := if u'.loops.any (fun f => decide (ia < f.last ∧ f.last < ia + units)) then [E.LOOP_NEST] else []
  let cnt := checked none (countWrite x w d)
  finishTick x (absentTarget r d0 ++ lp.2 ++ inside ++ cnt.2) (fun d => slotsTick x w { d := d }) (routersOf x w)
    (closeWord x w units cnt.1 lp.1.2) d0 d

/-- Execute one tick of a word at the region's address (R69). -/
def wordTick (r : Nat) (w : CWord) (units : Nat) (first : Bool) (d : Dev) : Dev :=
  wordOn r w units first (settle r d)

/-! ### Periods of a region -/

/-- Count a period spent in HOLD (R38, R40). -/
def holdPeriod (r : Nat) (d : Dev) : Dev :=
  (d.modReg r (fun u => { u.countPeriod d.now with holdTicks := u.holdTicks + 1 })).incP
    R.TIDE_HOLD_TICKS_hold_ticks r

/-- The region enters or goes on in a hold of a kind, with the landings that are incomplete; a continuous hold keeps
the time it began. -/
def holdRegion (r : Nat) (k : HoldKind) (lands : List Nat) (since : BitVec 64) (d : Dev) : Dev :=
  let u := d.reg r
  let old := u.hold.getD { kind := k, since := since }
  let h : Hold := { old with kind := k, landTicks := old.landTicks + (if lands = [] then 0 else 1), lands := lands }
  let fresh := decide (k = .stream) && !(match u.hold with | some h => decide (h.kind = .stream) | none => false)
  let d := d.modReg r (fun u => { u with phase := .hold, hold := some h })
  let d := if fresh then d.inc C.SEQ_COUNTS_stream_holds r else d
  let d := d.set R.TIDE_STATUS_hold_mask 0 (setBit (d.get R.TIDE_STATUS_hold_mask) r true)
  showStatus r (holdPeriod r d)

/-- The hold is over (R39, R45). -/
def endHold (r : Nat) (d : Dev) : Dev :=
  let d := d.modReg r (fun u => { u with phase := .run, hold := none })
  showStatus r (d.set R.TIDE_STATUS_hold_mask 0 (setBit (d.get R.TIDE_STATUS_hold_mask) r false))

/-- A region that no longer waits leaves HOLD. -/
def resume (r : Nat) (d : Dev) : Dev := if (d.reg r).hold.isSome then endHold r d else d

/-- R45: the landing is missed. -/
def missNow (r id : Nat) (d : Dev) : Dev :=
  (d.missLanding r id (d.get R.TIDE_NUMBER_tide)).raise E.LANDING_MISSED (some r)

/-- R47: a landing that was found incomplete at its deadline and is no longer so completed within its grace. -/
def countLate (r : Nat) (d : Dev) : Dev :=
  match (d.reg r).hold with
  | none => d
  | some h =>
    let n := (h.lands.filter (fun id => !d.landOpen r id)).length
    let d := d.modReg r (fun u => { u with hold := some { h with lands := h.lands.filter (d.landOpen r) } })
    if n = 0 then d else d.inc C.TIDE_COUNTS_late_landings 0 n

/-- Hold ticks that the region has spent at a landing's deadline tick (R45). -/
def Dev.landTicks (d : Dev) (r : Nat) : Nat :=
  match (d.reg r).hold with
  | some h => h.landTicks
  | none => 0

/-- R35: after its last tick of the tide, and the slip that follows it, the region raises MARK and goes dark. -/
def finishTide (r : Nat) (d : Dev) : Dev :=
  let u := d.reg r
  if u.tideTick ≥ d.plan.ticks ∧ u.slip = none ∧ u.phase = .run then
    d.modReg r (fun u => { u with phase := .done, mark := true })
  else d

/-- A word's tick where nothing holds it; the hold that it meets otherwise. -/
def issueWord (r : Nat) (w : CWord) (units : Nat) (first : Bool) (since : BitVec 64) (d : Dev) : Dev :=
  let d := countLate r d
  match d.holdOf r w with
  | some (.landing id) =>
    if d.landTicks r ≥ d.tide.grace then (d.openLands r w).foldl (fun d id => missNow r id d) d
    else holdRegion r (.landing id) (d.openLands r w) since d
  | some k => holdRegion r k [] since d
  | none => wordTick r w units first (resume r d)

/-- One clock period of a region that has a tick to execute. -/
def regionPeriod (r : Nat) (since : BitVec 64) (d : Dev) : Dev :=
  if d.is R.SEQ_STATUS_ended r then idleTick r d
  else match d.fetch r with
    | .unfilled => holdRegion r .stream [] since d
    | .bad e => faultTick r (e :: absentTarget r d) (resume r d)
    | .word w units => issueWord r w units (d.reg r).repLeft.isNone since d

/-- A region's new edge; the time its period began. -/
def newEdge (r : Nat) (d : Dev) : BitVec 64 × Dev :=
  ((d.reg r).edge, d.modReg r (fun u => { u with began := u.edge, edge := d.now }))

/-- The region runs its plan: it is in RUN, or its tide has started. -/
def Dev.running (d : Dev) (r : Nat) : Bool :=
  decide (d.get R.TIDE_STATUS_state = 2) && d.plan.used.any (fun x => x.val = r) &&
  (decide ((d.reg r).phase = .run) || ((d.reg r).started && decide ((d.reg r).phase ≠ .hold)))

/-- A slip in progress keeps the region in HOLD (R146). -/
def enterSlip (r : Nat) (since : BitVec 64) (d : Dev) : Dev :=
  match (d.reg r).slip with
  | none => d
  | some _ =>
    let d := d.modReg r (fun u => { u with phase := .hold, hold := some { kind := .slip, since := since } })
    d.set R.TIDE_STATUS_hold_mask 0 (setBit (d.get R.TIDE_STATUS_hold_mask) r true)

/-- PLAN_TICK (R69): one tick of the word at the region's address. -/
def execPlanTick (r : Nat) (t : BitVec 64) (us : List Upset) (d : Dev) : Dev :=
  let d := d.advance t
  if d.running r ∧ (d.reg r).slip = none ∧ (d.reg r).tideTick < d.plan.ticks then
    let (since, d) := newEdge r (takeUpsets r us d)
    let d := d.modReg r (fun u => { u with phase := .run })
    finishTide r (enterSlip r d.now (regionPeriod r since d))
  else d

/-- HOLD_TICK (R39, R40, R45): the held tick is executed, or the period is one more hold tick. -/
def execHoldTick (r : Nat) (t : BitVec 64) (us : List Upset) (d : Dev) : Dev :=
  let d := d.advance t
  match (d.reg r).hold with
  | some h =>
    if h.kind = .slip then d
    else
      let (since, d) := newEdge r (takeUpsets r us d)
      finishTide r (enterSlip r d.now (regionPeriod r since d))
  | none => d

/-- What R146 records at the first slip period of a tick. -/
def recordSlip (r : Nat) (s : Slip) (d : Dev) : Dev :=
  let d := s.cells.foldl (fun d p =>
    let i := cellIx r p.1
    let d := d.inc C.SP_COUNTS_slips i
    if d.is R.SP_SLIP_FIRST_valid i then d
    else (((d.set R.SP_SLIP_FIRST_pc i s.pc).set R.SP_SLIP_FIRST_tick i s.tick).set R.SP_SLIP_FIRST_bank i p.2).set
      R.SP_SLIP_FIRST_valid i 1) d
  if (d.reg r).once.contains (E.PLAN_SLIP.code, 0) then d
  else (d.modReg r (fun u => { u with once := u.once ++ [(E.PLAN_SLIP.code, 0)] })).raise E.PLAN_SLIP (some r)
    ((s.cells.head?).map (·.1))

/-- SLIP_PERIOD (R145, R146): one period serves a surplus access. -/
def execSlipPeriod (r : Nat) (t : BitVec 64) (d : Dev) : Dev :=
  let d := d.advance t
  match (d.reg r).slip with
  | none => d
  | some s =>
    let (_, d) := newEdge r d
    let d := if s.recorded then d else recordSlip r s d
    let d := holdPeriod r d
    if s.left ≤ 1 then
      let d := d.modReg r (fun u => { u with slip := none })
      finishTide r (endHold r d)
    else d.modReg r (fun u => { u with slip := some { s with left := s.left - 1, recorded := true } })

/-! ### Deliveries and ring pages -/

/-- CROSSING_ARRIVAL (R38): the oldest entry on its way within the die becomes readable. -/
def execCrossingArrival (src ch : Nat) (d : Dev) : Dev :=
  let c := d.chan src ch
  match c.flying with
  | f :: rest => if f.ist then d else d.modChan src ch (fun c => { c with flying := rest, fifo := c.fifo ++ [f.data] })
  | [] => d

/-- The next tick begins a word. -/
def clearRep (r : Nat) (d : Dev) : Dev := d.modReg r (fun u => { u with repLeft := none })

/-- A slot command: a word of one slot, issued at the region's address as the word in plan memory would be; none
issues while slip periods are still to spend (R145). -/
def slotWord (r : Nat) (g : Gov) (ss : List Slot) (d : Dev) : Dev :=
  let w : CWord := { rep := 0, gov := g, slots := ss }
  if (d.reg r).slip ≠ none then d
  else if ¬ CWord.wf w then faultTick r (E.CW_FORMAT :: absentTarget r d) d
  else
    let d := (clearRep r d).modReg r (fun u => { u with began := u.edge })
    enterSlip r d.now (issueWord r w (wordUnits ss.length) true (d.reg r).edge d)

end Sys2Proof.Machine
end

