-- ==== Sys2Proof/Machine/Harbour.lean ====
section
/-! DEFINITION. What reaches a scratchpad besides the plan (05): harbour windows (R160 to R164), the row accesses of
unscheduled reads and writes (R147, R158, R159), patrol scrub (R156), and segment classes (R152). -/

namespace Sys2Proof.Machine

/-- A cell that the design has and the fuses of the device hold (R25, R28). -/
def Dev.cellPresent (d : Dev) (r c : Nat) : Bool := decide (c < cellCount r) && bit (d.presentCells r) c

/-- Sources of harbour rights (Table 5.8). -/
def srcThis : Nat := 0
def srcOther : Nat := 1
def srcFerry : Nat := 2
def srcHost : Nat := 3

/-- An open window of a cell wholly contains an access and grants its right (R160 to R162); a change of a window takes
effect from the next PX cycle (R163). -/
def Dev.harbourOk (d : Dev) (r c off n src : Nat) (write : Bool) : Bool :=
  (List.range 8).any (fun w =>
    let i := cellIx r c * 8 + w
    let lo := d.before R.SP_HARBOUR_base i * 64
    let hi := lo + d.before R.SP_HARBOUR_size i * 64
    decide (d.before R.SP_HARBOUR_open i = 1) && decide (lo ≤ off ∧ off + n ≤ hi) &&
      bit (if write then d.before R.SP_HARBOUR_write_rights i else d.before R.SP_HARBOUR_read_rights i) src)

/-- A refused access (R161): counted, recorded, and EV_HARBOUR_VIOLATION. -/
def harbourRefuse (r c off src dev : Nat) (write : Bool) (d : Dev) : Dev :=
  let i := cellIx r c
  let d := d.inc C.SP_COUNTS_harbour_violations i
  let d := ((((d.set R.SP_HARBOUR_LAST_device i dev).set R.SP_HARBOUR_LAST_offset i off).set
    R.SP_HARBOUR_LAST_source i src).setB R.SP_HARBOUR_LAST_write i write).set R.SP_HARBOUR_LAST_valid i 1
  d.raise E.HARBOUR_VIOLATION (some r) (some c)

/-- Words of an access. -/
def wordsOf (off n : Nat) : List Nat := (List.range ((off + n + 7) / 8 - off / 8)).map (fun i => (off / 8 + i) * 8)

/-- The region's latest plan tick is still in progress: it runs, or spends slip periods of that tick. -/
def RegionSt.inTick (u : RegionSt) : Bool := decide (u.phase = .run) || u.slip.isSome

/-- A write to a word that another write of this PX cycle, or this tick's plan write, also reached (R159). -/
def noteCollision (r c : Nat) (ws : List Nat) (d : Dev) : Dev :=
  let s := d.cell r c
  let cyc := cycleOf d.now
  let plan := if (d.reg r).inTick then s.lastW.map (·.2) else []
  let prev := if s.lateCycle = cyc then s.lateWords else []
  let n := (ws.filter (fun w => plan.contains w || prev.contains w)).length
  let d := d.modCell r c (fun s => { s with lateCycle := cyc, lateWords := prev ++ ws })
  if n = 0 then d else d.inc C.DEV_TIMING_CHOICE_COUNT_collisions 0 n

/-- The read half of a partial write to weight-class groups, or a read: each code is read once; whether any found an
uncorrectable error. -/
def eccWords (r c : Nat) (ws : List Nat) (d : Dev) : Dev × Bool :=
  (distinct (ws.map (codeBase d r c))).foldl (fun acc w =>
    if (codeWords acc.1 r c w).all (fun o => (acc.1.cell r c).wrong o = 0) then acc
    else
      let x := eccRead r c w acc.1
      (x.1, acc.2 || x.2)) (d, false)

/-- Words of groups that a write covers only in part (R147). -/
def partialWords (d : Dev) (r c off n : Nat) : List Nat :=
  (wordsOf off n).filter (fun w =>
    if d.weightSeg r c (segOf w) then decide (w / 32 * 32 < off ∨ w / 32 * 32 + 32 > off + n)
    else decide (w < off ∨ w + 8 > off + n))

/-- The part of an access that lies in one bank row's 64 bytes: first byte and length. -/
def rowPart (off n row : Nat) : Nat × Nat :=
  let lo := Nat.max off row
  (lo, Nat.min (off + n) (row + 64) - lo)

/-- The bank rows that an access reaches, by their first bytes. -/
def rowsOf (off n : Nat) : List Nat := (List.range ((off + n + 63) / 64 - off / 64)).map (fun i => (off / 64 + i) * 64)

/-- A row access of an unscheduled write (R147, R159). -/
def rowWrite (r c off : Nat) (bytes : List Byte) (d : Dev) : Dev :=
  let ws := wordsOf off bytes.length
  let d := noteCollision r c ws (clearErrs r c ws d)
  { d with mem := mwrite d.mem (spKey r c off) bytes }

/-- The bank of a row of a cell is free for an unscheduled access (R158): no plan access of the tick in progress uses
it. In a slip period the banks of a cell that needed none are free. -/
def Dev.bankFree (d : Dev) (r c row : Nat) : Bool :=
  let u := d.reg r
  match u.slip with
  | some s => !(s.cells.map (·.1)).contains c
  | none => decide (u.phase ≠ .run) || !u.busy.contains (32 * c + bankOf row)

/-- Rows of a region's banks. -/
def spRows (r : Nat) : Nat := spSize r / 2048

/-- SP_PATROL_SCRUB (R156): the next row of every bank of every present cell, each code once; a segment under
reinitialisation has no errors to find (R152). -/
def execSpPatrolScrub (r : Nat) (us : List Upset) (d : Dev) : Dev :=
  let d := takeUpsets r us d
  ((cellsOf r).filter (d.cellPresent r)).foldl (fun d c =>
    let row := (d.cell r c).scrubRow
    let mine := distinct ((((d.cell r c).spErr.map (fun e => e.1 * 8)).filter (fun o =>
      decide (rowOf o = row) && !(d.cell r c).reinit.getLsbD (segOf o))).map (codeBase d r c))
    let d := mine.foldl (fun d o =>
      if (codeWords d r c o).all (fun w => (d.cell r c).wrong w = 0) then d
      else
        let x := eccRead r c o d
        if x.2 then x.1.raise E.SP_SCRUB_UE (some r) (some c) else x.1) d
    d.modCell r c (fun s => { s with scrubRow := (row + 1) % spRows r })) d

/-- Segments of a cell whose class differs between two masks. -/
def changedSegs (r a b : Nat) : List Nat := (List.range (spSize r / 65536)).filter (fun s => bit a s ≠ bit b s)

/-- SEG_CLASS_WRITE (R152, R196, R523): each changed segment starts reinitialising under its new class and keeps
nothing that was loaded. -/
def execSegClassWrite (r c v : Nat) (d : Dev) : Dev :=
  if ¬ d.cellPresent r c then (if c < cellCount r then d.raise E.ABSENT_ENGINE (some r) (some c) else d)
  else if d.get R.TIDE_STATUS_state ≠ 0 ∨ d.admitLocked (dieOf r) then d
  else
    let i := cellIx r c
    let v := if r < 8 then v % 2 ^ 64 else v % 2 ^ 32
    let old := d.get R.SP_SEG_CLASS_weight i
    (d.set R.SP_SEG_CLASS_weight i v).modCell r c (fun s =>
      { s with
        reinit := s.reinit ||| BitVec.ofNat 64 (Nat.xor old v)
        loaded := (changedSegs r old v).foldl (fun m g => tput none m g none) s.loaded })

/-- Zero one segment. -/
def zeroSegment (r c seg : Nat) (d : Dev) : Dev :=
  let lo := spKey r c (seg * 65536)
  { d with mem := d.mem.filter (fun p => !decide (lo ≤ p.1 ∧ p.1 < lo + 65536)) }

/-- SEG_REINIT_DONE (R152): the segment holds zeros under its new code. -/
def execSegReinitDone (r c seg : Nat) (d : Dev) : Dev :=
  let s := d.cell r c
  if s.reinit.getLsbD seg then
    (zeroSegment r c seg d).modCell r c (fun s =>
      { s with reinit := s.reinit &&& ~~~ (1#64 <<< seg),
               spErr := s.spErr.filter (fun e => !decide (e.1 / 8192 = seg)) })
  else d

/-- HARBOUR_WRITE (R160, R164). -/
def execHarbourWrite (r c w v : Nat) (d : Dev) : Dev :=
  if ¬ d.cellPresent r c then (if c < cellCount r then d.raise E.ABSENT_ENGINE (some r) (some c) else d)
  else
    let i := cellIx r c * 8 + w
    let base := bits v 16 16
    let size := bits v 32 17
    let bad := bit v 0 && decide (size = 0 ∨ (base + size) * 64 > spSize r)
    let d := ((((d.store R.SP_HARBOUR_open i (flag (bit v 0 && !bad))).store R.SP_HARBOUR_write_rights i
      (bits v 4 4)).store R.SP_HARBOUR_read_rights i (bits v 8 4)).store R.SP_HARBOUR_base i base).store
      R.SP_HARBOUR_size i size
    if bad then d.raise E.HARBOUR_CONFIG (some r) (some c) else d

end Sys2Proof.Machine
end

