-- ==== Sys2Proof/Machine/Fabric.lean ====
section
/-! DEFINITION. The drift fabric (11): packets and flits, routing, requests and their completion, and a Causeway link
going down with all that hands back (R308, R335 to R337). -/

namespace Sys2Proof.Machine

/-- Write bytes at a die address: halves written whole hold no error any more. -/
def hbmWrite (die a : Nat) (bytes : List Byte) (d : Dev) : Dev :=
  let lo := die * 2 ^ 34 + (a + 31) / 32
  let hi := die * 2 ^ 34 + (a + bytes.length) / 32
  { d with
    mem := mwrite d.mem (hbmKey die a) bytes,
    hbmErr := d.hbmErr.filter (fun e => !decide (lo ≤ e.1 ∧ e.1 < hi)) }

/-! ### Packets (R320 to R323) -/

def stOk : Nat := 0
def stAbsent : Nat := 1
def stHarbour : Nat := 2
def stRange : Nat := 3
def stUncorrectable : Nat := 4
def stRefused : Nat := 5
def stLinkLost : Nat := 6
def stNoRoute : Nat := 7
def stTimeout : Nat := 8

def opRead : Nat := 1
def opWrite : Nat := 2
def opReadResp : Nat := 3
def opWriteAck : Nat := 4
def opBounce : Nat := 5
def opRelay : Nat := 6
def opMgmtReq : Nat := 7
def opMgmtResp : Nat := 8
def opLaunch : Nat := 9

/-- VC, least and most data bytes of an opcode (Table 11.3); none: reserved. -/
def opRow (op : Nat) : Option (Nat × Nat × Nat) :=
  match op with
  | 1 => some (0, 0, 0)
  | 2 => some (0, 8, 928)
  | 3 => some (1, 8, 928)
  | 4 => some (1, 0, 0)
  | 5 => some (1, 0, 0)
  | 6 => some (2, 8, 928)
  | 7 => some (3, 0, 928)
  | 8 => some (1, 0, 928)
  | 9 => some (3, 0, 928)
  | _ => none

/-- Flits of a packet with `b` bytes of data. -/
def flitsFor (b : Nat) : Nat := (32 + b + 239) / 240

/-- The 32 bytes of the routing header (Table 11.2). -/
def packetHeader (p : Packet) : List Byte :=
  leBytes 3 p.dest.toNat ++ leBytes 3 p.src.toNat ++
  leBytes 2 (p.x.toNat + 32 * p.y.toNat + 1024 * p.z.toNat) ++
  leBytes 1 (flitsFor p.data.length - 1 + 4 * p.vc.toNat + 16 * flag p.detoured + 32 * flag p.turned) ++
  leBytes 1 p.opcode.toNat ++ leBytes 1 p.status.toNat ++ leBytes 1 0 ++
  leBytes 2 (p.tag.toNat + 4096 * p.gen.toNat) ++ leBytes 1 p.words.toNat ++ leBytes 1 0 ++
  leBytes 8 p.addr.toNat ++ leBytes 8 0

/-- A packet's flit payloads. -/
def packetFlits (p : Packet) : List (BitVec 1920) :=
  let n := leNat (packetHeader p ++ p.data)
  (List.range (flitsFor p.data.length)).map (fun i => BitVec.ofNat 1920 (n / 2 ^ (1920 * i)))

/-- The packet that flit payloads carry, where it breaks no condition of R322. The length of data carried is that of
`words`; a READ asks for as many and carries none. -/
def parsePacket (vc : Nat) (fs : List (BitVec 1920)) : Option Packet :=
  let n := fs.foldr (fun f acc => f.toNat + 2 ^ 1920 * acc) 0
  let op := bits n 72 8
  let words := bits n 112 7
  let len := if op = opRead then 0 else 8 * words
  match opRow op with
  | none => none
  | some (v, lo, hi) =>
    if v = vc ∧ bits n 66 2 = vc ∧ lo ≤ len ∧ len ≤ hi ∧ (op = opRead → 1 ≤ words ∧ words ≤ 116) ∧
        fs.length = flitsFor len ∧ bits n 64 2 + 1 = fs.length ∧
        bits n 20 4 = 0 ∧ bits n 44 4 = 0 ∧ bits n 63 1 = 0 ∧ bits n 70 2 = 0 ∧ bits n 88 8 = 0 ∧
        bits n 119 9 = 0 ∧ bits n 192 64 = 0 then
      some { dest := BitVec.ofNat 20 n, src := BitVec.ofNat 20 (n / 2 ^ 24), x := BitVec.ofNat 5 (n / 2 ^ 48),
             y := BitVec.ofNat 5 (n / 2 ^ 53), z := BitVec.ofNat 5 (n / 2 ^ 58), vc := BitVec.ofNat 2 vc,
             detoured := bit n 68, turned := bit n 69, opcode := BitVec.ofNat 8 op,
             status := BitVec.ofNat 8 (bits n 80 8), tag := BitVec.ofNat 12 (n / 2 ^ 96),
             gen := BitVec.ofNat 4 (n / 2 ^ 108), words := BitVec.ofNat 7 words,
             addr := BitVec.ofNat 64 (n / 2 ^ 128), data := leBytes len (n / 2 ^ 256) }
    else none

/-- Raise an event at most once per second: `slot` tells the events apart. -/
def raiseOncePerSecond (slot : Nat) (e : Ev) (inst : Option Nat) (d : Dev) : Dev :=
  let due := match tget none d.fabric.lastOnce slot with
    | none => true
    | some t => decide (tdiff d.now t ≥ (secU : Nat))
  if due then
    ({ d with fabric := { d.fabric with lastOnce := tput none d.fabric.lastOnce slot (some d.now) } }).raise e none inst
  else d

/-! ### Routing (R324, R325) -/

/-- Own coordinate and ring size of a dimension (DRIFT_ROUTE). -/
def Dev.ring (d : Dev) (dim : Nat) : Nat × Nat :=
  match dim with
  | 0 => (d.get R.DRIFT_ROUTE_x, d.get R.DRIFT_ROUTE_nx)
  | 1 => (d.get R.DRIFT_ROUTE_y, d.get R.DRIFT_ROUTE_ny)
  | _ => (d.get R.DRIFT_ROUTE_z, d.get R.DRIFT_ROUTE_nz)

/-- A packet's coordinate in a dimension. -/
def packetCoord (p : Packet) (dim : Nat) : Nat :=
  match dim with
  | 0 => p.x.toNat
  | 1 => p.y.toNat
  | _ => p.z.toNat

/-- The first dimension that a packet has not finished; none: it is at its coordinates. -/
def Dev.openDim (d : Dev) (p : Packet) : Option Nat := [0, 1, 2].find? (fun i => packetCoord p i ≠ (d.ring i).1)

/-- The link that R325 gives a packet at this device: a packet that goes on in its ring keeps its direction, one that
enters a ring takes the shorter way, the other way where it is reversed. Second part: it enters a ring. -/
def Dev.outLink (d : Dev) (p : Packet) (via : Option Nat) (dim : Nat) : Nat × Bool :=
  let onward := match via with
    | some l => decide (l / 2 = dim)
    | none => false
  if onward then
    -- it came in on the link opposite to its direction
    match via with
    | some l => (if l % 2 = 0 then 2 * dim + 1 else 2 * dim, false)
    | none => (2 * dim, true)
  else
    let c := (d.ring dim).1
    let n := (d.ring dim).2
    let delta := (packetCoord p dim + n - c % n) % n
    let pos := if 2 * delta < n then true else if 2 * delta > n then false else decide (c % 2 = 0)
    let pos := if p.turned then !pos else pos
    (if pos then 2 * dim else 2 * dim + 1, true)

/-- A link may carry flits: UP or DEGRADED (Table 10.9). -/
def Dev.linkUp (d : Dev) (l : Nat) : Bool := d.get R.CW_STATUS_state l = 2 || d.get R.CW_STATUS_state l = 3

/-- Flits held for a link: sent and waiting (R298). -/
def LinkSt.held (x : LinkSt) : Nat := x.store.length + x.planQueue.length + x.driftQueue.length

/-- Queue a packet's flits on a link whose store takes drift flits (R326, R328). -/
def enqueue (l : Nat) (p : Packet) (enters : Bool) (d : Dev) : Dev :=
  let id := (d.link l).nextPkt
  let fs := packetFlits p
  let flits := (List.range fs.length).map (fun i =>
    { vc := p.vc.toNat, first := i = 0, last := i + 1 = fs.length, pkt := id, enters := enters,
      data := fs.getD i 0 : DriftFlit })
  d.modLink l (fun x =>
    { x with driftQueue := x.driftQueue ++ flits, kept := x.kept ++ [(id, p)], nextPkt := id + 1 })

/-- Flits that fit the link's spill region (R298): 64 MiB at the REPLAY base + 64 MiB * (l mod 3), as far as the area
reaches. -/
def Dev.spillRoom (d : Dev) (l : Nat) : Nat :=
  Nat.min 262144 (((d.area (dieOfLink l) areaReplay).2 - 67108864 * (l % 3)) / 256)

/-- Flits that the store and the spill region hold together. -/
def Dev.storeSize (d : Dev) (l : Nat) : Nat := 2048 + d.spillRoom l

/-- The store and the spill region are full. -/
def Dev.storeFull (d : Dev) (l : Nat) : Bool := decide ((d.link l).held ≥ d.storeSize l)

/-- Die address of a place of a link's spill region. -/
def Dev.spillAt (d : Dev) (l place : Nat) : Nat :=
  (d.area (dieOfLink l) areaReplay).1 + 67108864 * (l % 3) + 256 * place

/-- The flits that a link holds, oldest first: sent, then waiting. -/
def LinkSt.bodies (x : LinkSt) : List FlitBody :=
  x.store.map (·.body) ++ x.planQueue.map .plan ++ x.driftQueue.map .drift

/-- A flit as the spill region holds it (notes/assumptions/113.md): type and type fields of its header, and payload. -/
def spillBytes : FlitBody → List Byte
  | .plan f => leBytes 6 1 ++ leBytes 2 f.tide ++ leBytes 8 (f.stream + 256 * f.index) ++ leBytes 240 f.data.toNat
  | .drift f => leBytes 8 2 ++ leBytes 8 (f.vc + 4 * flag f.first + 8 * flag f.last) ++ leBytes 240 f.data.toNat

/-- A flit moves to the lowest free place of the spill region. -/
def spillFlit (l : Nat) (b : FlitBody) (d : Dev) : Dev :=
  let used := (d.link l).spill.map (·.1)
  match (List.range (used.length + 1)).find? (fun n => !used.contains n) with
  | some n => hbmWrite (dieOfLink l) (d.spillAt l n) (spillBytes b)
      ((wakeFor (dieOfLink l) (d.spillAt l n) 256 d).modLink l (fun x => { x with spill := x.spill ++ [(n, b)] }))
  | none => d

/-- The spill region keeps the flits of a link that are still held, and takes the oldest others when the on-chip store
of 2,048 is full (R298). -/
def settleSpill (l : Nat) (d : Dev) : Dev :=
  let x := d.link l
  if x.spill = [] ∧ x.held ≤ 2048 then d
  else
    let y := x.spill.foldl (fun (acc : List (Nat × FlitBody) × List FlitBody) e =>
      if acc.2.contains e.2 then (acc.1 ++ [e], acc.2.erase e.2) else acc) ([], x.bodies)
    let more := Nat.min (y.2.length - 2048) (d.spillRoom l - y.1.length)
    (y.2.take more).foldl (fun d b => spillFlit l b d) (d.modLink l (fun x => { x with spill := y.1 }))

/-- A packet reaches a link: its flits are queued, or it waits while the link takes no drift flits or has no room for
all of it (R299). -/
def offer (l : Nat) (w : Packet × Bool) (d : Dev) : Dev :=
  let x := d.link l
  if d.is R.CW_STATUS_drift_stopped l ∨ x.waiting ≠ [] ∨ x.held + flitsFor w.1.data.length > d.storeSize l then
    d.modLink l (fun x => { x with waiting := x.waiting ++ [w] })
  else enqueue l w.1 w.2 d

/-- Drift goes on where the store has room (R299, notes/assumptions/114.md), and packets that waited are offered
again. -/
def resumeDrift (l : Nat) (d : Dev) : Dev :=
  let x := d.link l
  let d := if d.is R.CW_STATUS_drift_stopped l ∧ x.held ≤ 131072 ∧ ¬ d.storeFull l then
    d.set R.CW_STATUS_drift_stopped l 0 else d
  if d.is R.CW_STATUS_drift_stopped l ∨ x.waiting = [] then d
  else x.waiting.foldl (fun d w => offer l w d) (d.modLink l (fun x => { x with waiting := [] }))

/-- What follows a change of a link's store, with what CW_REPLAY and CW_STATUS show of it (R298, R299). -/
def showStore (l : Nat) (d : Dev) : Dev :=
  let d := settleSpill l (resumeDrift l d)
  let x := d.link l
  let d := ((d.set R.CW_REPLAY_store l (x.held - x.spill.length)).set R.CW_REPLAY_spill l x.spill.length).set
    R.CW_REPLAY_unacked l x.store.length
  (d.setB R.CW_STATUS_spill_active l (decide (x.spill ≠ []))).setB R.CW_STATUS_replaying l x.replayAt.isSome

/-- Queue a packet on a link; it waits while the link takes no drift flits (R299). -/
def queueOn (l : Nat) (p : Packet) (enters : Bool) (d : Dev) : Dev := showStore l (offer l (p, enters) d)

/-- Where a packet goes from this device. -/
inductive Route where
  | here
  | out (l : Nat) (p : Packet) (enters : Bool)
  | noRoute
  deriving DecidableEq, Repr

/-- A packet's next hop (R325, R329, R330), by DRIFT_CTL as it stood when the PX cycle began (Table 11.7). Second part:
it takes its detour here. -/
def Dev.route (d : Dev) (p : Packet) (via : Option Nat) : Route × Bool :=
  if p.dest.toNat = d.get R.DEV_ADDR_address then (.here, false)
  else match d.openDim p with
    | none => (.noRoute, false)
    | some dim =>
      -- reversed is cleared when the dimension is finished
      let p := match via with
        | some l => if l / 2 = dim then p else { p with turned := false }
        | none => p
      let (l, enters) := d.outLink p via dim
      if d.linkUp l then (.out l p enters, false)
      else if d.before R.DRIFT_CTL_detour = 1 ∧ ¬ p.detoured then
        let back := if l % 2 = 0 then l + 1 else l - 1
        if d.linkUp back then (.out back { p with detoured := true, turned := true } true, true) else (.noRoute, false)
      else (.noRoute, false)

/-- Coordinates of a device in the hall table (R324). -/
def Dev.hallCoords (d : Dev) (dev : Nat) : Option (Nat × Nat × Nat) :=
  (d.fabric.hall.find? (fun h => h.1 = dev)).map (·.2)

/-- A ring size is not set. -/
def Dev.noRings (d : Dev) : Bool := [0, 1, 2].any (fun i => (d.ring i).2 = 0)

/-- Put a packet of this device on its way (R324): answers its first hop, or that there is no route. -/
def inject (p : Packet) (d : Dev) : Dev × Option (Option Nat) :=
  if p.dest.toNat = d.get R.DEV_ADDR_address then
    ({ d with fabric := { d.fabric with selfQ := d.fabric.selfQ ++ [p] } }, some none)
  else match d.hallCoords p.dest.toNat with
    | none => (d, none)
    | some (x, y, z) =>
      if d.noRings then (d, none)
      else
        let p := { p with x := BitVec.ofNat 5 x, y := BitVec.ofNat 5 y, z := BitVec.ofNat 5 z }
        match d.route p none with
        | (.out l p enters, turned) =>
          let d := if turned then d.inc C.DRIFT_COUNTS_detours else d
          (queueOn l p enters d, some (some l))
        | _ => (d, none)

/-- A packet of this device for which the hall table gives coordinates and both directions of its ring are unusable
(R330). -/
def Dev.noWay (d : Dev) (p : Packet) : Bool :=
  (d.hallCoords p.dest.toNat).isSome && !d.noRings && decide (p.dest.toNat ≠ d.get R.DEV_ADDR_address)

/-- An answer to a packet, from this device. -/
def answerTo (p : Packet) (op status : Nat) (data : List Byte) (d : Dev) : Packet :=
  { dest := p.src, src := BitVec.ofNat 20 (d.get R.DEV_ADDR_address), x := 0, y := 0, z := 0, vc := 1,
    detoured := false, turned := false, opcode := BitVec.ofNat 8 op, status := BitVec.ofNat 8 status, tag := p.tag,
    gen := p.gen, words := BitVec.ofNat 7 (data.length / 8), addr := 0, data := data }

/-- A response that has no route is discarded and counted (R330). -/
def noRouteDiscard (d : Dev) : Dev := raiseOncePerSecond 1 E.DRIFT_NO_ROUTE none (d.inc C.DRIFT_COUNTS_discarded)

/-- Send an answer. -/
def respond (p : Packet) (op status : Nat) (data : List Byte) (d : Dev) : Dev :=
  match inject (answerTo p op status data d) d with
  | (d, some _) => if op = opBounce then d.inc C.DRIFT_COUNTS_bounced else d
  | (d, none) => noRouteDiscard d

/-! ### Requests (R332 to R337) -/

/-- Requesters of the device. -/
def rqHost : Nat := 0
def rqFerry : Nat := 1
def rqKeeper : Nat := 2
def rqLaunch : Nat := 3
def rqServing : Nat := 4

/-- What DRIFT_TAGS shows. -/
def showTags (d : Dev) : Dev :=
  let n := d.fabric.reqs.length
  (d.set R.DRIFT_TAGS_outstanding 0 n).set R.DRIFT_TAGS_peak 0 (Nat.max n (d.get R.DRIFT_TAGS_peak))

/-- The lowest free tag of a requester. -/
def Dev.freeTag (d : Dev) (rq : Nat) : Option Nat :=
  let used := (d.fabric.reqs.filter (fun r => r.requester = rq)).map (fun r => r.packet.tag.toNat)
  (List.range (used.length + 1)).find? (fun t => !used.contains t && decide (t < 4096))

/-- A relay send of a Ferry command failed (R185): the command whose next hop it is notes it. -/
def ferryRelayLost (p : Packet) (d : Dev) : Dev :=
  { d with ferry := { d.ferry with runs := d.ferry.runs.map (fun e =>
      match e.2 with
      | some run => if run.cmd.hops.contains p.dest.toNat then (e.1, some { run with relayFail := true }) else e
      | none => e) } }

/-- The send of a launch RECORD ended with a status other than OK (R385): the launch unit notes it. -/
def launchSendLost (p : Packet) (d : Dev) : Dev :=
  if p.data.getD 28 0 = 0 then { d with launch := { d.launch with failed := d.launch.failed ++ [p.dest.toNat] } } else d

/-- A request completes: its tag's generation advances and its requester has the outcome. -/
def completeReq (r : Req) (status : Nat) (data : List Byte) (d : Dev) : Dev :=
  let key := 4096 * r.requester + r.packet.tag.toNat
  let d := { d with fabric := { d.fabric with
      reqs := d.fabric.reqs.filter (fun x => !decide (x = r)),
      gens := tput 0 d.fabric.gens key ((tget 0 d.fabric.gens key + 1) % 16),
      done := d.fabric.done ++ [⟨r.requester, r.packet.tag.toNat, status, data⟩] } }
  let d := if r.packet.opcode.toNat = opRelay ∧ status ≠ stOk then ferryRelayLost r.packet d else d
  let d := if r.packet.opcode.toNat = opLaunch ∧ status ≠ stOk then launchSendLost r.packet d else d
  showTags d

/-- Issue a request packet under a free tag (R332); without one it waits. -/
def issue (rq : Nat) (p : Packet) (d : Dev) : Dev :=
  match d.freeTag rq with
  | none => { d with fabric := { d.fabric with noTag := d.fabric.noTag ++ [(rq, p)] } }
  | some tag =>
    let gen := tget 0 d.fabric.gens (4096 * rq + tag)
    let p := { p with tag := BitVec.ofNat 12 tag, gen := BitVec.ofNat 4 gen }
    let (d, hop) := inject p d
    let r : Req :=
      { requester := rq, packet := p, hosted := bit (d.get R.DEV_FUNC_MODE_ACTIVE_active) 6,
        hop := hop.getD none, issued := d.now, again := false }
    let d := showTags { d with fabric := { d.fabric with reqs := d.fabric.reqs ++ [r] } }
    match hop with
    | some _ => d
    | none =>
      -- a ring without a usable direction bounces the packet to its source, which is this device (R330)
      let d := if d.noWay p then raiseOncePerSecond 1 E.DRIFT_NO_ROUTE none (d.inc C.DRIFT_COUNTS_bounced) else d
      completeReq r stNoRoute [] d

/-- Issue a request (R324, R332): a destination without a route completes it locally. -/
def request (rq dest op : Nat) (addr words : Nat) (data : List Byte) (vc : Nat) (d : Dev) : Dev :=
  let p : Packet :=
    { dest := BitVec.ofNat 20 dest, src := BitVec.ofNat 20 (d.get R.DEV_ADDR_address), x := 0, y := 0, z := 0,
      vc := BitVec.ofNat 2 vc, detoured := false, turned := false, opcode := BitVec.ofNat 8 op, status := 0,
      tag := 0, gen := 0, words := BitVec.ofNat 7 words, addr := BitVec.ofNat 64 addr, data := data }
  issue rq p d

/-- Issue the requests that waited for a tag, as far as tags are free. -/
def drainRequests (d : Dev) : Dev :=
  d.fabric.noTag.foldl (fun d e => issue e.1 e.2 d) { d with fabric := { d.fabric with noTag := [] } }

/-- R337: a READ lost with its link is issued once more the other way round, with a new generation. -/
def reissue (r : Req) (l : Nat) (d : Dev) : Dev :=
  let key := 4096 * r.requester + r.packet.tag.toNat
  let gen := (tget 0 d.fabric.gens key + 1) % 16
  let back := if l % 2 = 0 then l + 1 else l - 1
  let coords := (d.hallCoords r.packet.dest.toNat).getD (0, 0, 0)
  let p := { r.packet with
      gen := BitVec.ofNat 4 gen, detoured := true, turned := true,
      x := BitVec.ofNat 5 coords.1, y := BitVec.ofNat 5 coords.2.1, z := BitVec.ofNat 5 coords.2.2 }
  let r' : Req := { r with packet := p, hop := some back, again := true, issued := d.now }
  let d := { d with fabric := { d.fabric with
      gens := tput 0 d.fabric.gens key gen,
      reqs := d.fabric.reqs.map (fun x => if x = r then r' else x) } }
  if d.linkUp back then queueOn back p true d else completeReq r' stLinkLost [] (d.inc C.DRIFT_COUNTS2_link_lost)

/-- A request that a timeout or a lost link ends in this PX cycle is kept for it: a response that arrives in the same
cycle stands (Table 11.7). -/
def noteEnded (r : Req) (d : Dev) : Dev :=
  { d with fabric := { d.fabric with
      ended := d.fabric.ended.filter (fun e => decide (e.cycle = cycleOf d.now)) ++ [⟨r, cycleOf d.now⟩] } }

/-- R335: every request recorded against a link that went down completes LINK_LOST, or is issued once more. -/
def loseRequests (l : Nat) (d : Dev) : Dev :=
  (d.fabric.reqs.filter (fun r => r.hop = some l)).foldl (fun d r =>
    let d := noteEnded r (d.inc C.DRIFT_COUNTS2_link_lost)
    if r.packet.opcode.toNat = opRead ∧ ¬ r.again ∧ ¬ r.hosted then reissue r l d
    else completeReq r stLinkLost [] d) d

/-- R336: a packet that a down link hands back. -/
def handBack (p : Packet) (d : Dev) : Dev :=
  if p.vc = 1 then
    match d.route { p with turned := false } none with
    | (.out l p enters, turned) => queueOn l p enters (if turned then d.inc C.DRIFT_COUNTS_detours else d)
    | _ => noRouteDiscard d
  else if p.src.toNat = d.get R.DEV_ADDR_address then d
  else respond p opBounce stLinkLost [] d

/-! ### Link down (R308, R312) -/

/-- Down causes (Table 10.5). -/
def dcLockLost : Nat := 1
def dcReplayLimit : Nat := 2
def dcReplayExhausted : Nat := 3
def dcFenced : Nat := 4
def dcHost : Nat := 5
def dcClock : Nat := 6
def dcWidth : Nat := 7
def dcMiswired : Nat := 8
def dcTrainFailed : Nat := 9

/-- States of CW_STATUS. -/
def lsDown : Nat := 0
def lsTraining : Nat := 1
def lsUp : Nat := 2
def lsDegraded : Nat := 3
def lsFenced : Nat := 4
def lsDamped : Nat := 5

/-- DEV_FUNC_MODE_ACTIVE bit of a function: host-assisted (Table 1.6). -/
def Dev.hosted (d : Dev) (fn : Nat) : Bool := bit (d.get R.DEV_FUNC_MODE_ACTIVE_active) fn

/-- Start a training attempt (R309, R310). -/
def beginTraining (l : Nat) (d : Dev) : Dev :=
  (d.modLink l (fun x => { x with trainAt := some d.now, retryAt := none, wait := none })).set R.CW_STATUS_state l lsTraining

/-- What a link that is down does next (R309): trains at once, or asks the host. -/
def seekTraining (l : Nat) (d : Dev) : Dev :=
  if (d.link l).hosted then
    (d.modLink l (fun x => { x with wait := some (.train, d.now) })).raise E.CW_TRAIN_REQUEST none (some l)
  else beginTraining l d

/-- The admitted plan reserves positions on a link. -/
def Dev.reserves (d : Dev) (l : Nat) : Bool := decide (d.get R.CW_RESERVE_reserved l > 0)

/-- Whole packets at the front of an input buffer (R336). -/
def wholePackets (q : List DriftFlit) : List DriftFlit :=
  (q.reverse.dropWhile (fun f => !f.last)).reverse

/-- A link goes down (R308). A link that is already down keeps its state. -/
def linkDown (l cause : Nat) (d : Dev) : Dev :=
  if ¬ d.linkUp l then d
  else
    let x := d.link l
    let plans := (x.store.filter (fun s => match s.body with | .plan _ => true | .drift _ => false)).length +
      x.planQueue.length
    let back := x.kept.map (·.2) ++ x.waiting.map (·.1)
    -- flapping (R312)
    let window := (d.get R.CW_TRAIN_flap_window l * secU : Nat)
    let downs := (x.downs.filter (fun t => decide (tdiff d.now t < window))) ++ [d.now]
    let flap := decide (downs.length ≥ d.get R.CW_TRAIN_flap_limit l) && decide (cause ≠ dcFenced)
    let state := if cause = dcFenced then lsFenced else if flap then lsDamped else lsDown
    let fresh : LinkSt := {
      downs := downs, nextPkt := x.nextPkt, wire := x.wire, miswired := x.miswired, hosted := x.hosted,
      -- of the packets received, the receiver discards those of which it holds only part (R336)
      inBuf := (List.range 4).foldl (fun m v => tput [] m v (wholePackets (tget [] x.inBuf v))) [],
      oldFlits := (List.range 4).foldl (fun m v => tput 0 m v (wholePackets (tget [] x.inBuf v)).length) [],
      transit := x.transit,
      dampUntil := if flap then some (d.now + BitVec.ofNat 64 (d.get R.CW_TRAIN_damp_time l * secU)) else none }
    let d := d.modLink l (fun _ => fresh)
    let d := (((((d.set R.CW_STATUS_state l state).set R.CW_STATUS_cause l cause).set R.CW_STATUS_width l 0).set
      R.CW_STATUS_tx_width l 0).set R.CW_STATUS_lock l 0).set R.CW_STATUS_drift_stopped l 0
    let d := (((d.set R.CW_LANES_rx_active l 0).set R.CW_LANES_tx_active l 0).set R.CW_LANES_rx_spare_used l 0).set
      R.CW_LANES_tx_spare_used l 0
    let d := showCapacity (showStore l d)
    let d := if plans = 0 then d else d.inc C.CW_DISCARD_plan_discarded l plans
    let d := d.inc C.CW_COUNTS_downs l
    let st := d.get R.TIDE_STATUS_state
    let lost := d.reserves l && decide (st = 1 ∨ st = 2 ∨ st = 3)
    let d := d.raiseAll (if lost then [(E.CW_DOWN, none, some l), (E.CW_PLAN_LINK_LOST, none, some l)]
      else [(E.CW_DOWN, none, some l)])
    let d := back.foldl (fun d p => handBack p d) (loseRequests l d)
    if flap then d.raise E.CW_FLAPPING none (some l)
    else if cause = dcFenced then d
    else seekTraining l d

end Sys2Proof.Machine
end

