-- ==== Sys2Proof/Machine/Residency.lean ====
section
/-! DEFINITION. Residency of models in HBM (06): manifests, extents and their allocation, eviction, bad shard copies and
their repair; and reads of HBM with the error correction of R170 and R171. -/

namespace Sys2Proof.Machine

/-! ### Models and manifests -/

def msEmpty : Nat := 0
def msRegistered : Nat := 1
def msLoading : Nat := 2
def msResident : Nat := 3
def msRepairing : Nat := 4
def msEvicting : Nat := 5
def msFailed : Nat := 6

def Dev.modelState (d : Dev) (m : Nat) : Nat := d.get R.FERRY_MODEL_state m

/-- A manifest entry (Table 6.12). -/
structure Manifest where
  address : Nat
  length : Nat
  target : Nat
  slow : Bool
  neighbour : Option Nat
  offset : Nat
  deriving DecidableEq, Repr

/-- The manifest entry of a shard (R206). -/
def Dev.manifest (d : Dev) (m s : Nat) : Manifest :=
  let w := fun i => d.hallNum (d.get R.FERRY_MODEL_manifest m + 32 * s + 8 * i) 8
  { address := w 0, length := bits (w 1) 0 40, target := bits (w 1) 40 8, slow := bit (w 1) 63,
    neighbour := if bit (w 2) 20 then some (bits (w 2) 0 20) else none, offset := bits (w 3) 0 40 }

/-- Dies of a model's mask. -/
def Dev.diesOf (d : Dev) (m : Nat) : List Nat := [0, 1].filter (fun i => bit (d.get R.FERRY_MODEL_die_mask m) i)

/-- Extent base of a model on a die. -/
def Dev.extent (d : Dev) (m die : Nat) : Nat :=
  if die = 0 then d.get R.FERRY_MODEL_head_base m else d.get R.FERRY_MODEL_est_base m

/-- A model holds its extent (R189, R192): one that waits for room holds none. -/
def Dev.holdsExtent (d : Dev) (m : Nat) : Bool :=
  decide (d.modelState m = msLoading ∨ d.modelState m = msResident ∨ d.modelState m = msRepairing ∨
    d.modelState m = msEvicting) && !d.ferry.needRoom.contains m

def shardKey (m s : Nat) : Nat := m * 2 ^ 32 + s
def Dev.shard (d : Dev) (m s : Nat) : ShardSt := tget {} d.ferry.shards (shardKey m s)
def Dev.modShard (d : Dev) (m s : Nat) (f : ShardSt → ShardSt) : Dev :=
  { d with ferry := { d.ferry with shards := tput {} d.ferry.shards (shardKey m s) (f (d.shard m s)) } }

/-- Shards of a model that HBM holds: those whose manifest entry is not in the slower tier (R202). -/
def Dev.hbmShards (d : Dev) (m : Nat) : List Nat :=
  (List.range (d.get R.FERRY_MODEL_shard_count m)).filter (fun s => ¬ (d.manifest m s).slow)

/-- A shard is verified on every die of the model's mask. -/
def Dev.shardDone (d : Dev) (m s : Nat) : Bool := (d.diesOf m).all (fun i => bit (d.shard m s).good i)

/-- What word 7 of the entry shows. -/
def showModel (m : Nat) (d : Dev) : Dev :=
  let all := List.range (d.get R.FERRY_MODEL_shard_count m)
  let bad := (all.map (fun s => popCount (d.shard m s).bad 2)).foldl (· + ·) 0
  (d.set R.FERRY_MODEL_bad_copies m bad).set R.FERRY_MODEL_verified_shards m
    (all.filter (fun s => d.shardDone m s)).length

/-- Copy `n` bytes of one memory to a place in another. -/
def copyMem (src : List Host.Cell) (from' n dst : Nat) (into : List Host.Cell) : List Host.Cell :=
  (src.filter (fun c => decide (from' ≤ c.1 ∧ c.1 < from' + n))).foldl (fun m c => mput m (c.1 - from' + dst) c.2)
    (into.filter (fun c => !decide (dst ≤ c.1 ∧ c.1 < dst + n)))

/-- What a half of HBM that holds an uncorrectable error leaves in a copy of it: the copy holds one too, so no reader
takes the data for good (R171, notes/assumptions/105.md). -/
def carryErrs (dieS a n dieD b : Nat) (d : Dev) : Dev :=
  let lo := dieS * 2 ^ 34 + a / 32
  let into := dieD * 2 ^ 34 + b / 32
  let moved := d.hbmErr.filter (fun e => decide (lo ≤ e.1 ∧ e.1 < lo + n / 32))
  let kept := d.hbmErr.filter (fun e => !decide (into ≤ e.1 ∧ e.1 < into + n / 32))
  { d with hbmErr := moved.foldl (fun m e => tput 0 m (into + (e.1 - lo)) e.2) kept }

/-! ### Ferry commands and their completion (R181, R187) -/

def fcFetch : Nat := 1
def fcPush : Nat := 2
def fcRecv : Nat := 3
def fcMirror : Nat := 4
def fcEvict : Nat := 5
def fcRehash : Nat := 6

def fsVerified : Nat := 0
def fsFormat : Nat := 1
def fsKey : Nat := 2
def fsTag : Nat := 3
def fsDigest : Nat := 4
def fsSourceLost : Nat := 5
def fsSpace : Nat := 6
def fsAbsent : Nat := 7
def fsDuplicate : Nat := 8
def fsBusy : Nat := 9
def fsAborted : Nat := 10
def fsNoRelay : Nat := 11
def fsRelayLost : Nat := 12

def Dev.run (d : Dev) (i : Nat) : Option FerryRun := tget none d.ferry.runs i
def Dev.setRun (d : Dev) (i : Nat) (r : Option FerryRun) : Dev :=
  { d with ferry := { d.ferry with runs := tput none d.ferry.runs i r } }

/-- Entries on the Isthmus that belong to a Ferry run. -/
def IstBody.ofRun (id : Nat) : IstBody → Bool
  | .ferry run _ _ => decide (run = id)
  | .mirror run _ _ _ => decide (run = id)
  | _ => false

/-- A run that ends early sends nothing more across the Isthmus. -/
def Dev.dropRun (d : Dev) (id : Nat) : Dev := d.istDrop (fun r => r.body.ofRun id)

/-- Entries of the command ring. -/
def Dev.ferrySize (d : Dev) : Nat := 64 * 2 ^ d.get R.FERRY_RING_CTL_size

/-- Die and die address of a ring entry; none where the ring is not in area SYSTEM or not aligned. -/
def Dev.ferryEntry (d : Dev) (i : Nat) : Option (Nat × Nat) :=
  match d.hbmAt (d.get R.FERRY_RING_BASE_base) with
  | some (die, a) => if a % 64 = 0 ∧ d.areaAt die (a + 64 * i) 64 = areaSystem then some (die, a + 64 * i) else none
  | none => none

/-- FERRY_RING_HEAD advances past every completed command at the head. -/
def advanceHead : Nat → Dev → Dev
  | 0, d => d
  | n + 1, d =>
    let h := d.get R.FERRY_RING_HEAD_head
    if d.ferry.complete.contains h then
      let d := { d with ferry := { d.ferry with complete := d.ferry.complete.filter (fun x => !decide (x = h)) } }
      advanceHead n (d.set R.FERRY_RING_HEAD_head 0 ((h + 1) % d.ferrySize))
    else d

/-- Word 7, the head, and EV_FERRY_DONE (R181). -/
def reportCmd (c : FerryCmd) (status : Nat) (d : Dev) : Dev :=
  match c.slot with
  | none => d
  | some i =>
    let d := match d.ferryEntry i with
      | some (die, a) => hbmWrite die (a + 56) (leBytes 8 (status + 256 + 65536 * (d.now.toNat % 2 ^ 48))) d
      | none => d
    let d := { d with ferry := { d.ferry with complete := d.ferry.complete ++ [i] } }
    let d := advanceHead d.ferry.complete.length d
    if c.notify then d.raise E.FERRY_DONE none (some c.model) else d

/-- A command that brings or mends a shard copy. -/
def FerryCmd.writes (c : FerryCmd) : Bool := decide (c.op = fcFetch ∨ c.op = fcPush ∨ c.op = fcRecv ∨ c.op = fcMirror)

/-- Running commands of a model, or all, complete ABORTED (R187, Table 6.8). Those that load a LOADING model, or repair
one, are kept for the release where `keep` (R188, R198). -/
def abortRuns (pick : FerryCmd → Bool) (keep : Bool) (d : Dev) : Dev :=
  d.ferry.runs.foldl (fun d e => match e.2 with
    | some r =>
      if pick r.cmd then
        let d := reportCmd r.cmd fsAborted ((d.setRun e.1 none).dropRun r.id)
        if keep ∧ r.cmd.writes ∧ (d.modelState r.cmd.model = msLoading ∨
            (d.modelState r.cmd.model = msRepairing ∧ (d.shard r.cmd.model r.cmd.shard).bad ≠ 0)) then
          { d with ferry := { d.ferry with aborted := d.ferry.aborted ++ [{ r.cmd with slot := none, notify := false }] } }
        else d
      else d
    | none => d) d

/-! ### Extents -/

/-- Zero bytes [lo, lo + n) of a die's HBM. -/
def zeroHbm (die lo n : Nat) (d : Dev) : Dev :=
  let k := hbmKey die lo
  let e := die * 2 ^ 34 + lo / 32
  { d with
    mem := d.mem.filter (fun p => !decide (k ≤ p.1 ∧ p.1 < k + n)),
    hbmErr := d.hbmErr.filter (fun p => !decide (e ≤ p.1 ∧ p.1 < e + n / 32)) }

/-- Zero a model's extents, where it holds any. -/
def zeroExtents (m : Nat) (d : Dev) : Dev :=
  if ¬ d.holdsExtent m then d
  else (d.diesOf m).foldl (fun d i => zeroHbm i (d.extent m i) (d.get R.FERRY_MODEL_size m) d) d

/-- The segments that keep values of a model lose them (R196). -/
def discardKept (m : Nat) (d : Dev) : Dev :=
  (List.range 16).foldl (fun d r => ((d.reg r).cells.map (·.1)).foldl (fun d c => d.modCell r c (fun s =>
    { s with loaded := s.loaded.filter (fun e => match e.2 with | some k => !decide (k.1 = m) | none => true) })) d) d

/-- What the Ferry forgets of a model. -/
def forgetModel (m : Nat) (d : Dev) : Dev :=
  showModel m { d with ferry := { d.ferry with
      shards := d.ferry.shards.filter (fun e => !decide (e.1 / 2 ^ 32 = m)),
      own := d.ferry.own.filter (fun c => !decide (c.model = m)),
      aborted := d.ferry.aborted.filter (fun c => !decide (c.model = m)),
      waits := d.ferry.waits.filter (fun w => !decide (w.1 = m)),
      needRoom := d.ferry.needRoom.filter (fun x => !decide (x = m)),
      slow := tput none d.ferry.slow m none } }

/-- A model enters FAILED (R189): the load or repair is abandoned with its running commands, and its extent is zeroed
and freed. -/
def modelFail (m : Nat) (d : Dev) : Dev :=
  let d := abortRuns (fun c => decide (c.model = m ∧ c.op ≠ fcEvict)) false d
  ((forgetModel m (zeroExtents m d)).set R.FERRY_MODEL_state m msFailed).raise E.MODEL_FAILED none (some m)

/-- Wait for the host to command something for a model. -/
def ferryWait (m : Nat) (w : FerryWait) (d : Dev) : Dev :=
  { d with ferry := { d.ferry with
      waits := d.ferry.waits.filter (fun x => !decide (x.1 = m ∧ x.2.1 = w)) ++ [(m, w, d.now)] } }

/-- The Ferry issues a command to itself. -/
def postOwn (c : FerryCmd) (d : Dev) : Dev := { d with ferry := { d.ferry with own := d.ferry.own ++ [c] } }

/-- An own command for a shard. -/
def ownCmd (op m s target source address offset : Nat) : FerryCmd :=
  { op := op, model := m, notify := false, shard := s, target := target, source := source, address := address,
    offset := offset, hops := [], slot := none }

/-- Post a FETCH from the storage target of a shard's manifest entry, or a RECV from its neighbour. -/
def postFetch (m s : Nat) (d : Dev) : Dev :=
  let e := d.manifest m s
  postOwn (ownCmd fcFetch m s e.target 0 e.address e.offset) (d.modShard m s (fun x => { x with tried := x.tried ||| 4 }))
def postRecv (m s nb : Nat) (d : Dev) : Dev :=
  let e := d.manifest m s
  postOwn (ownCmd fcRecv m s 0 nb 0 e.offset) (d.modShard m s (fun x => { x with tried := x.tried ||| 2 }))

/-! ### Allocation and eviction (R192 to R195, R202) -/

/-- First run of `size` bytes of [lo, lo + len) on a 64 KiB boundary that avoids the taken runs, from the lowest address
upward. -/
def firstFit (lo len size : Nat) (taken : List (Nat × Nat)) : Option Nat :=
  minOf (((lo :: taken.map (fun t => t.1 + t.2)).map (fun x => (x + 65535) / 65536 * 65536)).filter (fun x =>
    decide (lo ≤ x ∧ x + size ≤ lo + len) && taken.all (fun t => decide (x + size ≤ t.1 ∨ t.1 + t.2 ≤ x))))

/-- Where a model's extent goes on a die. -/
def Dev.findExtent (d : Dev) (m die : Nat) : Option Nat :=
  let a := d.area die areaWeight
  let taken := ((List.range 128).filter (fun x => decide (x ≠ m) && d.holdsExtent x && (d.diesOf x).contains die)).map
    (fun x => (d.extent x die, d.get R.FERRY_MODEL_size x))
  firstFit a.1 a.2 (d.get R.FERRY_MODEL_size m) (taken.filter (fun t => decide (t.2 > 0)))

/-- Allocate a model's extent on every die of its mask; none where a die has no room. -/
def allocate (m : Nat) (d : Dev) : Option Dev :=
  let found := (d.diesOf m).map (fun i => (i, d.findExtent m i))
  if found.all (fun f => f.2.isSome) then
    some (found.foldl (fun d f =>
      if f.1 = 0 then d.set R.FERRY_MODEL_head_base m (f.2.getD 0) else d.set R.FERRY_MODEL_est_base m (f.2.getD 0)) d)
  else none

/-- Plaintext bytes of a model's slow-tier shards. -/
def Dev.slowBytes (d : Dev) (m : Nat) : Nat :=
  (((List.range (d.get R.FERRY_MODEL_shard_count m)).map (d.manifest m)).filter (·.slow)).foldl
    (fun n e => n + (e.length - 2048)) 0

/-- Where two staging buffers go in Estuary's area FERRY (R202). -/
def Dev.findStaging (d : Dev) (size : Nat) : Option (Nat × Nat) :=
  let a := d.area 1 areaFerry
  let taken := d.ferry.slow.flatMap (fun e => match e.2 with
    | some s => [(s.base0, s.size), (s.base1, s.size)]
    | none => [])
  match firstFit a.1 a.2 size taken with
  | none => none
  | some x => (firstFit a.1 a.2 size ((x, size) :: taken)).map (fun y => (x, y))

/-- Where a staging buffer lies. -/
def SlowSt.at (s : SlowSt) (buf : Nat) : Nat := if buf = 0 then s.base0 else s.base1

/-- Every HBM shard is verified on every die: the model becomes RESIDENT (Table 6.7). -/
def settleModel (m : Nat) (d : Dev) : Dev :=
  let d := showModel m d
  if (d.modelState m = msLoading ∨ d.modelState m = msRepairing) ∧ (d.hbmShards m).all (fun s => d.shardDone m s) then
    d.set R.FERRY_MODEL_state m msResident
  else d

/-- Commands for a model whose extent is allocated (R186, R202). -/
def fetchModel (m : Nat) (d : Dev) : Dev :=
  let slow := d.slowBytes m
  let place : Option (Option SlowSt) :=
    if slow = 0 then some none else (d.findStaging slow).map (fun b =>
      some { base0 := b.1, base1 := b.2, size := slow, inUse := 0, ready := 0 })
  match place with
  | none => modelFail m d
  | some st =>
    let d := { d with ferry := { d.ferry with slow := tput none d.ferry.slow m st } }
    if d.hosted 3 then ferryWait m .load (d.raise E.MODEL_NEEDED none (some m))
    else
      let d := (d.hbmShards m).foldl (fun d s =>
        let e := d.manifest m s
        if e.target ≠ 0xFF then postFetch m s d
        else match e.neighbour with
          | some nb => postRecv m s nb d
          | none => d) d
      if (d.hbmShards m).any (fun s => decide ((d.shard m s).tried = 0)) then modelFail m d else settleModel m d

/-- The next victim of R193. -/
def Dev.victim (d : Dev) : Option Nat :=
  let cs := (List.range 128).filter (fun m =>
    decide (d.modelState m = msResident ∧ d.get R.FERRY_MODEL_users m = 0) && !d.is R.FERRY_MODEL_pin m)
  cs.foldl (fun b m => match b with
    | none => some m
    | some x => if d.get R.FERRY_MODEL_last_use m < d.get R.FERRY_MODEL_last_use x then some m else some x) none

/-- Eviction begins: the entry is EVICTING while its extent is zeroed (R195). -/
def beginEvict (m : Nat) (d : Dev) : Dev := d.set R.FERRY_MODEL_state m msEvicting

/-- A model waits for room (R193, R194). -/
def makeRoom (m : Nat) (d : Dev) : Dev :=
  let need := fun d : Dev => { d with ferry := { d.ferry with
      needRoom := d.ferry.needRoom.filter (fun x => !decide (x = m)) ++ [m] } }
  if d.hosted 4 then need (ferryWait m .evict (d.raise E.EVICT_NEEDED none (some m)))
  else match d.victim with
    | some v => need (beginEvict v d)
    | none => modelFail m d

/-- Allocate for a loading model, or make room. -/
def tryLoad (m : Nat) (d : Dev) : Dev :=
  if d.modelState m ≠ msLoading then d
  else match allocate m d with
  | some d => fetchModel m { d with ferry := { d.ferry with needRoom := d.ferry.needRoom.filter (fun x => !decide (x = m)) } }
  | none => makeRoom m d

/-- A model enters LOADING (R189, R192): it holds no extent until one is allocated. -/
def loadModel (m : Nat) (d : Dev) : Dev :=
  let d := (forgetModel m d).set R.FERRY_MODEL_state m msLoading
  tryLoad m { d with ferry := { d.ferry with needRoom := d.ferry.needRoom ++ [m] } }

/-- Models that wait for room try again. -/
def retryLoads (d : Dev) : Dev := d.ferry.needRoom.foldl (fun d m => tryLoad m d) d

/-- The zeroing of an evicted extent is complete (R195, R196). -/
def endEvict (m : Nat) (d : Dev) : Dev :=
  (forgetModel m (discardKept m (zeroExtents m d))).set R.FERRY_MODEL_state m msRegistered

/-! ### Bad copies and repair (R197, R198) -/

/-- The next source of R198 for a bad copy: 0 the other die, 1 the neighbour, 2 the storage target. -/
def Dev.repairSource (d : Dev) (m s : Nat) : Option Nat :=
  let x := d.shard m s
  let e := d.manifest m s
  if x.good ≠ 0 ∧ ¬ bit x.tried 0 then some 0
  else if e.neighbour.isSome ∧ ¬ x.direct ∧ ¬ bit x.tried 1 then some 1
  else if e.target ≠ 0xFF ∧ d.quayPresent ∧ ¬ bit x.tried 2 then some 2
  else none

/-- Post the repair from the next source; with none left the model enters FAILED. -/
def repairNext (m s : Nat) (d : Dev) : Dev :=
  match d.repairSource m s with
  | some 0 => postOwn (ownCmd fcMirror m s 0 0 0 (d.shard m s).offset)
      (d.modShard m s (fun x => { x with tried := x.tried ||| 1 }))
  | some 1 => postRecv m s ((d.manifest m s).neighbour.getD 0) d
  | some _ => postFetch m s d
  | none => modelFail m d

/-- A command that brings or mends a copy of a shard is running or posted: what follows a copy that becomes bad waits
for its end. -/
def Dev.mending (d : Dev) (m s : Nat) : Bool :=
  let is := fun (c : FerryCmd) => c.writes && decide (c.model = m ∧ c.shard = s)
  d.ferry.own.any is || d.ferry.aborted.any is || d.ferry.runs.any (fun e => match e.2 with
    | some r => is r.cmd
    | none => false)

/-- The repair of a shard goes on (R198, R200). -/
def seekRepair (m s : Nat) (d : Dev) : Dev := if d.hosted 7 then ferryWait m (.repair s) d else repairNext m s d

/-- A shard copy becomes bad (R197); one that is bad already stays so without a further event (Table 6.8). A repair that
begins has tried no source. -/
def markBad (m s die : Nat) (d : Dev) : Dev :=
  let old := d.shard m s
  if bit old.bad die then d
  else
    let fresh := decide (old.bad = 0) && !decide (d.modelState m = msLoading)
    let d := d.modShard m s (fun x =>
      { x with
        bad := setBit x.bad die true, good := setBit x.good die false, tried := if fresh then 0 else x.tried })
    let d := (d.inc C.FERRY_COUNTS_bad).raise E.SHARD_BAD none (some m)
    let d := showModel m (if d.modelState m = msResident then d.set R.FERRY_MODEL_state m msRepairing else d)
    if d.modelState m ≠ msRepairing ∨ d.mending m s then d else seekRepair m s d

/-- An uncorrectable error at a die address marks the shard copy that holds it (R197). -/
def markAt (die a : Nat) (d : Dev) : Dev :=
  let hit := d.ferry.shards.filter (fun e =>
    let m := e.1 / 2 ^ 32
    let lo := d.extent m die + e.2.offset
    d.holdsExtent m && bit e.2.good die && decide (lo ≤ a ∧ a < lo + e.2.length))
  hit.foldl (fun d e => markBad (e.1 / 2 ^ 32) (e.1 % 2 ^ 32) die d) d

/-! ### Reads of HBM (R170, R171) -/

/-- Who reads HBM, in the codes of HB_ECC_LAST.found_by; 4 is the replay spill, whose errors are counted with drift's. -/
def byPlan : Nat := 0
def byFerry : Nat := 1
def byDrift : Nat := 2
def byScrub : Nat := 3

/-- What R171 does with an uncorrectable error at a die address. -/
def hbmUe (reader die a : Nat) (region : Option Nat) (d : Dev) : Dev :=
  let s := stackOf die a
  let area := d.areaAt die a 1
  let d := (((d.set R.HB_ECC_LAST_address s a).set R.HB_ECC_LAST_area s area).set R.HB_ECC_LAST_found_by s reader).set
    R.HB_ECC_LAST_valid s 1
  let d := d.inc C.HB_ECC_COUNTS_uncorrectable s
  if area = areaReplay then d
  else
    let d := if reader = byPlan then d.raise E.HBM_UE_PLAN region (some s) else d
    if area = areaWeight then (if reader = byDrift then d else markAt die a (d.raise E.HBM_UE none (some s)))
    else if reader = byDrift then d.raise E.HBM_UE none (some s)
    else d

/-- A corrected error (R170). -/
def hbmCorrect (die a : Nat) (d : Dev) : Dev :=
  let s := stackOf die a
  let d := d.inc C.HB_ECC_COUNTS_corrected s
  let key := 256 * 6 + s
  let due := match tget none d.evt.lastOnce key with
    | none => true
    | some t => decide (tdiff d.now t ≥ (secU : Nat))
  if due then
    ({ d with evt := { d.evt with lastOnce := tput none d.evt.lastOnce key (some d.now) } }).raise E.HBM_CORRECTED none
      (some s)
  else d

/-- Clear the errors noted for a half, with its data replaced by free values where `spoil`. -/
def fixHalf (key : Nat) (spoil : Bool) (d : Dev) : Dev :=
  let d := { d with hbmErr := tput 0 d.hbmErr key 0 }
  if spoil then
    let x := d.draw
    { x.2 with mem := mputn x.2.mem (hbmKey (key / 2 ^ 34) (key % 2 ^ 34 * 32)) 32 x.1 }
  else d

/-- How the read of one half with `n` wrong symbols fares: one is corrected, two are detected, and more have one of
three outcomes, by a free value (notes/assumptions/17.md). Second part: an uncorrectable error is reported. -/
def readHalf (reader : Nat) (region : Option Nat) (key n : Nat) (d : Dev) : Dev × Bool :=
  let die := key / 2 ^ 34
  let a := key % 2 ^ 34 * 32
  if n ≤ 1 then (hbmCorrect die a (fixHalf key false d), false)
  else if n = 2 then (hbmUe reader die a region d, true)
  else
    let x := d.draw
    if x.1 % 3 = 0 then (hbmUe reader die a region x.2, true)
    else if x.1 % 3 = 1 then (hbmCorrect die a (fixHalf key true x.2), false)
    else (fixHalf key true x.2, false)

/-- The errors met by a read of [a, a + n) of a die: second part, whether any was uncorrectable. -/
def hbmRead (reader : Nat) (region : Option Nat) (die a n : Nat) (d : Dev) : Dev × Bool :=
  let lo := die * 2 ^ 34 + a / 32
  let hi := die * 2 ^ 34 + (a + n + 31) / 32
  (d.hbmErr.filter (fun e => decide (lo ≤ e.1 ∧ e.1 < hi))).foldl (fun acc e =>
    let x := readHalf reader region e.1 e.2 acc.1
    (x.1, acc.2 || x.2)) (d, false)

/-- A device engine copies bytes from HBM to HBM: errors are corrected as they are read, and what cannot be corrected
goes with the data. -/
def hbmMove (dieS a n dieD b : Nat) (d : Dev) : Dev :=
  let d := (hbmRead byFerry none dieS a n d).1
  carryErrs dieS a n dieD b { d with mem := copyMem d.mem (hbmKey dieS a) n (hbmKey dieD b) d.mem }

/-- Errors that enter HBM with a command. -/
def takeHbmUpsets (us : List HbmUpset) (d : Dev) : Dev :=
  us.foldl (fun d u =>
    if u.addr.toNat < hbmSize u.die.val then
      let key := u.die.val * 2 ^ 34 + u.addr.toNat / 32
      { d with hbmErr := tput 0 d.hbmErr key (tget 0 d.hbmErr key + u.symbols) }
    else d) d

end Sys2Proof.Machine
end

