-- ==== Sys2Proof/Machine/Tides.lean ====
section
/-! DEFINITION. The tide unit (02): tide marks and starts, the end of a tide, lag, deadlines, hold limits, and the
TIDE_CTL and TIDE_PERIOD writes. -/

namespace Sys2Proof.Machine

/-- M(k) (R30). -/
def Dev.markOf (d : Dev) (k : Nat) : BitVec 64 :=
  BitVec.ofNat 64 (d.get R.TIDE_ORIGIN_origin + k * d.get R.TIDE_PERIOD_period)

/-- States of TIDE_STATUS (Table 2.11). -/
def tsStopped : Nat := 0
def tsArmed : Nat := 1
def tsRunning : Nat := 2
def tsQuiesced : Nat := 3
def tsFaulted : Nat := 4

/-- The regions that the admitted plan uses (R33), as indices. -/
def Dev.usedRegions (d : Dev) : List Nat := d.plan.used.map (·.val)

/-- Latch the TIDE_CTL values that take effect at a tide start (R54): those from before a write of the same PX cycle
(Table 2.5). -/
def latchTideCtl (d : Dev) : Dev :=
  { d with tide := { d.tide with
      policy := d.before R.TIDE_CTL_overrun_policy, lagLimit := d.before R.TIDE_CTL_lag_limit,
      grace := d.before R.TIDE_CTL_landing_grace, wakeLead := d.before R.TIDE_CTL_wake_lead } }

/-- Tide of the most recent mark at a time (Table 2.10); the value given before the first mark. -/
def Dev.latestMark (d : Dev) (t : BitVec 64) (none' : Nat) : Nat :=
  let x := tdiff t (BitVec.ofNat 64 (d.get R.TIDE_ORIGIN_origin))
  let p := d.get R.TIDE_PERIOD_period
  if p = 0 ∨ x < 0 then none' else x.toNat / p % 2 ^ 48

/-- Start tide k at time t (R34, R36, R51, R52, R92); `resumed` a start that the lag limit in force judges. -/
def startTide (k : Nat) (t : BitVec 64) (d : Dev) : Dev :=
  let d := latchTideCtl (d.advance t)
  let lag := tdiff t (d.markOf k)
  if lag > (d.tide.lagLimit * d.get R.TIDE_PERIOD_period : Nat) then d.raise E.LAG_LIMIT
  else
    let lagN := lag.toNat
    let d := (d.set R.TIDE_LAG_lag 0 lagN).set R.TIDE_LAG_lag_peak 0 (Nat.max lagN (d.get R.TIDE_LAG_lag_peak))
    let d := if lag > 0 then d.inc C.TIDE_COUNTS_lagged_starts else d
    let d := ((d.setB R.TIDE_STATUS_lagging 0 (decide (lag > 0))).set R.TIDE_STATUS_deferred 0 0).set
      R.TIDE_NUMBER_tide 0 k
    let d := { d with tide := { d.tide with startTime := t, ended := none } }
    let open' := sortBy (fun a b => decide (a ≤ b)) (d.usedRegions.filter (fun r => (d.reg r).endedTide.isNone))
    if open' ≠ [] ∧ open'.length < d.usedRegions.length then
      open'.foldl (fun d r => d.raise E.PLAN_END_MISMATCH (some r)) d
    else
      d.usedRegions.foldl (fun d r =>
        showStatus r (d.modReg r (fun u =>
          { u with started := true, tideTick := 0, holdTicks := 0, streamRun := true, sent := [], lread := [],
                   once := [], edge := t, portUse := [], lastHold := none }))) d

/-- The state becomes RUNNING and tide k starts (R56, R59). -/
def startRunning (k : Nat) (t : BitVec 64) (d : Dev) : Dev := startTide k t (d.set R.TIDE_STATUS_state 0 tsRunning)

/-- REGION_WAKE (R34): `wake_lead` before a start, a region that the plan uses enters WAKE. When tides start back to
back a region in DONE goes straight to RUN. -/
def execRegionWake (r : Nat) (t : BitVec 64) (d : Dev) : Dev :=
  let d := d.advance t
  let st := d.get R.TIDE_STATUS_state
  let next := if st = tsArmed then d.markOf (d.get R.TIDE_LAUNCH_launch_tide)
    else d.markOf (d.get R.TIDE_NUMBER_tide + 1)
  let lead := d.tide.wakeLead * nsU
  if (st = tsArmed ∨ st = tsRunning) ∧ r ∈ d.usedRegions ∧ tdiff t next ≥ -(lead : Int) ∧
      ((d.reg r).phase = .dark ∨ (d.reg r).phase = .done) ∧ ¬ (d.reg r).started then
    d.modReg r (fun u => { u with phase := .wake, edge := t })
  else d

/-- The later of two times. -/
def laterOf (a b : BitVec 64) : BitVec 64 := if tdiff a b ≥ 0 then a else b

/-- start(k+1) (R36): the mark M(k+1) or end(k), whichever is later; none while tide k has not ended. -/
def Dev.nextStart (d : Dev) : Option (BitVec 64) :=
  d.tide.ended.map (fun e => laterOf (d.markOf (d.get R.TIDE_NUMBER_tide + 1)) e)

/-- TIDE_START (R36): tide k+1 starts at start(k+1), which has come by time `t`. A step boundary that began at end(k)
comes first, since it may stop the plan (R235). -/
def execTideStart (t : BitVec 64) (d : Dev) : Dev :=
  let d := d.advance t
  match d.nextStart with
  | some s =>
    if d.get R.TIDE_STATUS_state = tsRunning ∧ d.svc.due = none ∧ tdiff t s ≥ 0 then
      startTide (d.get R.TIDE_NUMBER_tide + 1) s d
    else d
  | none => d

/-- The tide unit, on Estuary, sees a region's MARK line: a Headland region's, by the states that the Estuary receiver of
the sideband last accepted (R20, R278, R279). The eight lines of one function that a region drives across the Isthmus
carry one state; the first is read. -/
def Dev.seesMark (d : Dev) (r : Nat) : Bool := decide (dieOf r = 1) || d.ist.sideE.states.getLsbD (32 * (r % 8))

/-- Every region that the plan uses has raised MARK for the tide in progress (R36): a region that has not yet executed
its tick 0 still drives the MARK of the tide before (R35). -/
def Dev.allMarked (d : Dev) : Bool :=
  d.usedRegions ≠ [] && d.usedRegions.all (fun r => (d.reg r).mark && !(d.reg r).started && d.seesMark r)

/-- A crossing channel still holds an entry (R42). -/
def Dev.residue (d : Dev) : Bool :=
  (List.range 16).any (fun r => (List.range 8).any (fun ch => let c := d.chan r ch; c.flying ≠ [] || c.fifo ≠ []))

/-- What the tide unit records of each region at end(k) (Table 2.17). -/
def recordRegions (d : Dev) : Dev :=
  d.usedRegions.foldl (fun d r =>
    let u := d.reg r
    (d.set R.TIDE_REGION_end_offset r (u.edge - d.tide.startTime).toNat).set R.TIDE_REGION_hold_ticks_last r
      (Nat.min 0xFFFF u.holdTicks)) d

/-- The plan is over (R92), or the controller stops it between tides (R235): STOPPED without a fault, TIDE_NUMBER at
the most recent mark (Table 2.10). -/
def stopTides (d : Dev) : Dev :=
  let d := d.usedRegions.foldl (fun d r => d.modReg r (fun u =>
    { u with phase := .dark, mark := false, started := false, streamRun := false })) d
  (((({ d with tide := { d.tide with ended := none } }).set R.TIDE_STATUS_state 0 tsStopped).set
    R.TIDE_STATUS_deferred 0 0).set R.TIDE_NUMBER_tide 0 (d.latestMark d.now (d.get R.TIDE_NUMBER_tide)))

/-- The tide in progress has not ended, and its deadline has not been judged (R48). -/
def Dev.deadlineOpen (d : Dev) : Bool :=
  decide (d.get R.TIDE_STATUS_state = tsRunning) && d.tide.ended.isNone && !d.is R.TIDE_STATUS_deferred

/-- E(k) passes before end(k) (R48 to R50). -/
def missDeadline (d : Dev) : Dev :=
  if d.tide.policy = 0 then d.raise E.TIDE_OVERRUN
  else ((d.set R.TIDE_STATUS_deferred 0 1).inc C.TIDE_COUNTS_overruns).raise E.TIDE_DEFERRED

/-- A channel is not empty at end(k) (R42). DESIGN CHOICE (notes/assumptions/91.md): the fault is one of the device
level. -/
def judgeResidue (residue : Bool) (d : Dev) : Dev := if residue then d.raise E.CROSSING_RESIDUE else d

/-- What follows end(k): the plan's end, or a quiesce (R59, R92). -/
def afterTide (d : Dev) : Dev :=
  if d.usedRegions.all (fun r => (d.reg r).endedTide.isSome) then stopTides d
  else if d.tide.quiesce then d.set R.TIDE_STATUS_state 0 tsQuiesced
  else d

/-- end(k) (R36, R42, R59, R92, R398). A deadline that passed before it is judged first; an overrun under FAULT leaves
no end to record, but a residue found is raised beside it (Table 2.5). -/
def endTide (t : BitVec 64) (d : Dev) : Dev :=
  let d := d.advance t
  let k := d.get R.TIDE_NUMBER_tide
  let residue := d.residue
  let d := if d.deadlineOpen ∧ tdiff t d.tide.startTime > (d.get R.TIDE_PERIOD_period : Nat) then missDeadline d else d
  if d.get R.TIDE_STATUS_state = tsFaulted then judgeResidue residue d
  else
    let d := { recordRegions d with tide := { (recordRegions d).tide with ended := some t } }
    let d := judgeResidue residue ((d.consumeAtEnd k).inc C.LIFE_TIDES_tides)
    if d.get R.TIDE_STATUS_state = tsFaulted then d else afterTide d

/-- TIDE_END happens: a running tide whose regions have all raised MARK. -/
def Dev.tideEnds (d : Dev) : Bool :=
  decide (d.get R.TIDE_STATUS_state = tsRunning) && d.tide.ended.isNone && d.allMarked

/-- The hold that the tide unit judges in a region: the one in progress, or the one that a plan fault of this PX cycle
ended (R61). -/
def Dev.judgedHold (d : Dev) (r : Nat) : Option Hold :=
  (d.reg r).hold.orElse (fun _ => if d.faultNow then (d.reg r).lastHold else none)

/-- LANDING_GRACE_EXPIRY (R45): every landing still incomplete after the grace is missed. -/
def execLandingGraceExpiry (r : Nat) (t : BitVec 64) (d : Dev) : Dev :=
  let d := d.advance t
  match d.judgedHold r with
  | some h => if h.landTicks ≥ d.tide.grace then (h.lands.filter (d.landOpen r)).foldl (fun d id => missNow r id d) d else d
  | none => d

/-- TIDE_DEADLINE_EXPIRY (R48 to R50): E(k) passes before end(k). A tide that a plan fault of this PX cycle stopped
overran too (R61). -/
def execTideDeadlineExpiry (t : BitVec 64) (d : Dev) : Dev :=
  let d := d.advance t
  if tdiff t d.tide.startTime < (d.get R.TIDE_PERIOD_period : Nat) then d
  else if d.deadlineOpen then missDeadline d
  else if d.faultNow ∧ d.tide.faultRun ∧ d.tide.policy = 0 ∧ d.get R.TIDE_FAULT_cause ≠ 1 then d.raise E.TIDE_OVERRUN
  else d

/-- HOLD_LIMIT_EXPIRY (R55). -/
def execHoldLimitExpiry (r : Nat) (t : BitVec 64) (d : Dev) : Dev :=
  let d := d.advance t
  match d.judgedHold r with
  | some h => if tdiff t h.since > (d.get R.TIDE_HOLD_LIMIT_limit : Nat) then d.raise E.HOLD_LIMIT (some r) else d
  | none => d

/-- ARMED_START (R56, R60): the plan starts at M(L), which has come by time `t`. -/
def execArmedStart (t : BitVec 64) (d : Dev) : Dev :=
  let d := d.advance t
  let l := d.get R.TIDE_LAUNCH_launch_tide
  if d.get R.TIDE_STATUS_state = tsArmed ∧ ¬ d.tide.quiesce ∧ tdiff t (d.markOf l) ≥ 0 then
    startRunning l (d.markOf l) d
  else d

/-- TIDE_CONFIG_WRITE (R31): TIDE_ORIGIN or TIDE_PERIOD. -/
def execTideConfigWrite (origin : Bool) (v : Nat) (d : Dev) : Dev :=
  if d.get R.TIDE_STATUS_state ≠ tsStopped then d.raise E.TIDE_CONFIG_REFUSED
  else if origin then d.set R.TIDE_ORIGIN_origin 0 v
  else
    let p := v % 2 ^ 21
    if p % 16 = 0 ∧ 65536 ≤ p ∧ p ≤ 1048576 then showCapacity (d.set R.TIDE_PERIOD_period 0 p)
    else d.raise E.TIDE_CONFIG_REFUSED

/-- TIDE_CTL_WRITE (Table 2.7): stored at once, in force under R54. -/
def execTideCtlWrite (v : Nat) (d : Dev) : Dev :=
  ((((d.store R.TIDE_CTL_overrun_policy 0 (bits v 0 1)).store R.TIDE_CTL_lag_limit 0 (bits v 4 4)).store
    R.TIDE_CTL_landing_grace 0 (bits v 8 12)).store R.TIDE_CTL_tick_cap 0 (Nat.max 256 (bits v 20 14))).store
    R.TIDE_CTL_wake_lead 0 (Nat.max 16 (bits v 40 8))

/-- SEQ_LOOP_COUNT_WRITE (Table 3.16). -/
def execSeqLoopCountWrite (r n v : Nat) (d : Dev) : Dev :=
  let st := d.get R.TIDE_STATUS_state
  if st = tsRunning ∨ st = tsArmed then d.raise E.SEQ_WRITE_REFUSED (some r)
  else d.store R.SEQ_LOOP_COUNT_count (r * 16 + n) v

end Sys2Proof.Machine
end

