-- ==== Sys2Proof/Machine/Links.lean ====
section
/-! DEFINITION. Causeway links (10): flits received and sent, sequence numbers, replay, credits, lanes, lock, training
and fencing. -/

namespace Sys2Proof.Machine

/-- Signed difference of two 16-bit sequence numbers or totals. -/
def sdiff16 (a b : BitVec 16) : Int := (a - b).toInt

/-- The link carries flits to this end: it is up and the receiver holds lock (R307). -/
def Dev.hears (d : Dev) (l : Nat) : Bool := d.linkUp l && d.is R.CW_STATUS_lock l

/-! ### Acknowledgement and replay at the sender (R291, R295 to R297) -/

/-- Start a replay from a stored flit (R296): counted, the timer restarts, EV_CW_REPLAY at most once per second. -/
def startReplay (l : Nat) (s : BitVec 16) (d : Dev) : Dev :=
  let d := d.modLink l (fun x => { x with replayAt := some s, timerAt := d.now })
  let d := (d.inc C.CW_COUNTS_replays l).setB R.CW_STATUS_replaying l true
  let key := 256 * 10 + l
  let due := match tget none d.evt.lastOnce key with
    | none => true
    | some t => decide (tdiff d.now t ≥ (secU : Nat))
  if due then
    ({ d with evt := { d.evt with lastOnce := tput none d.evt.lastOnce key (some d.now) } }).raise E.CW_REPLAY none (some l)
  else d

/-- A cumulative acknowledgement (R295). -/
def applyAck (l : Nat) (a : BitVec 16) (d : Dev) : Dev :=
  let x := d.link l
  match x.store with
  | [] => d
  | o :: _ =>
    if sdiff16 a o.seq < 0 ∨ sdiff16 (x.nextSeq - 1) a < 0 then d
    else
      let gone := x.store.filter (fun s => decide (sdiff16 a s.seq ≥ 0))
      let left := x.store.filter (fun s => decide (sdiff16 a s.seq < 0))
      let done := gone.filterMap (fun s => match s.body with
        | .drift f => if f.last then some f.pkt else none
        | .plan _ => none)
      let replay := match x.replayAt with
        | some r => if left = [] then none else if sdiff16 a r ≥ 0 then some (a + 1) else some r
        | none => none
      showStore l (d.modLink l (fun x =>
        { x with store := left, kept := x.kept.filter (fun k => !done.contains k.1), replayAt := replay, timerAt := d.now }))

/-- A credit total that a header carries (R302). -/
def applyCredit (l vc total : Nat) (d : Dev) : Dev := d.set R.CW_CREDIT_freed (l * 4 + vc) total

/-- What a flit's header brings this end as sender (R286, R295, R302). -/
def applyHead (l : Nat) (h : FlitHead) (d : Dev) : Dev :=
  let d := if h.ackValid then applyAck l h.ack d else d
  if h.creditValid then applyCredit l h.creditVc.toNat h.credit.toNat d else d

/-- The beacon bits of an accepted flit (R301). -/
def noteBeacon (l : Nat) (h : FlitHead) (d : Dev) : Dev := d.set R.CW_PEER_beacon l h.beacon.toNat

/-- The freed totals of an ACK or CREDIT_SYNC payload (R302). -/
def applyTotals (l : Nat) (v : VcTotals) (d : Dev) : Dev :=
  (List.range 4).foldl (fun d i => applyCredit l i (v.freed.getD i 0).toNat d) d

/-- An unsequenced flit, which is accepted where the link hears it. -/
def unsequenced (l : Nat) (h : FlitHead) (t : BitVec 64) (f : Dev → Dev) (d : Dev) : Dev :=
  let d := d.advance t
  if d.hears l then f (noteBeacon l h (applyHead l h d)) else d

/-- ACK_FLIT (R295, R302). -/
def execAckFlit (l : Nat) (h : FlitHead) (v : VcTotals) (t : BitVec 64) (d : Dev) : Dev :=
  unsequenced l h t (applyTotals l v) d

/-- NAK_FLIT (R296): the header's ack is applied first (Table 10.7). -/
def execNakFlit (l : Nat) (h : FlitHead) (s : BitVec 16) (t : BitVec 64) (d : Dev) : Dev :=
  unsequenced l h t (fun d => if (d.link l).store.any (fun x => x.seq = s) then startReplay l s d else d) d

/-- CREDIT_SYNC_FLIT (R303). -/
def execCreditSyncFlit (l : Nat) (h : FlitHead) (v : VcTotals) (t : BitVec 64) (d : Dev) : Dev :=
  unsequenced l h t (fun d =>
    let after := fun i => ((d.link l).store.filter (fun s => match s.body with
      | .drift f => decide (f.vc = i)
      | .plan _ => false)).length
    let wrong := (List.range 4).filter (fun i =>
      decide ((v.received.getD i 0).toNat ≠ (d.get R.CW_CREDIT_sent (l * 4 + i) + 65536 - after i % 65536) % 65536))
    let d := applyTotals l v d
    if ¬ h.ackValid ∨ wrong = [] then d
    else
      let d := wrong.foldl (fun d i =>
        (d.set R.CW_CREDIT_sent (l * 4 + i) ((v.received.getD i 0).toNat + after i)).inc C.CW_CREDIT_resyncs (l * 4 + i)) d
      d.raise E.CW_CREDIT none (some l)) d

/-- ACK_TIMEOUT (R296). -/
def execAckTimeout (l : Nat) (t : BitVec 64) (d : Dev) : Dev :=
  let d := d.advance t
  match (d.link l).store with
  | o :: _ =>
    if d.linkUp l ∧ tdiff t (d.link l).timerAt ≥ (d.get R.CW_CTL_ack_timeout l * 1600 : Nat) then startReplay l o.seq d else d
  | [] => d

/-! ### The receiver (R292 to R294, R301, R302) -/

/-- A NAK carrying expected falls due (R292), unless one for this value was sent within the ack timeout (R293). -/
def askNak (l : Nat) (d : Dev) : Dev :=
  let x := d.link l
  let recent := match x.nakAt with
    | some (s, t) => decide (s = x.expected ∧ tdiff d.now t < (d.get R.CW_CTL_ack_timeout l * 1600 : Nat))
    | none => false
  if recent || x.nakDue.contains x.expected then d
  else d.modLink l (fun x => { x with nakDue := x.nakDue ++ [x.expected] })

/-- Check a sequenced flit (R292); `f` is its delivery. -/
def sequenced (l : Nat) (h : FlitHead) (t : BitVec 64) (f : Dev → Dev) (d : Dev) : Dev :=
  let d := d.advance t
  if ¬ d.hears l then d
  else
    let d := applyHead l h d
    let x := d.link l
    let diff := sdiff16 h.seq x.expected
    if diff = 0 then
      let n := x.accepted + 1
      f (noteBeacon l h (d.modLink l (fun x =>
        { x with expected := x.expected + 1, nakAt := none, accepted := n, ackDue := x.ackDue || decide (n ≥ 64) })))
    else if diff < 0 then d.modLink l (fun x => { x with ackDue := true })
    else askNak l d

/-- A PLAN flit of the sender's tide j that passed the checks of R301 reaches its landing (R43 to R47). -/
def landFlit (index j : Nat) (data : BitVec 1920) (d : Dev) : Dev :=
  match d.plan.masks[index]? with
  | none => d.inc C.TIDE_COUNTS_stale_flits
  | some m =>
    match d.plan.landings.find? (fun x => decide (x.id = m.landing ∧ x.vregion = m.vregion)) with
    | none => d.inc C.TIDE_COUNTS_stale_flits
    | some x =>
      let mine := d.plan.masks.filter (fun o => decide (o.landing = m.landing ∧ o.vregion = m.vregion ∧
        o.replica = m.replica) && o.receive)
      let total := (mine.map (·.count)).foldl (· + ·) 0
      d.landWrite x m.replica j (index + 1) (fun n => m.offset + 240 * n) (leBytes 240 data.toNat) total

/-- An accepted PLAN flit goes to the landing logic (R301); it crosses the Isthmus to a region of the other die
(R392). -/
def takePlanFlit (l tide stream index : Nat) (data : BitVec 1920) (d : Dev) : Dev :=
  let st := d.get R.TIDE_STATUS_state
  if ¬ (st = tsArmed ∨ st = tsRunning ∨ st = tsQuiesced) then d.inc C.TIDE_COUNTS_stale_flits
  else match d.plan.masks[index]? with
    | none => d.raise E.CW_PLAN_HEADER none (some l)
    | some m =>
      if ¬ m.receive ∨ m.link ≠ l ∨ m.stream ≠ stream then d.inc C.TIDE_COUNTS_stale_flits
      else
        let k := d.get R.TIDE_NUMBER_tide
        let apart := sdiff16 (BitVec.ofNat 16 tide) (BitVec.ofNat 16 k)
        -- tide numbers are class W of 48 bits
        let j := wrap 48 ((k : Int) + apart)
        if apart < -32 ∨ apart > 32 then d.raise E.CW_PLAN_HEADER none (some l)
        else match d.plan.landings.find? (fun x => decide (x.id = m.landing ∧ x.vregion = m.vregion)) with
          | none => d.inc C.TIDE_COUNTS_stale_flits
          | some x =>
            if dieOf x.region = dieOfLink l then landFlit index j data d
            else d.istQueue (dieOf x.region = 1) icPlan x.region 0 0 4 (.planIn index j data)

/-- PLAN_FLIT (R292, R301). -/
def execPlanFlit (l : Nat) (h : FlitHead) (tide stream index : Nat) (data : BitVec 1920) (t : BitVec 64) (d : Dev) : Dev :=
  sequenced l h t (takePlanFlit l tide stream index data) d

/-- DRIFT_FLIT (R292, R302): an accepted flit enters its VC's input buffer. -/
def execDriftFlit (l : Nat) (h : FlitHead) (vc : Nat) (first last : Bool) (data : BitVec 1920) (t : BitVec 64) (d : Dev) :
    Dev :=
  sequenced l h t (fun d => d.modLink l (fun x =>
    { x with
      received := tput 0 x.received vc ((tget 0 x.received vc + 1) % 65536),
      inBuf := tput [] x.inBuf vc (tget [] x.inBuf vc ++
        [{ vc := vc, first := first, last := last, pkt := 0, enters := false, data := data }]) })) d

/-- FLIT_CRC_FAIL (R292; a reserved type counts as one, Table 10.3). -/
def execFlitCrcFail (l : Nat) (t : BitVec 64) (d : Dev) : Dev :=
  let d := d.advance t
  if d.hears l then askNak l (d.inc C.CW_COUNTS_crc_errors l) else d

/-- ACK_INTERVAL_EXPIRY (R294): 200 ns since the last flit that carried a newer ack. -/
def execAckIntervalExpiry (l : Nat) (t : BitVec 64) (d : Dev) : Dev :=
  let d := d.advance t
  if d.linkUp l ∧ tdiff t (d.link l).ackAt ≥ 3200 then
    d.modLink l (fun x => { x with ackDue := true })
  else d

/-! ### Sending (R284 to R290, R294, R298, R303) -/

/-- Remainder of a CRC-32C (R285), bit by bit, least significant bit first (notes/assumptions/18.md). -/
def crcByte (c : BitVec 32) (b : Byte) : BitVec 32 :=
  (List.range 8).foldl (fun (c : BitVec 32) _ =>
    if c.getLsbD 0 then (c >>> 1) ^^^ 0x82F63B78#32 else c >>> 1) (c ^^^ b.setWidth 32)

/-- CRC-32 with the Castagnoli polynomial. -/
def crc32c (bs : List Byte) : BitVec 32 := ~~~ (bs.foldl crcByte 0xFFFFFFFF#32)

/-- A region drives its EVENT line (R507): a record of severity WARN or higher that concerns it, or no region, was raised
in the PX cycle in progress, with the end of which it is written (R501, notes/assumptions/111.md). -/
def Dev.eventLine (d : Dev) (r : Nat) : Bool :=
  decide (d.evt.recentAt = cycleOf d.now) && d.evt.recent.any (fun e =>
    decide (1 ≤ leNat ((e.2.drop 10).take 1)) &&
      (decide (leNat ((e.2.drop 11).take 1) = r) || decide (leNat ((e.2.drop 11).take 1) = 255)))

/-- A region is in a hold, slip periods included (R40, R146). -/
def Dev.holdLine (d : Dev) (r : Nat) : Bool := decide ((d.reg r).phase = .hold) || (d.reg r).slip.isSome

/-- The beacon lines that a region drives (Table 1.4), line 0 in bit 0: MARK, HOLD, FAULT, EVENT. -/
def Dev.beaconLines (d : Dev) (r : Nat) : Nat :=
  flag (d.reg r).mark + 2 * flag (d.holdLine r) + 4 * flag (d.reg r).faultLine + 8 * flag (d.eventLine r)

/-- The beacon bits of this device (Table 10.2). -/
def Dev.beaconBits (d : Dev) : Nat :=
  flag ((List.range 16).any d.holdLine) + 2 * flag (decide (d.get R.TIDE_LAG_lag > 0)) +
  4 * flag (d.is R.TIDE_STATUS_deferred) + 8 * flag ((List.range 16).any d.eventLine)

/-- Put a flit on the wire (R285, R286): its type, sequence number, resent flag, credit (VC and total), bytes 8-11 and
payload. It carries the cumulative ack, except during training. -/
def sendFlit (l type seq : Nat) (again : Bool) (credit : Option (Nat × Nat)) (b67 b811 : Nat) (payload : List Byte)
    (d : Dev) : Dev :=
  let x := d.link l
  let up := d.linkUp l
  let ack := if up then x.expected - 1 else 0
  let (vc, total) := credit.getD (0, b67)
  let head := leBytes 1 (type + 16 * d.beaconBits) ++
    leBytes 1 (flag up + 2 * flag again + 4 * flag credit.isSome + 8 * vc) ++
    leBytes 2 seq ++ leBytes 2 ack.toNat ++ leBytes 2 total ++ leBytes 4 b811
  let body := payload ++ List.replicate (240 - payload.length) 0
  let flit := head ++ leBytes 4 (crc32c (head ++ body)).toNat ++ body
  d.modLink l (fun x =>
    let x := { x with wire := x.wire ++ [flit] }
    if ¬ up ∨ ack = x.ackSent then x else { x with ackSent := ack, ackAt := d.now })

/-- The next VC's freed total, in rotation (R302). -/
def nextCredit (l : Nat) (d : Dev) : Dev × (Nat × Nat) :=
  let x := d.link l
  (d.modLink l (fun x => { x with creditVc := (x.creditVc + 1) % 4 }), (x.creditVc, tget 0 x.freed x.creditVc))

/-- The payload of ACK and CREDIT_SYNC: four freed and four received totals (R302). -/
def Dev.totalsPayload (d : Dev) (l : Nat) : List Byte :=
  let x := d.link l
  ((List.range 4).map (fun i => leBytes 2 (tget 0 x.freed i))).flatten ++
  ((List.range 4).map (fun i => leBytes 2 (tget 0 x.received i))).flatten

/-- Send an ACK flit (R294). -/
def sendAck (l : Nat) (d : Dev) : Dev :=
  let (d, c) := nextCredit l d
  let d := sendFlit l 0 0 false (some c) 0 0 (d.totalsPayload l) d
  d.modLink l (fun x => { x with ackDue := false, accepted := 0 })

/-- Send a sequenced flit, the first time or again. -/
def sendBody (l : Nat) (seq : BitVec 16) (again : Bool) (b : FlitBody) (d : Dev) : Dev :=
  match b with
  | .plan f =>
    sendFlit l 1 seq.toNat again none (f.tide % 65536) (f.stream + 256 * f.index) (leBytes 240 f.data.toNat) d
  | .drift f =>
    let (d, c) := nextCredit l d
    sendFlit l 2 seq.toNat again (some c) 0 (f.vc + 4 * flag f.first + 8 * flag f.last) (leBytes 240 f.data.toNat) d

/-- A flit's body with another payload. -/
def FlitBody.withData (b : FlitBody) (v : BitVec 1920) : FlitBody :=
  match b with
  | .plan f => .plan { f with data := v }
  | .drift f => .drift { f with data := v }

/-- A flit is taken for sending: a spilled one is read back (R298, R300); none: an uncorrectable error. -/
def readSpill (l : Nat) (b : FlitBody) (d : Dev) : Dev × Option FlitBody :=
  match (d.link l).spill.find? (fun e => decide (e.2 = b)) with
  | none => (d, some b)
  | some e =>
    let die := dieOfLink l
    let y := hbmRead byDrift none die (d.spillAt l e.1) 256 (wakeFor die (d.spillAt l e.1) 256 d)
    (y.1, if y.2 then none
      else some (b.withData (BitVec.ofNat 1920 (mnum y.1.mem (hbmKey die (d.spillAt l e.1 + 16)) 240))))

/-- First transmission of a flit (R291), which `take` takes out of its queue. -/
def sendNew (l : Nat) (b : FlitBody) (take : Dev → Dev) (d : Dev) : Dev :=
  match readSpill l b d with
  | (d, none) => linkDown l dcReplayExhausted d
  | (d, some sent) =>
    let seq := (d.link l).nextSeq
    let d := sendBody l seq false sent (take d)
    showStore l (d.modLink l (fun x =>
      { x with
        store := x.store ++ [{ seq := seq, sends := 1, body := b }], nextSeq := seq + 1,
        timerAt := if x.store = [] then d.now else x.timerAt }))

/-- Resend the flit that a replay has reached (R296, R297). -/
def sendReplay (l : Nat) (s : BitVec 16) (d : Dev) : Dev :=
  match (d.link l).store.find? (fun x => x.seq = s) with
  | none => d.modLink l (fun x => { x with replayAt := none })
  | some e =>
    if e.sends ≥ 64 then linkDown l dcReplayLimit d
    else match readSpill l e.body d with
      | (d, none) => linkDown l dcReplayExhausted d
      | (d, some sent) =>
        let d := sendBody l s true sent d
        showStore l (d.modLink l (fun x =>
          { x with
            store := x.store.map (fun z => if z.seq = s then { z with sends := z.sends + 1 } else z),
            replayAt := if x.store.any (fun z => z.seq = s + 1) then some (s + 1) else none }))

/-- Number of the slot that begins at t, from 0 at the tide's start (R287), at width w. -/
def Dev.slotAt (d : Dev) (t : BitVec 64) (w : Nat) : Nat := (t - d.tide.startTime).toNat * w * 100 / 16384

/-- The plan flit that this slot takes (R289). -/
def Dev.planFlitNow (d : Dev) (l : Nat) (t : BitVec 64) : Option PlanFlit :=
  match (d.link l).planQueue with
  | [] => none
  | f :: _ =>
    let w := d.get R.CW_STATUS_tx_width l
    let late := f.tide < d.get R.TIDE_NUMBER_tide
    -- the slot at width 8 gives due times at every width
    let due := late ∨ d.slotAt t 8 ≥ f.pos
    let free := w < 8 ∨ d.slotAt t 8 % 16 ≠ 15
    if tdiff t f.ready ≥ 0 ∧ due ∧ free then some f else none

/-- Free flits that the peer's input buffer has for a VC (R328). -/
def Dev.creditFor (d : Dev) (l vc : Nat) : Nat :=
  32 - (d.get R.CW_CREDIT_sent (l * 4 + vc) + 65536 - d.get R.CW_CREDIT_freed (l * 4 + vc)) % 65536

/-- The drift flit that this slot takes (R302, R326, R328): the packet being sent goes on; else the oldest packet at
the head of its VC whose space is assured. -/
def Dev.driftFlitNow (d : Dev) (l : Nat) : Option DriftFlit :=
  let q := (d.link l).driftQueue
  match q with
  | [] => none
  | f :: _ =>
    if d.fatal then none
    else if ¬ f.first then (if d.creditFor l f.vc ≥ 1 then some f else none)
    else q.find? (fun g => g.first && decide ((q.find? (fun o => o.vc = g.vc)) = some g) &&
      decide (d.creditFor l g.vc ≥ (if g.enters then 8 else 4)))

/-- Send a drift flit: its packet moves to the front, so that no other comes between (R326). -/
def sendDrift (l : Nat) (f : DriftFlit) (d : Dev) : Dev :=
  sendNew l (.drift f) (fun d => (d.modLink l (fun x =>
    let mine := x.driftQueue.filter (fun g => decide (g.pkt = f.pkt))
    let rest := x.driftQueue.filter (fun g => !decide (g.pkt = f.pkt))
    { x with driftQueue := mine.drop 1 ++ rest })).incW R.CW_CREDIT_sent (l * 4 + f.vc)) d

/-- Send a plan flit, the first of the plan queue (R289). -/
def sendPlan (l : Nat) (f : PlanFlit) (d : Dev) : Dev :=
  sendNew l (.plan f) (fun d => d.modLink l (fun x => { x with planQueue := x.planQueue.drop 1 })) d

/-- Send a CREDIT_SYNC flit, with the tide mark just passed (R303, Table 10.3). -/
def sendSync (l : Nat) (d : Dev) : Dev :=
  let m := (d.markOf (d.latestMark d.now (d.get R.TIDE_NUMBER_tide))).toNat
  (sendFlit l 5 0 false none (m % 65536) (m / 65536 % 65536) (d.totalsPayload l) d).modLink l (fun x =>
    { x with syncDue := false })

/-- What a slot at `t` takes that neither a replay nor a plan flit takes (R290): a control flit, a drift flit, or an
ACK. -/
def sendFree (l : Nat) (t : BitVec 64) (room : Bool) (d : Dev) : Dev :=
  let x := d.link l
  if x.syncDue then sendSync l d
  else match x.nakDue, x.laneOut with
    | s :: naks, _ =>
      let c := nextCredit l d
      (sendFlit l 3 0 false (some c.2) 0 s.toNat [] c.1).modLink l (fun y =>
        { y with nakDue := naks, nakAt := some (s, t) })
    | [], (lane, action) :: rest =>
      sendFlit l 4 0 false none 0 (lane + 16 * action) [] (d.modLink l (fun x =>
        { x with laneOut := rest, laneAt := if action = 0 then t else x.laneAt }))
    | [], [] =>
      if x.ackDue then sendAck l d
      else match x.timeOut with
        | p :: rest => sendFlit l 6 0 false none 0 0 (leBytes 8 t.toNat ++ p.drop 8) (d.modLink l (fun x => { x with timeOut := rest }))
        | [] =>
          match (if room then d.driftFlitNow l else none) with
          | some f => sendDrift l f d
          | none => sendAck l d

/-- What a slot at `t` takes (R289, R290): a replay, a plan flit in its position, or what R290 gives a free slot. No new
sequenced flit leaves at the limit of R291. -/
def sendSlot (l : Nat) (t : BitVec 64) (d : Dev) : Dev :=
  let room := decide ((d.link l).store.length < 32767)
  match (d.link l).replayAt, (if room then d.planFlitNow l t else none) with
  | some s, _ => sendReplay l s d
  | none, some f => sendPlan l f d
  | none, none => sendFree l t room d

/-- An INIT flit (R310): device address, link index, and hall-time state, laid out as notes/assumptions/116.md says. -/
def sendInit (l : Nat) (t : BitVec 64) (d : Dev) : Dev :=
  sendFlit l 7 0 false none 0 0 (leBytes 3 (d.get R.DEV_ADDR_address) ++ leBytes 1 l ++
    leBytes 4 (d.get R.TIME_STATUS_state) ++ leBytes 8 t.toNat) d

/-- FLIT_SLOT_SEND (R286, R289, R290); during training the exchange of INIT flits (R310). -/
def execFlitSlotSend (l : Nat) (t : BitVec 64) (d : Dev) : Dev :=
  let d := d.advance t
  if d.linkUp l then sendSlot l t d
  else if d.get R.CW_STATUS_state l = lsTraining then sendInit l t d
  else d

/-- What follows for the links when the plan or the fabric has queued flits (R298, R299). -/
def settleLink (d : Dev) (l : Nat) : Dev :=
  if ¬ d.linkUp l then
    (if (d.link l).planQueue = [] then d else d.modLink l (fun x => { x with planQueue := [] }))
  else if (d.link l).held > d.storeSize l ∧ (d.link l).planQueue ≠ [] then linkDown l dcReplayExhausted d
  else if d.storeFull l ∧ ¬ d.is R.CW_STATUS_drift_stopped l then
    (showStore l (d.set R.CW_STATUS_drift_stopped l 1)).raise E.CW_SPILL_FULL none (some l)
  else if d.get R.CW_REPLAY_store l + d.get R.CW_REPLAY_spill l ≠ (d.link l).held then showStore l d
  else d
def settleLinks (d : Dev) : Dev := (List.range 6).foldl settleLink d

/-! ### Lanes (R304 to R306) -/

/-- Lanes of a 9-bit mask. -/
def goodLanes (m : Nat) : Nat := popCount m 9

/-- A direction of a link has a lane out of service, or about to leave it. -/
def Dev.lanesShort (d : Dev) (l : Nat) (transmit : Bool) : Bool :=
  let x := d.link l
  decide (goodLanes (d.get (if transmit then R.CW_LANES_tx_active else R.CW_LANES_rx_active) l) < 8) ||
    !(if transmit then x.txPend else x.rxPend).isEmpty

/-- The spare of each direction that is short of lanes is ordered in for its next lane map change (R306). -/
def orderSpares (l : Nat) (d : Dev) : Dev :=
  d.modLink l (fun x => { x with
    spareTx := x.spareTx || d.lanesShort l true, spareRx := x.spareRx || d.lanesShort l false })

/-- A command for the link ends the host wait for its spare (R306). -/
def endSpareWait (l : Nat) (d : Dev) : Dev :=
  d.modLink l (fun x => { x with wait := if x.wait.map (·.1) = some .spare then none else x.wait })

/-- A lane report or loss at either end: counted, EV_CW_LANE_FAIL, and the request of R306. -/
def laneFailed (l lane : Nat) (transmit : Bool) (d : Dev) : Dev :=
  let d := ((d.lifeLane l lane transmit).inc C.CW_COUNTS_lane_failures l).raise E.CW_LANE_FAIL none (some l)
  if (d.link l).hosted then
    (d.modLink l (fun x => { x with wait := some (.spare, d.now) })).raise E.CW_TRAIN_REQUEST none (some l)
  else d

/-- LANE_FAIL (R304): a receive lane loses its own lock for 1 µs (no symbols named), or more symbols were corrected on
it within 1 ms than lane_err_limit. -/
def execLaneFail (l lane symbols : Nat) (t : BitVec 64) (d : Dev) : Dev :=
  let d := d.advance t
  if ¬ d.linkUp l then d
  else
    let d := d.incP R.CW_FEC_corrected l symbols
    if bit (d.get R.CW_LANES_rx_failed l) lane ∨ ¬ (symbols = 0 ∨ symbols > d.get R.CW_CTL_lane_err_limit l) then d
    else
      let d := d.set R.CW_LANES_rx_failed l (setBit (d.get R.CW_LANES_rx_failed l) lane true)
      laneFailed l lane false (d.modLink l (fun x => { x with laneOut := x.laneOut ++ [(lane, 0)], rxPend := x.rxPend ++ [lane] }))

/-- LANE_REPORT_REPEAT (R304): every 10 µs until the lane map changes. -/
def execLaneReportRepeat (l : Nat) (t : BitVec 64) (d : Dev) : Dev :=
  let d := d.advance t
  if d.linkUp l ∧ tdiff t (d.link l).laneAt ≥ (10 * usU : Nat) then
    d.modLink l (fun x => { x with laneOut := x.laneOut ++
      (x.rxPend.filter (fun n => !x.laneOut.contains (n, 0))).map (fun n => (n, 0)) })
  else d

/-- LANE_FLIT (R305, R306): a transmit lane reported failed, ordered out, or the spare ordered in. -/
def execLaneFlit (l : Nat) (h : FlitHead) (lane action : Nat) (t : BitVec 64) (d : Dev) : Dev :=
  unsequenced l h t (fun d =>
    if action = 0 then
      if bit (d.get R.CW_LANES_tx_failed l) lane then d
      else
        let d := d.set R.CW_LANES_tx_failed l (setBit (d.get R.CW_LANES_tx_failed l) lane true)
        laneFailed l lane true (d.modLink l (fun x => { x with txPend := x.txPend ++ [lane] }))
    else if action = 1 then d.modLink l (fun x => { x with spareTx := true })
    else if action = 2 then d.modLink l (fun x => { x with txPend := x.txPend ++ [lane] })
    else d) d

/-- The new lane map of a direction: failed lanes leave, and the spare comes in where it may. -/
def newLanes (active : Nat) (pend : List Nat) (spare : Option Nat) (mayUse : Bool) : Nat × Option Nat × Bool :=
  let left := pend.foldl (fun m n => setBit m n false) active
  let good := match spare with
    | some s => if pend.contains s then none else some s
    | none => none
  match good with
  | some s => if mayUse ∧ goodLanes left < 8 then (setBit left s true, none, true) else (left, some s, false)
  | none => (left, none, false)

/-- State, widths and capacity after a lane map change, with the events of Table 10.4. -/
def settleWidth (l before now : Nat) (d : Dev) : Dev :=
  let rx := goodLanes (d.get R.CW_LANES_rx_active l)
  let tx := goodLanes (d.get R.CW_LANES_tx_active l)
  let d := showCapacity (((d.set R.CW_STATUS_width l rx).set R.CW_STATUS_tx_width l tx).set R.CW_STATUS_state l
    (if Nat.min rx tx = 8 then lsUp else lsDegraded))
  let d := if now < before ∧ before > 7 then d.raise E.CW_DEGRADED none (some l) else d
  let d := if now < before ∧ now < 7 ∧ before > 4 then d.raise E.LINK_BUDGET_BREACH none (some l) else d
  if Nat.min rx tx < 4 then linkDown l dcWidth d else d

/-- LANE_MAP_CHANGE (R305) at an alignment marker, in one direction. -/
def execLaneMapChange (l : Nat) (transmit : Bool) (t : BitVec 64) (d : Dev) : Dev :=
  let d := d.advance t
  if ¬ d.linkUp l then d
  else
    let x := d.link l
    let may := !x.hosted || (if transmit then x.spareTx else x.spareRx)
    let fld := if transmit then R.CW_LANES_tx_active else R.CW_LANES_rx_active
    let used := if transmit then R.CW_LANES_tx_spare_used else R.CW_LANES_rx_spare_used
    let before := d.get fld l
    let n := newLanes before (if transmit then x.txPend else x.rxPend) (if transmit then x.txSpare else x.rxSpare) may
    let d := d.modLink l (fun x =>
      if transmit then { x with txPend := [], txSpare := n.2.1, spareTx := false }
      else { x with rxPend := [], rxSpare := n.2.1, spareRx := false })
    let d := d.set fld l n.1
    let d := if n.2.2 then d.set used l 1 else d
    settleWidth l (goodLanes before) (goodLanes n.1) d

/-! ### Lock, training, fencing (R307 to R313) -/

/-- LOCK_LOST (R307): the receiver accepts nothing; a spare switch that is pending is abandoned (Table 10.7).
`codewords` is the uncorrectable codewords seen. -/
def execLockLost (l codewords : Nat) (t : BitVec 64) (d : Dev) : Dev :=
  let d := d.advance t
  if ¬ d.hears l then d
  else
    let d := (d.incP R.CW_FEC_UE_uncorrectable l codewords).set R.CW_STATUS_lock l 0
    d.modLink l (fun x => { x with lockLostAt := some t, rxPend := [] })

/-- The lock has been lost for down_time (R307). -/
def Dev.lockGone (d : Dev) (l : Nat) (t : BitVec 64) : Bool :=
  match (d.link l).lockLostAt with
  | some t0 => decide (tdiff t t0 ≥ (d.get R.CW_CTL_down_time l * usU : Nat))
  | none => false

/-- LOCK_REGAINED (R307). When down_time expires in the same PX cycle, the link goes down. -/
def execLockRegained (l : Nat) (t : BitVec 64) (d : Dev) : Dev :=
  let d := d.advance t
  if ¬ d.linkUp l ∨ d.is R.CW_STATUS_lock l then d
  else if d.lockGone l t then linkDown l dcLockLost d
  else
    let again := (List.range 9).filter (fun n => bit (d.get R.CW_LANES_rx_failed l) n && bit (d.get R.CW_LANES_rx_active l) n)
    (d.set R.CW_STATUS_lock l 1).modLink l (fun x =>
      { x with lockLostAt := none, rxPend := again, laneOut := x.laneOut ++ again.map (fun n => (n, 0)) })

/-- DOWN_TIME_EXPIRY (R307). -/
def execDownTimeExpiry (l : Nat) (t : BitVec 64) (d : Dev) : Dev :=
  let d := d.advance t
  if d.linkUp l ∧ ¬ d.is R.CW_STATUS_lock l ∧ d.lockGone l t then linkDown l dcLockLost d else d

/-- TRAIN_RETRY_EXPIRY (R309). -/
def execTrainRetryExpiry (l : Nat) (t : BitVec 64) (d : Dev) : Dev :=
  let d := d.advance t
  match (d.link l).retryAt with
  | some r =>
    if d.get R.CW_STATUS_state l = lsDown ∧ ¬ d.is R.CW_FENCE_fence l ∧ tdiff t r ≥ 0 then
      seekTraining l (d.modLink l (fun x => { x with retryAt := none }))
    else d
  | none => d

/-- A training attempt fails (R310, R311): the next is due after retry_wait; it is no down (Table 10.7). -/
def failTraining (l cause : Nat) (d : Dev) : Dev :=
  let wait := BitVec.ofNat 64 (d.get R.CW_TRAIN_retry_wait l * msU)
  ((d.modLink l (fun x => { x with trainAt := none, initSeen := false, retryAt := some (d.now + wait) })).set
    R.CW_STATUS_state l lsDown).set R.CW_STATUS_cause l cause

/-- INIT_FLIT (R310): the peer's address and link index. -/
def execInitFlit (l dev link : Nat) (t : BitVec 64) (d : Dev) : Dev :=
  let d := d.advance t
  if d.get R.CW_STATUS_state l = lsTraining then
    (((d.set R.CW_PEER_device l dev).set R.CW_PEER_link l link).set R.CW_PEER_valid l 1).modLink l (fun x =>
      { x with initSeen := true })
  else d

/-- The eight lowest good lanes, and the spare (R310). -/
def chooseLanes (good : Nat) : Nat × Option Nat :=
  let ls := (List.range 9).filter (fun i => bit good i)
  ((ls.take 8).foldl (fun m i => setBit m i true) 0, (ls.drop 8).head?)

/-- The link comes up (R310). -/
def linkRises (l rxGood txGood : Nat) (d : Dev) : Dev :=
  let rx := chooseLanes rxGood
  let tx := chooseLanes txGood
  let x := d.link l
  let fresh : LinkSt :=
    { downs := x.downs, nextPkt := x.nextPkt, wire := x.wire, timerAt := d.now, ackAt := d.now, rxSpare := rx.2,
      txSpare := tx.2, hosted := x.hosted, transit := x.transit, inBuf := x.inBuf, oldFlits := x.oldFlits, expected := 0, ackSent := BitVec.ofNat 16 65535 }
  let d := d.modLink l (fun _ => fresh)
  let d := (((((d.set R.CW_LANES_rx_active l rx.1).set R.CW_LANES_tx_active l tx.1).set R.CW_LANES_rx_failed l 0).set
    R.CW_LANES_tx_failed l 0).set R.CW_LANES_rx_spare_used l 0).set R.CW_LANES_tx_spare_used l 0
  let d := (List.range 4).foldl (fun d i => (d.set R.CW_CREDIT_sent (l * 4 + i) 0).set R.CW_CREDIT_freed (l * 4 + i) 0) d
  let d := ((d.lifeTotal totRetrains).set R.CW_STATUS_lock l 1).set R.CW_STATUS_state l lsUp
  (settleWidth l 0 0 d).raise E.CW_UP none (some l)

/-- TRAINING_DONE (R310, R311). -/
def execTrainingDone (l rxGood txGood : Nat) (t : BitVec 64) (d : Dev) : Dev :=
  let d := d.advance t
  if d.get R.CW_STATUS_state l ≠ lsTraining ∨ ¬ (d.link l).initSeen ∨ d.is R.CW_FENCE_fence l then d
  else if d.is R.CW_PEER_EXPECT_check l ∧ (d.get R.CW_PEER_device l ≠ d.get R.CW_PEER_EXPECT_device l ∨
      d.get R.CW_PEER_link l ≠ d.get R.CW_PEER_EXPECT_link l) then
    let told := (d.link l).miswired
    let d := (failTraining l dcMiswired d).modLink l (fun x => { x with miswired := true })
    if told then d else d.raise E.CW_MISWIRED none (some l)
  else if Nat.min (goodLanes rxGood) (goodLanes txGood) < 4 then d
  else linkRises l rxGood txGood d

/-- TRAIN_TIMEOUT (R310). -/
def execTrainTimeout (l : Nat) (t : BitVec 64) (d : Dev) : Dev :=
  let d := d.advance t
  match (d.link l).trainAt with
  | some t0 =>
    if d.get R.CW_STATUS_state l = lsTraining ∧ tdiff t t0 ≥ (d.get R.CW_TRAIN_train_timeout l * msU : Nat) then
      failTraining l dcTrainFailed d
    else d
  | none => d

/-- DAMP_EXPIRY (R312). -/
def execDampExpiry (l : Nat) (t : BitVec 64) (d : Dev) : Dev :=
  let d := d.advance t
  match (d.link l).dampUntil with
  | some u =>
    if d.get R.CW_STATUS_state l = lsDamped ∧ tdiff t u ≥ 0 then
      seekTraining l ((d.modLink l (fun x => { x with dampUntil := none })).set R.CW_STATUS_state l lsDown)
    else d
  | none => d

/-- CW_CMD_TRAIN (R309, R312, R313). -/
def execCwCmdTrain (l : Nat) (t : BitVec 64) (d : Dev) : Dev :=
  let d := d.advance t
  let d := if d.linkUp l then endSpareWait l d else d
  let st := d.get R.CW_STATUS_state l
  if d.is R.CW_FENCE_fence l ∨ ¬ (st = lsDown ∨ st = lsDamped) then d
  else beginTraining l (d.modLink l (fun x => { x with dampUntil := none, initSeen := false }))

/-- CW_CMD_SPARE (R306): the spare comes in at the next alignment marker, here and, by a LANE flit, at the peer. -/
def execCwCmdSpare (l : Nat) (t : BitVec 64) (d : Dev) : Dev :=
  let d := d.advance t
  if ¬ d.linkUp l then d
  else
    let tell := match (d.link l).rxSpare with
      | some lane => if d.lanesShort l false then [(lane, 1)] else []
      | none => []
    (orderSpares l (endSpareWait l d)).modLink l (fun x => { x with laneOut := x.laneOut ++ tell })

/-- CW_CMD_DROP (R305): the named receive lane leaves service as a failed one does, and the peer is told. -/
def execCwCmdDrop (l lane : Nat) (t : BitVec 64) (d : Dev) : Dev :=
  let d := d.advance t
  let d := if d.linkUp l then endSpareWait l d else d
  if d.linkUp l ∧ bit (d.get R.CW_LANES_rx_active l) lane then
    d.modLink l (fun x => { x with rxPend := x.rxPend ++ [lane], laneOut := x.laneOut ++ [(lane, 2)] })
  else d

/-- CW_CMD_DOWN (R308). -/
def execCwCmdDown (l : Nat) (t : BitVec 64) (d : Dev) : Dev := linkDown l dcHost (d.advance t)

/-- CW_HOST_WAIT_EXPIRY (R306, R309). -/
def execCwHostWaitExpiry (l : Nat) (t : BitVec 64) (d : Dev) : Dev :=
  let d := d.advance t
  match (d.link l).wait with
  | some (w, t0) =>
    if tdiff t t0 ≥ (d.get R.CW_TRAIN_host_wait l * msU : Nat) then
      let d := d.modLink l (fun x => { x with wait := none })
      match w with
      | .spare => (orderSpares l d).raise E.HOST_WAIT_EXPIRED_CW none (some l)
      | .train =>
        if d.get R.CW_STATUS_state l = lsDown ∧ ¬ d.is R.CW_FENCE_fence l then
          (beginTraining l d).raise E.HOST_WAIT_EXPIRED_CW none (some l)
        else d
    else d
  | none => d

/-- FENCE_WRITE (R313). -/
def execFenceWrite (l v : Nat) (t : BitVec 64) (d : Dev) : Dev :=
  let d := d.advance t
  let old := d.is R.CW_FENCE_fence l
  if bit v 0 then
    let d := d.set R.CW_FENCE_fence l 1
    if d.linkUp l then linkDown l dcFenced d
    else (d.modLink l (fun x => { x with trainAt := none, retryAt := none, dampUntil := none, wait := none,
                                         initSeen := false })).set R.CW_STATUS_state l lsFenced
  else
    let d := d.set R.CW_FENCE_fence l 0
    let st := d.get R.CW_STATUS_state l
    if old ∧ (st = lsFenced ∨ st = lsDown) then seekTraining l (d.set R.CW_STATUS_state l lsDown) else d

end Sys2Proof.Machine
end

