-- ==== Sys2Proof/Machine/HallTime.lean ====
section
/-! DEFINITION. Hall time (12): sources and their use, the Causeway exchange, the servo, PTP, PPS, capture, pulses and
the calendar. -/

namespace Sys2Proof.Machine

def tmFree : Nat := 0
def tmAcquire : Nat := 1
def tmLocked : Nat := 2
def tmHoldover : Nat := 3

def Dev.modTime (d : Dev) (f : TimeSt → TimeSt) : Dev := { d with time := f d.time }
def Dev.timeLink (d : Dev) (l : Nat) : TimeLinkSt := tget {} d.time.links l
def Dev.modTimeLink (d : Dev) (l : Nat) (f : TimeLinkSt → TimeLinkSt) : Dev :=
  d.modTime (fun x => { x with links := tput {} x.links l (f (tget {} x.links l)) })
def Dev.ptp (d : Dev) (q : Nat) : PtpSt := tget {} d.time.ptp q
def Dev.modPtp (d : Dev) (q : Nat) (f : PtpSt → PtpSt) : Dev :=
  d.modTime (fun x => { x with ptp := tput {} x.ptp q (f (tget {} x.ptp q)) })

/-- States of a PTP port (TIME_PTP word 2). -/
def ptIdle : Nat := 0
def ptListen : Nat := 1
def ptTracking : Nat := 2
def ptLost : Nat := 3

/-! ### Sources (R351, R352) -/

/-- The exchange period in units (R353). -/
def Dev.exchangePeriod (d : Dev) : Nat := 256 * 2 ^ d.time.exchange * nsU

/-- A source is usable (R352). NONE is: its device is a root. -/
def Dev.usable (d : Dev) (code : Nat) : Bool :=
  if code = 0 then true
  else if code ≤ 6 then
    let x := d.timeLink (code - 1)
    d.linkUp (code - 1) && !x.loop && (match x.heard with
      | some t => decide (tdiff d.now t ≤ (d.time.lossCount * d.exchangePeriod : Nat))
      | none => false)
  else if code ≤ 8 then d.quayPresent && decide (d.get R.TIME_PTP_state (code - 7) = ptTracking)
  else if code = 9 then
    d.is R.TIME_PPS_enable && (match d.time.ppsAt with
      | some t => decide (tdiff d.now t ≤ (3 * secU / 2 : Nat))
      | none => false)
  else false

/-- Root, hops and traceability of a device that is a root itself. -/
def ownRoot (traceable : Bool) (d : Dev) : Dev :=
  ((d.setB R.TIME_STATUS_traceable 0 traceable).set R.TIME_STATUS_hops 0 0).set R.TIME_STATUS_root 0
    (d.get R.DEV_ADDR_address)

/-- A source becomes active (R352, Table 12.2). -/
def takeSource (code : Nat) (d : Dev) : Dev :=
  let changed := d.get R.TIME_STATUS_source ≠ code
  let d := d.modTime (fun x => { x with lost := false, good := 0, theta := none })
  let d := (d.set R.TIME_STATUS_source 0 code).set R.TIME_STATUS_state 0 (if code = 0 then tmFree else tmAcquire)
  let d := if code = 0 then ownRoot false (d.set R.TIME_RATE_rate 0 0)
    else if code ≥ 7 then ownRoot true d else d
  if changed then (d.inc C.TIME_COUNTS_parent_changes).raise E.TIME_PARENT_CHANGED else d

/-- The active source is a link that has gone down since a measurement which no servo update has used: the measurement
is used, and R352 applies then (Table 12.4). -/
def Dev.owesUpdate (d : Dev) : Bool :=
  let c := d.get R.TIME_STATUS_source
  d.time.theta.isSome && decide (1 ≤ c ∧ c ≤ 6) && !d.linkUp (c - 1)

/-- The time unit enters HOLDOVER (Table 12.2). -/
def enterHoldover (d : Dev) : Dev :=
  if d.time.lost then d
  else
    let d := (d.modTime (fun x => { x with lost := true, good := 0 })).set R.TIME_STATUS_state 0 tmHoldover
    (d.inc C.TIME_COUNTS_holdovers).raise E.TIME_HOLDOVER

/-- Choose the source (R352). Away from an unusable source, and out of HOLDOVER, at once; back to the primary only at
a servo update (Table 12.4). -/
def chooseSource (atUpdate : Bool) (d : Dev) : Dev :=
  let now := d.get R.TIME_STATUS_source
  let want := if d.usable d.time.primary then some d.time.primary
    else if d.usable d.time.fallback then some d.time.fallback else none
  match want with
  | none =>
    if ¬ atUpdate ∧ d.owesUpdate then d else enterHoldover d
  | some c =>
    if d.time.lost then takeSource c d
    else if c = now ∨ (¬ atUpdate ∧ d.owesUpdate) then d
    else if atUpdate ∨ ¬ d.usable now then takeSource c d
    else d

/-- TIME_PARENT_WRITE (R351): takes effect at the next servo update. -/
def execTimeParentWrite (v : Nat) (d : Dev) : Dev :=
  let p := bits v 0 4
  let f := bits v 4 4
  if p ≥ 10 ∨ f ≥ 10 then d.raise E.TIME_CONFIG
  else (d.set R.TIME_PARENT_primary 0 p).set R.TIME_PARENT_fallback 0 f

/-- TIME_LINK_LOSS (R352). -/
def execTimeLinkLoss (l : Nat) (t : BitVec 64) (d : Dev) : Dev :=
  let d := d.advance t
  if d.usable (l + 1) then d else chooseSource false d

/-! ### The calendar (R366) -/

/-- Set the calendar from hall time (R366). -/
def setCalendar (d : Dev) : Dev :=
  let utc : Int := (d.get R.TIME_EPOCH_seconds : Int) + d.now.toNat / secU - sext 16 (d.get R.TIME_UTC_utc_offset)
  { d.set R.TIME_CALENDAR_synced 0 1 with
    cal := wrap 40 utc * secU + d.now.toNat % secU
    time := { d.time with calendarAt := some d.now } }

/-- LOCKED and traceable. -/
def Dev.calendarGood (d : Dev) : Bool :=
  decide (d.get R.TIME_STATUS_state = tmLocked) && d.is R.TIME_STATUS_traceable

/-- The calendar is set at the moment at which the device becomes LOCKED and traceable (R366). -/
def settleCalendar (was : Bool) (d : Dev) : Dev := if ¬ was ∧ d.calendarGood then setCalendar d else d

/-! ### The Causeway exchange (R353, R354) -/

/-- The payload of a TIME flit (Table 12.3) but for tx_time, which its transmission fills in (R314). -/
def Dev.timePayload (d : Dev) (l : Nat) : List Byte :=
  let x := d.timeLink l
  let e := x.echo.getD (0, 0, 0)
  leBytes 8 0 ++ leBytes 8 e.1.toNat ++ leBytes 8 e.2.1.toNat ++ leBytes 2 x.seq.toNat ++ leBytes 2 e.2.2.toNat ++
  leBytes 1 (d.get R.TIME_STATUS_state + 4 * flag (d.get R.TIME_STATUS_source = l + 1 && !d.time.lost) + 8 * d.get R.TIME_STATUS_traceable) ++
  leBytes 1 (d.get R.TIME_STATUS_hops) ++ leBytes 3 (d.get R.TIME_STATUS_root)

/-- TIME_EXCHANGE_SEND (R353). -/
def execTimeExchangeSend (t : BitVec 64) (d : Dev) : Dev :=
  let d := d.advance t
  if ¬ due d.time.sentAt d.exchangePeriod t then d
  else ((List.range 6).filter (fun l => d.linkUp l)).foldl (fun d l =>
    let p := d.timePayload l
    let d := d.modLink l (fun x => { x with timeOut := x.timeOut ++ [p] })
    d.modTimeLink l (fun x => { x with seq := x.seq + 1, sent := x.sent ++ [(x.seq, t)] })) (d.modTime (fun x => { x with sentAt := some t }))

/-- A TIME flit from the peer of a link, with its first-bit arrival (R354). -/
def takeTimeFlit (l : Nat) (data : List Byte) (t4 : BitVec 64) (d : Dev) : Dev :=
  let f := fun o n => leNat ((data.drop o).take n)
  let t3 := BitVec.ofNat 64 (f 0 8)
  let t1 := BitVec.ofNat 64 (f 8 8)
  let t2 := BitVec.ofNat 64 (f 16 8)
  let echoSeq := BitVec.ofNat 16 (f 26 2)
  let st := f 28 1
  let hops := f 29 1
  let bad := bit st 2 || decide (hops = 63)
  let was := (d.timeLink l).loop
  let d := d.modTimeLink l (fun x =>
    { x with echo := some (t3, t4, BitVec.ofNat 16 (f 24 2)), heard := some d.now, loop := bad })
  let d := if bad ∧ ¬ was then (d.inc C.TIME_COUNTS_loops).raise E.TIME_LOOP none (some l) else d
  let limit := (d.time.lossCount * d.exchangePeriod : Nat)
  let named := (d.timeLink l).sent.any (fun s => decide (s.1 = echoSeq ∧ tdiff d.now s.2 ≤ limit))
  let d := d.modTimeLink l (fun x => { x with sent := x.sent.filter (fun s => decide (tdiff d.now s.2 ≤ limit)) })
  if bad ∨ d.get R.TIME_STATUS_source ≠ l + 1 ∨ d.time.lost then chooseSource false d
  else
    let d := settleCalendar d.calendarGood (((d.setB R.TIME_STATUS_traceable 0 (bit st 3)).set R.TIME_STATUS_hops 0
      (hops + 1)).set R.TIME_STATUS_root 0 (f 30 3 % 2 ^ 20))
    if named then
      let a := tdiff t2 t1
      let b := tdiff t4 t3
      let delay := (a + b) / 2
      let theta := (b - a) / 2 - sext 16 (d.get R.TIME_LINK_asym l)
      (d.modTime (fun x => { x with theta := some theta, delay := delay })).set R.TIME_LINK_delay l (wrap 32 delay)
    else d

/-- TIME_FLIT (R354). -/
def execTimeFlit (l : Nat) (h : FlitHead) (data : List Byte) (arrival t : BitVec 64) (d : Dev) : Dev :=
  unsequenced l h t (takeTimeFlit l data arrival) d

/-! ### Pulses (R365) and the calendar (R366) -/

/-- Start of the next pulse of an output after `now`, and whether it is missed. The device clears arm where it clears
armed (notes/assumptions/88.md). -/
def armPulse (p : Nat) (start : BitVec 64) (d : Dev) : Dev :=
  let period := d.get R.TIME_PULSE_period p
  let gap := tdiff d.now start
  if gap < 0 then (d.set R.TIME_PULSE_armed p 1).modTime (fun x => { x with pulseAt := tput 0 x.pulseAt p start })
  else if period = 0 then
    (((d.set R.TIME_PULSE_armed p 0).clearWs R.TIME_PULSE_arm p).setWc R.TIME_PULSE_late p 1).raise
      E.TIME_PULSE_LATE none (some p)
  else
    let n := gap.toNat / period + 1
    (d.set R.TIME_PULSE_armed p 1).modTime (fun x =>
      { x with pulseAt := tput 0 x.pulseAt p (start + BitVec.ofNat 64 (n * period)) })

/-- PULSE_ARM (R365): a write of 1 to arm, which reads 1 from then on. -/
def execPulseArm (p : Nat) (t : BitVec 64) (d : Dev) : Dev :=
  let d := (d.advance t).noteWrite R.TIME_PULSE_arm p 0
  let d := d.set R.TIME_PULSE_arm p 1
  armPulse p (BitVec.ofNat 64 (d.get R.TIME_PULSE_start p)) d

/-- PULSE_FIRE (R365). -/
def execPulseFire (p : Nat) (t : BitVec 64) (d : Dev) : Dev :=
  let d := d.advance t
  let start := tget 0 d.time.pulseAt p
  if d.is R.TIME_PULSE_armed p ∧ tdiff t start ≥ 0 then
    let d := d.modTime (fun x => { x with pulses := x.pulses ++ [(p, start, d.get R.TIME_PULSE_width p)] })
    let period := d.get R.TIME_PULSE_period p
    if period = 0 then (d.set R.TIME_PULSE_armed p 0).clearWs R.TIME_PULSE_arm p
    else d.modTime (fun x => { x with pulseAt := tput 0 x.pulseAt p (start + BitVec.ofNat 64 period) })
  else d

/-- After a step, armed pulses that it passed move on (R365). -/
def rearmPulses (d : Dev) : Dev :=
  ((List.range 4).filter (fun p => d.is R.TIME_PULSE_armed p)).foldl (fun d p => armPulse p (tget 0 d.time.pulseAt p) d) d

/-- CALENDAR_SYNC (R366): once per hour after the first setting. -/
def execCalendarSync (t : BitVec 64) (d : Dev) : Dev :=
  let d := d.advance t
  if d.calendarGood ∧ due d.time.calendarAt (3600 * secU) d.now then setCalendar d else d

/-! ### The servo (R356 to R359) -/

/-- The tide unit runs a plan: phase is corrected by slewing only (R358). -/
def Dev.restricted (d : Dev) : Bool :=
  let s := d.get R.TIDE_STATUS_state
  decide (s = tsArmed ∨ s = tsRunning ∨ s = tsQuiesced)

/-- Step hall time (R359). The times from which the time unit itself measures move along. -/
def stepTime (by' : Int) (d : Dev) : Dev :=
  let v := BitVec.ofInt 64 by'
  let was := d.now
  let d := d.set R.TIME_NOW_now 0 (was + v).toNat
  let d := d.modTime (fun x => { x with
    slew := 0, stepped := some (was, was + v), sentAt := x.sentAt.map (· + v), ppsAt := x.ppsAt.map (· + v),
    links := x.links.map (fun e => (e.1, { e.2 with
      heard := e.2.heard.map (· + v), sent := e.2.sent.map (fun s => (s.1, s.2 + v)) })) })
  rearmPulses ((d.inc C.TIME_COUNTS_steps).raise E.TIME_STEP)

/-- Values written to TIME_CTL and TIME_PARENT come into force (Table 12.4). -/
def latchTimeCtl (d : Dev) : Dev :=
  d.modTime (fun x => { x with
    primary := d.get R.TIME_PARENT_primary, fallback := d.get R.TIME_PARENT_fallback,
    slewMax := d.get R.TIME_CTL_slew_max, stepThreshold := d.get R.TIME_CTL_step_threshold,
    exchange := d.get R.TIME_CTL_exchange, lossCount := d.get R.TIME_CTL_loss_count,
    hostWait := d.get R.TIME_CTL_host_wait, servoPeriod := d.get R.TIME_CTL_servo_period })

/-- ±200 ppm in units of 2^-40 (R356). -/
def rateBound : Nat := 219902325

/-- The servo's new rate: what it derives from θ is not stated; it keeps within ±200 ppm (notes/assumptions/19.md). -/
def newRate (d : Dev) : Dev :=
  let x := d.draw
  x.2.set R.TIME_RATE_rate 0 (wrap 32 ((x.1 % (2 * rateBound + 1) : Nat) - (rateBound : Int)))

/-- State after a measured θ (Table 12.2). -/
def lockState (theta : Int) (d : Dev) : Dev :=
  let good := if theta.natAbs ≤ 16 then d.time.good + 1 else 0
  let d := d.modTime (fun x => { x with good := good })
  let st := d.get R.TIME_STATUS_state
  if st = tmAcquire ∧ good ≥ 8 then
    settleCalendar false ((d.set R.TIME_STATUS_state 0 tmLocked).raise E.TIME_LOCKED)
  else if st = tmLocked ∧ theta.natAbs > 64 then d.set R.TIME_STATUS_state 0 tmAcquire
  else d

/-- EV_TIME_OFFSET (R358): once while |θ| exceeds step_threshold and phase may only be slewed; again only after |θ| has
fallen below it. -/
def noteOffset (theta : Int) (d : Dev) : Dev :=
  let limit := d.time.stepThreshold * nsU
  if theta.natAbs < limit then d.modTime (fun x => { x with offsetRaised := false })
  else if d.restricted ∧ theta.natAbs > limit ∧ ¬ d.time.offsetRaised then
    (d.modTime (fun x => { x with offsetRaised := true })).raise E.TIME_OFFSET
  else d

/-- Correct phase by −θ (R358, R359). -/
def correctPhase (theta : Int) (d : Dev) : Dev :=
  let d := noteOffset theta d
  if theta.natAbs > d.time.stepThreshold * nsU ∧ ¬ d.restricted then stepTime (-theta) d
  else d.modTime (fun x => { x with slew := -theta })

/-- The device's own update (R356). -/
def ownUpdate (d : Dev) : Dev :=
  match d.time.theta with
  | some th =>
    if d.get R.TIME_STATUS_source = 0 ∨ d.time.lost then d
    else correctPhase th (lockState th (newRate d))
  | none => d

/-- The host's update (R357): the latest TIME_ADJ. -/
def hostUpdate (d : Dev) : Dev :=
  let d := match d.time.theta with
    | some th => noteOffset th (lockState th d)
    | none => d
  match d.time.adj with
  | none => d
  | some (rate, phase, step) =>
    let d := (d.set R.TIME_RATE_rate 0 (wrap 32 rate)).modTime (fun x => { x with adj := none })
    if step ∧ ¬ d.restricted then stepTime phase d else d.modTime (fun x => { x with slew := phase })

/-- TIME_OFFSET shows the latest measurement (R356). -/
def showOffset (d : Dev) : Dev :=
  match d.time.theta with
  | some th => (d.set R.TIME_OFFSET_theta 0 (wrap 32 th)).set R.TIME_OFFSET_delay 0 (wrap 32 d.time.delay)
  | none => d

/-- A free-running device corrects no rate (Table 12.2). -/
def freeRate (d : Dev) : Dev :=
  if d.get R.TIME_STATUS_source = 0 ∧ ¬ d.time.lost then d.set R.TIME_RATE_rate 0 0 else d

/-- The update is the host's, or the device's own (R357). -/
def correctTime (d : Dev) : Dev := if d.hosted 2 ∧ ¬ d.time.byItself then hostUpdate d else ownUpdate d

/-- SERVO_UPDATE (R356 to R359), every 125 µs × 2^servo_period. A measurement made before it is used, and the source is
chosen then (Table 12.4). -/
def execServoUpdate (t : BitVec 64) (d : Dev) : Dev :=
  let d := d.advance t
  if ¬ due d.time.updateAt (125 * usU * 2 ^ d.time.servoPeriod) t then d
  else
    let d := freeRate (chooseSource true (correctTime (showOffset (latchTimeCtl d))))
    d.modTime (fun x => { x with theta := none, byItself := false, updateAt := some d.now })

/-- TIME_ADJ_WRITE (R357). -/
def execTimeAdjWrite (v : Nat) (t : BitVec 64) (d : Dev) : Dev :=
  let d := d.advance t
  d.modTime (fun x => { x with adj := some (sext 32 (bits v 0 32), sext 28 (bits v 32 28), bit v 60), adjSince := t })

/-- TIME_HOST_WAIT_EXPIRY (R357). -/
def execTimeHostWaitExpiry (t : BitVec 64) (d : Dev) : Dev :=
  let d := d.advance t
  if d.hosted 2 ∧ d.time.adj = none ∧ tdiff t d.time.adjSince ≥ (d.time.hostWait * msU : Nat) then
    (d.modTime (fun x => { x with byItself := true, adjSince := t })).raise E.HOST_WAIT_EXPIRED_TIME
  else d

/-! ### PTP (R360 to R362) -/

/-- A PTP time in hall-time units (R361), before the wrap. -/
def Dev.ptpUnits (d : Dev) (p : PtpTime) : Int :=
  ((p.seconds.toNat : Int) - d.get R.TIME_EPOCH_seconds) * secU + p.nanos.toNat * nsU

/-- A correction field in units. -/
def corrUnits (c : Word) : Int := c.toInt / 4096

/-- The port is up and takes a message of this transport, domain and grandmaster (R360). -/
def Dev.ptpTakes (d : Dev) (q : Nat) (m : PtpHead) : Bool :=
  d.is R.TIME_PTP_enable q && d.quayUp q &&
    decide (m.domain.toNat = d.get R.TIME_PTP_domain q ∧ m.udp = d.is R.TIME_PTP_transport q) &&
  (if d.get R.TIME_PTP_gm_identity q = 0 then decide ((d.ptp q).gm = some m.gm)
   else decide (m.gm.toNat = d.get R.TIME_PTP_gm_identity q))

/-- The offset from the last Sync and delay, where this port is the active source; and TRACKING (R362). -/
def ptpMeasure (q : Nat) (d : Dev) : Dev :=
  match (d.ptp q).sync, (d.ptp q).delay with
  | some (t1, t2), some delay =>
    if d.get R.TIME_PTP_state q = ptLost then d else
    let d := d.set R.TIME_PTP_state q ptTracking
    if d.get R.TIME_STATUS_source = q + 7 ∧ ¬ d.time.lost then
      d.modTime (fun x => { x with theta := some (t2 - t1 - delay), delay := delay })
    else chooseSource false d
  | _, _ => d

/-- PTP_SYNC. -/
def execPtpSync (q : Nat) (m : PtpHead) (twoStep : Bool) (origin : PtpTime) (arrival t : BitVec 64) (d : Dev) : Dev :=
  let d := d.advance t
  if ¬ d.ptpTakes q m then d
  else if twoStep then d.modPtp q (fun x => { x with waiting := some (m.seq, arrival, corrUnits m.correction) })
  else
    ptpMeasure q (d.modPtp q (fun x =>
      { x with sync := some (d.ptpUnits origin + corrUnits m.correction, (arrival.toNat : Int)) }))

/-- PTP_FOLLOW_UP. -/
def execPtpFollowUp (q : Nat) (m : PtpHead) (origin : PtpTime) (t : BitVec 64) (d : Dev) : Dev :=
  let d := d.advance t
  match (d.ptp q).waiting with
  | some (seq, arrival, corr) =>
    if d.ptpTakes q m ∧ seq = m.seq then
      ptpMeasure q (d.modPtp q (fun x =>
        { x with waiting := none, sync := some (d.ptpUnits origin + corr + corrUnits m.correction, (arrival.toNat : Int)) }))
    else d
  | none => d

/-- PTP_DELAY_REQ_SEND (R361). -/
def execPtpDelayReqSend (q : Nat) (t : BitVec 64) (d : Dev) : Dev :=
  let d := d.advance t
  if d.is R.TIME_PTP_enable q ∧ d.quayUp q ∧
      due ((d.ptp q).sent.getLast?.map (·.2)) (secU * 2 ^ d.get R.TIME_PTP_delay_req_log q / 128) t then
    d.modPtp q (fun x => { x with req := some (x.seq, t), seq := x.seq + 1, sent := x.sent ++ [(x.seq, t)] })
  else d

/-- PTP_DELAY_RESP (R362): mean path delay from the last Sync and this exchange. -/
def execPtpDelayResp (q : Nat) (m : PtpHead) (received : PtpTime) (t : BitVec 64) (d : Dev) : Dev :=
  let d := d.advance t
  match (d.ptp q).req, (d.ptp q).sync with
  | some (seq, t3), some (t1, t2) =>
    if d.ptpTakes q m ∧ seq = m.seq then
      let t4 := d.ptpUnits received - corrUnits m.correction
      let delay := ((t2 - t1) + (t4 - (t3.toNat : Int))) / 2
      ptpMeasure q (d.modPtp q (fun x => { x with req := none, delay := some delay }))
    else d
  | _, _ => d

/-- PTP_ANNOUNCE (R360, R362). -/
def execPtpAnnounce (q : Nat) (m : PtpHead) (utcValid : Bool) (utc : Nat) (logInterval : BitVec 8) (t : BitVec 64) (d : Dev) :
    Dev :=
  let d := d.advance t
  let free := d.quayUp q ∧ d.get R.TIME_PTP_gm_identity q = 0 ∧ (d.ptp q).gm = none
  let d := if free ∧ d.is R.TIME_PTP_enable q ∧ m.domain.toNat = d.get R.TIME_PTP_domain q ∧
      m.udp = d.is R.TIME_PTP_transport q then
      d.modPtp q (fun x => { x with gm := some m.gm }) else d
  if ¬ d.ptpTakes q m then d
  else
    let e := logInterval.toInt
    let interval := if e ≥ 0 then secU * 2 ^ e.toNat else secU / 2 ^ (-e).toNat
    let d := d.modPtp q (fun x => { x with announceAt := some t, interval := interval })
    let d := if d.get R.TIME_PTP_state q = ptLost then
        (d.modPtp q (fun x => { x with sync := none, delay := none, waiting := none })).set R.TIME_PTP_state q ptListen
      else d
    if utcValid then (d.setRw R.TIME_UTC_utc_offset 0 utc).set R.TIME_UTC_from_ptp 0 1 else d

/-- PTP_ANNOUNCE_TIMEOUT (R362). -/
def execPtpAnnounceTimeout (q : Nat) (t : BitVec 64) (d : Dev) : Dev :=
  let d := d.advance t
  match (d.ptp q).announceAt with
  | some t0 =>
    let st := d.get R.TIME_PTP_state q
    if (st = ptListen ∨ st = ptTracking) ∧
        tdiff t t0 ≥ (d.get R.TIME_PTP_announce_timeout q * (d.ptp q).interval : Nat) then
      chooseSource false ((d.modPtp q (fun x => { x with gm := none })).set R.TIME_PTP_state q ptLost)
    else d
  | none => d

/-! ### PPS and capture (R363, R364) -/

/-- PPS_EDGE (R363). -/
def execPpsEdge (falling : Bool) (t : BitVec 64) (d : Dev) : Dev :=
  let d := d.advance t
  if d.is R.TIME_PPS_enable ∧ d.is R.TIME_PPS_edge = falling then
    let d := d.modTime (fun x => { x with ppsAt := some t })
    if d.get R.TIME_STATUS_source = 9 ∧ ¬ d.time.lost then
      let r := t.toNat % secU
      let theta : Int := if r ≤ secU / 2 then (r : Int) else (r : Int) - secU
      d.modTime (fun x => { x with theta := some theta, delay := 0 })
    else chooseSource false d
  else d

/-- PPS_LOSS_TIMEOUT (R352). -/
def execPpsLossTimeout (t : BitVec 64) (d : Dev) : Dev :=
  let d := d.advance t
  if d.usable 9 then d else chooseSource false d

/-- The device at an edge at `t`, and the hall time that the edge stores: of an edge in the PX cycle of a step, the time
before the step (Table 12.4), by which or by the time after it the edge may be named. -/
def edgeTime (t : BitVec 64) (d : Dev) : Dev × BitVec 64 :=
  match d.time.stepped with
  | some (was, now) =>
    if cycleOf d.now = cycleOf now ∧ cycleOf t = cycleOf was then (d, t)
    else if cycleOf d.now = cycleOf now ∧ cycleOf t = cycleOf now then (d.advance t, t - now + was)
    else (d.advance t, t)
  | none => (d.advance t, t)

/-- CAPTURE_EDGE (R364). -/
def execCaptureEdge (falling : Bool) (t : BitVec 64) (d : Dev) : Dev :=
  let x := edgeTime t d
  let d := x.1
  if d.is R.TIME_CAPTURE_enable ∧ d.is R.TIME_CAPTURE_edge = falling then
    let missed := d.time.unread
    let d := ((d.set R.TIME_CAPTURE_value 0 x.2.toNat).incW R.TIME_CAPTURE_count).modTime (fun x => { x with unread := true })
    if missed then (d.setWc R.TIME_CAPTURE_overrun 0 1).raise E.TIME_CAPTURE_OVERRUN else d
  else d

/-- CAPTURE_VALUE_READ (R364): the value is answered and no longer unread. -/
def execCaptureValueRead (d : Dev) : Dev :=
  let d := d.modTime (fun x => { x with unread := false })
  { d with host := { d.host with readData := d.host.readData ++ [leBytes 8 (d.get R.TIME_CAPTURE_value)] } }

end Sys2Proof.Machine
end

