-- ==== Sys2Proof/Machine/Quay.lean ====
section
/-! DEFINITION. The Quay ports (15): ARP, the read queue pairs of the storage targets, pause, and the loss of a port.
On a grade C device the ports are absent (R27, R419). -/

namespace Sys2Proof.Machine

/-- States of QUAY_TARGET (R424). -/
def qsIdle : Nat := 0
def qsReady : Nat := 1
def qsError : Nat := 2

def Dev.qp (d : Dev) (t : Nat) : QpSt := tget {} d.quay.qps t
def Dev.modQp (d : Dev) (t : Nat) (f : QpSt → QpSt) : Dev :=
  { d with quay := { d.quay with qps := tput {} d.quay.qps t (f (d.qp t)) } }

/-- Send a frame. -/
def sendQuay (f : QuayFrame) (d : Dev) : Dev := { d with quay := { d.quay with sent := d.quay.sent ++ [f] } }

/-- A received pause ends with its time (R414). -/
def endPause (q : Nat) (d : Dev) : Dev :=
  if d.is R.QUAY_PORT_paused q ∧ tdiff d.now (tget 0 d.quay.pauseEnd q) ≥ 0 then d.set R.QUAY_PORT_paused q 0 else d

/-- Path MTU and the longest READ (R416). -/
def quayMtu : Nat := 4096
def quayRead : Nat := 1048576

/-- Response packets of a READ. -/
def quayPackets (len : Nat) : Nat := Nat.max 1 ((len + quayMtu - 1) / quayMtu)

/-- QUAY_TARGET word 3, outstanding. -/
def showOutstanding (t : Nat) (d : Dev) : Dev := d.set R.QUAY_TARGET_outstanding t (d.qp t).reads.length

/-- Issue the first READ that waits. -/
def issueRead (t : Nat) (d : Dev) : Dev :=
  match (d.qp t).waiting with
  | [] => d
  | (run, addr, len) :: rest =>
    let psn := (d.qp t).next
    let first := decide ((d.qp t).reads = [])
    let d := d.modQp t (fun x => { x with
      next := psn + BitVec.ofNat 24 (quayPackets len), waiting := rest,
      reads := x.reads ++ [{ run := run, addr := addr, len := len, psn := psn, got := 0 }],
      timerAt := if first then d.now else x.timerAt })
    sendQuay (.read t psn addr len) d

/-- The Ferry run that a READ serves still runs. -/
def Dev.runAlive (d : Dev) (id : Nat) : Bool :=
  d.ferry.runs.any (fun e => match e.2 with
    | some r => decide (r.id = id)
    | none => false)

/-- Issue READs up to 16 outstanding (R416), while the target is READY and its port may send. Reads of a command that
has ended are not issued. -/
def issueReads (t : Nat) (d : Dev) : Dev :=
  let q := d.get R.QUAY_TARGET_port t
  let d := endPause q d
  let d := d.modQp t (fun x => { x with waiting := x.waiting.filter (fun w => d.runAlive w.1) })
  if d.get R.QUAY_TARGET_state t ≠ qsReady ∨ ¬ d.quayUp q ∨ d.is R.QUAY_PORT_paused q then d
  else
    showOutstanding t ((List.range (Nat.min (16 - (d.qp t).reads.length) (d.qp t).waiting.length)).foldl
      (fun d _ => issueRead t d) d)

/-- Queue the READs of a FETCH in address order, each of at most 1 MiB (R416). -/
def queueReads (t run addr len : Nat) (d : Dev) : Dev :=
  let parts := (List.range ((len + quayRead - 1) / quayRead)).map (fun i =>
    (run, addr + quayRead * i, Nat.min quayRead (len - quayRead * i)))
  issueReads t (d.modQp t (fun x => { x with waiting := x.waiting ++ parts }))

/-- Bytes of a FETCH arrive in order; those of a command that has ended are discarded (Table 15.5). -/
def giveRun (id : Nat) (bytes : List Byte) (d : Dev) : Dev :=
  { d with ferry := { d.ferry with runs := d.ferry.runs.map (fun e => match e.2 with
      | some r => if r.id = id then (e.1, some { r with rx := r.rx ++ bytes }) else e
      | none => e) } }

/-- Every FETCH that uses a target ends SOURCE_LOST (R418, R185). -/
def failFetches (t : Nat) (d : Dev) : Dev :=
  { d with ferry := { d.ferry with runs := d.ferry.runs.map (fun e => match e.2 with
      | some r =>
        if r.cmd.op = fcFetch ∧ r.cmd.target = t ∧ r.fail = none then (e.1, some { r with fail := some 5 }) else e
      | none => e) } }

/-- Abandon a target's reads. -/
def dropReads (t : Nat) (d : Dev) : Dev :=
  showOutstanding t (d.modQp t (fun x => { x with reads := [], waiting := [], retries := 0, again := false }))

/-- A target enters ERROR (R418). -/
def targetError (t : Nat) (d : Dev) : Dev :=
  (failFetches t (dropReads t (d.set R.QUAY_TARGET_state t qsError))).raise E.QUAY_TARGET_ERROR none (some t)

/-- Go back to the first missing response (R416): its READ is sent again from there, and those behind it. -/
def goBack (t : Nat) (d : Dev) : Dev :=
  let d := (d.qp t).reads.foldl (fun d r =>
    sendQuay (.read t (r.psn + BitVec.ofNat 24 r.got) (r.addr + quayMtu * r.got) (r.len - quayMtu * r.got)) d) d
  let d := d.modQp t (fun x => { x with again := true, timerAt := d.now })
  d.inc C.QUAY_COUNTS_retransmits (d.get R.QUAY_TARGET_port t)

/-- One retry, or ERROR when the seven are used (R416, R418). -/
def retryReads (t : Nat) (d : Dev) : Dev :=
  if (d.qp t).retries ≥ 7 then targetError t d
  else goBack t (d.modQp t (fun x => { x with retries := x.retries + 1 }))

/-- A congestion-marked response is answered with a CNP, at most one in 50 µs (R416). -/
def sendCnp (t : Nat) (d : Dev) : Dev :=
  let due := match (d.qp t).cnpAt with
    | none => true
    | some t0 => decide (tdiff d.now t0 ≥ (50 * usU : Nat))
  if due then sendQuay (.cnp t) (d.modQp t (fun x => { x with cnpAt := some d.now })) else d

/-- The response that a target expects next arrives. -/
def takeResponse (t : Nat) (r : QuayRead) (rest : List QuayRead) (data : List Byte) (d : Dev) : Dev :=
  let done := decide (r.got + 1 ≥ quayPackets r.len)
  let reads := if done then rest else { r with got := r.got + 1 } :: rest
  let d := d.modQp t (fun x => { x with reads := reads, retries := 0, again := false, timerAt := d.now })
  issueReads t (showOutstanding t (giveRun r.run data d))

/-! ### The receive buffer (R414) -/

/-- Bytes of the receive buffer above which a port pauses its sender: three-quarters of 2 MiB. -/
def quayFull : Nat := 1572864

/-- Bytes that a port has received and the Ferry has not yet taken. -/
def Dev.quayHeld (d : Dev) (q : Nat) : Nat :=
  d.ferry.runs.foldl (fun n e => match e.2 with
    | some r => if r.cmd.op = fcFetch ∧ d.get R.QUAY_TARGET_port r.cmd.target = q then n + r.rx.length else n
    | none => n) 0

/-- A port pauses its sender while the buffer is more than three-quarters full, and lets it go on after that. -/
def settlePause (q : Nat) (d : Dev) : Dev :=
  let full := d.quayUp q && decide (d.quayHeld q > quayFull)
  if full = decide (q ∈ d.quay.pausing) then d
  else
    let d := { d with quay := { d.quay with
      pausing := if full then q :: d.quay.pausing else d.quay.pausing.filter (fun p => decide (p ≠ q)) } }
    if d.quayUp q then sendQuay (.pfc q (d.get R.QUAY_PORT_pcp q) full) d else d

/-- What follows a command at the ports: a pause that has run out ends, READs that it held back are issued, and each
port's own pause follows its buffer. -/
def settleQuay (d : Dev) : Dev :=
  let d := settlePause 1 (settlePause 0 (endPause 1 (endPause 0 d)))
  (d.quay.qps.filter (fun e => decide (e.2.waiting ≠ []))).foldl (fun d e => issueReads e.1 d) d

/-- ROCE_READ_RESPONSE (R416, R418). -/
def execRoceReadResponse (t : Nat) (psn : BitVec 24) (marked : Bool) (data : List Byte) (now : BitVec 64) (d : Dev) : Dev :=
  let d := d.advance now
  if d.get R.QUAY_TARGET_state t ≠ qsReady ∨ ¬ d.quayUp (d.get R.QUAY_TARGET_port t) then d
  else
    let d := if marked then sendCnp t d else d
    match (d.qp t).reads with
    | [] => d
    | r :: rest =>
      let want := r.psn + BitVec.ofNat 24 r.got
      if psn = want then
        if data.length = Nat.min quayMtu (r.len - quayMtu * r.got) then takeResponse t r rest data d else d
      else if (psn - want).toInt > 0 ∧ ¬ (d.qp t).again then retryReads t d
      else d

/-- The local ACK timeout: 4.096 µs × 2^14 (R416). -/
def quayTimeout : Nat := 65536 * 16384

/-- ROCE_ACK_TIMEOUT (R416, R418). -/
def execRoceAckTimeout (t : Nat) (now : BitVec 64) (d : Dev) : Dev :=
  let d := d.advance now
  let x := d.qp t
  if d.get R.QUAY_TARGET_state t = qsReady ∧ x.reads ≠ [] ∧ tdiff now x.timerAt ≥ (quayTimeout : Nat) then retryReads t d
  else d

/-- ARP_REQUEST (R415). -/
def execArpRequest (q : Nat) (target : BitVec 32) (mac : BitVec 48) (ip : BitVec 32) (d : Dev) : Dev :=
  if d.quayUp q ∧ target.toNat = d.get R.QUAY_PORT_ipv4 q then sendQuay (.arp q mac ip) d else d

/-- PFC_PAUSE (R414): a time in quanta of 512 bit times, 1.28 ns each; 0 ends the pause. -/
def execPfcPause (q priority quanta : Nat) (now : BitVec 64) (d : Dev) : Dev :=
  let d := d.advance now
  if ¬ d.quayUp q ∨ priority ≠ d.get R.QUAY_PORT_pcp q then d
  else
    let until' := d.now + BitVec.ofNat 64 (quanta * 2048 / 100)
    let d := { d with quay := { d.quay with pauseEnd := tput 0 d.quay.pauseEnd q until' } }
    let d := d.setB R.QUAY_PORT_paused q (decide (quanta ≠ 0))
    if quanta = 0 then
      ((List.range 64).filter (fun t => decide (d.get R.QUAY_TARGET_port t = q ∧ (d.qp t).waiting ≠ []))).foldl
        (fun d t => issueReads t d) d
    else d

/-- Word 0 of QUAY_TARGET but for enable: a write while enable is 1 changes nothing (R417). -/
def setTarget (t v : Nat) (d : Dev) : Dev :=
  if d.is R.QUAY_TARGET_enable t then d
  else ((d.set R.QUAY_TARGET_ipv4 t (bits v 0 32)).set R.QUAY_TARGET_dqpn t (bits v 32 24)).set R.QUAY_TARGET_port t (bits v 56 1)

/-- QUAY_TARGET_ENABLE (R417): a write of word 0 with enable 1. A target whose port has gone down in the same PX cycle
enters ERROR (Table 15.5). -/
def execQuayTargetEnable (t v : Nat) (now : BitVec 64) (d : Dev) : Dev :=
  let d := d.advance now
  if ¬ d.quayPresent ∨ d.is R.QUAY_TARGET_enable t then d
  else
    let d := dropReads t (setTarget t v d)
    let d := d.modQp t (fun x => { x with next := BitVec.ofNat 24 (d.get R.QUAY_TARGET_sq_psn t), cnpAt := none })
    let d := (d.set R.QUAY_TARGET_enable t 1).set R.QUAY_TARGET_state t qsReady
    if tget none d.quay.downAt (d.get R.QUAY_TARGET_port t) = some (cycleOf d.now) then targetError t d else d

/-- QUAY_TARGET_DISABLE (R417): a write of word 0 with enable 0. -/
def execQuayTargetDisable (t v : Nat) (d : Dev) : Dev :=
  if ¬ d.quayPresent then d
  else if d.is R.QUAY_TARGET_enable t then
    failFetches t (dropReads t ((d.set R.QUAY_TARGET_enable t 0).set R.QUAY_TARGET_state t qsIdle))
  else setTarget t v d

/-- A port goes down (R418, R419, R352). -/
def quayDown (q : Nat) (d : Dev) : Dev :=
  if ¬ d.quayPresent ∨ ¬ d.is R.QUAY_PORT_link_up q then d
  else
    let d := (d.set R.QUAY_PORT_link_up q 0).set R.QUAY_PORT_paused q 0
    let d := { d with quay := { d.quay with downAt := tput none d.quay.downAt q (some (cycleOf d.now)) } }
    let d := (d.inc C.QUAY_COUNTS_link_downs q).raise E.QUAY_LINK_DOWN none (some q)
    let d := ((List.range 64).filter (fun t =>
      decide (d.get R.QUAY_TARGET_port t = q ∧ d.get R.QUAY_TARGET_state t = qsReady))).foldl (fun d t => targetError t d) d
    if d.get R.TIME_PTP_state q = ptIdle then d
    else chooseSource false ((d.modPtp q (fun x => { x with gm := none })).set R.TIME_PTP_state q ptLost)

/-- QUAY_LINK_DOWN (R419). -/
def execQuayLinkDown (q : Nat) (now : BitVec 64) (d : Dev) : Dev := quayDown q (d.advance now)

/-- QUAY_LINK_UP (R419): a port that is enabled regains its lock. -/
def execQuayLinkUp (q : Nat) (now : BitVec 64) (d : Dev) : Dev :=
  let d := d.advance now
  if d.quayPresent ∧ d.is R.QUAY_PORT_enable q ∧ ¬ d.is R.QUAY_PORT_link_up q then
    (d.set R.QUAY_PORT_link_up q 1).raise E.QUAY_LINK_UP none (some q)
  else d

/-- FCS_FAILED_FRAME (R415): a frame that fails FCS or ICRC is discarded and counted; one that is not accepted is
discarded. -/
def execFcsFailedFrame (q : Nat) (kind : BadFrame) (d : Dev) : Dev :=
  if ¬ d.quayUp q then d
  else match kind with
    | .fcs => d.inc C.QUAY_COUNTS_fcs_errors q
    | .icrc => d.inc C.QUAY_COUNTS_icrc_errors q
    | .other => d

end Sys2Proof.Machine
end

