-- ==== Sys2Proof/Machine/Ferry.lean ====
section
/-! DEFINITION. HBM commands and the Ferry (06): scrub, plan streams, areas, the command ring, shards received and
verified, completion, residency commands, re-hash and the slower tier. -/

namespace Sys2Proof.Machine

/-! ### HBM -/

/-- HBM_PATROL_SCRUB (R172): the locations of a stack in [a, a + len) are read and corrected. -/
def execHbmPatrolScrub (s a len : Nat) (us : List HbmUpset) (d : Dev) : Dev :=
  let d := takeHbmUpsets us d
  if ¬ d.is R.HB_SCRUB_enable then d
  else
    let die := dieOfStack s
    (d.hbmErr.filter (fun e => let x := e.1 % 2 ^ 34 * 32
      decide (e.1 / 2 ^ 34 = die ∧ stackOf die x = s ∧ a ≤ x ∧ x < a + len))).foldl (fun d e =>
      (readHalf byScrub none e.1 e.2 d).1) d

/-- Die address of a stream's data. A serving plan's record stream reads the record buffer of the step's parity, and a
write stream at SVC_RESULT_BASE writes the result buffer of that parity (07, "Step record and step result";
notes/assumptions/26.md). -/
def Dev.streamAt (d : Dev) (l : Landing) : Nat :=
  let odd := d.get R.SVC_STATUS_step % 2
  if d.plan.serving ∧ (l.kind = 3 ∨
      (l.kind = 2 ∧ l.hbm = bits (d.get R.SVC_RESULT_BASE_base (dieOf l.region)) 0 39)) then l.hbm + 65536 * odd
  else l.hbm

/-- A read stream may fill: a record stream only once the record of the step is published (R211). -/
def Dev.streamReady (d : Dev) (l : Landing) : Bool :=
  decide (l.kind = 1) || (decide (l.kind = 3) && (!d.plan.serving || d.svc.published))

/-- HBM_READ_ARRIVAL (R175, R393): the next 64-byte unit of a read stream arrives in its landing space. -/
def execHbmReadArrival (r id : Nat) (us : List HbmUpset) (d : Dev) : Dev :=
  let d := takeHbmUpsets us d
  match d.landing r id with
  | none => d
  | some l =>
    if ¬ d.streamReady l ∨ ¬ (d.reg r).streamRun then d
    else
      let at0 := d.streamAt l
      let j := d.get R.TIDE_NUMBER_tide
      let die := dieOf r
      let n := d.landedUnits l j
      if 64 * n ≥ l.bytes then d
      else
        let x := hbmRead byPlan (some r) die (at0 + 64 * n) 64 d
        if x.2 then x.1
        else x.1.landWrite l 0 j 0 (fun n => 64 * n) (mbytes x.1.mem (hbmKey die (at0 + 64 * n)) (Nat.min 64 (l.bytes - 64 * n)))
          ((l.bytes + 63) / 64)

/-- RING_PAGE_FILL (R97, R99): the next image page goes into its ring page, once the sequencer has left the page there
and no active loop starts in it. It is a plan stream read (R171). -/
def execRingPageFill (r : Nat) (d : Dev) : Dev :=
  let u := d.reg r
  let q := u.nextFill
  let p := d.planPage r q
  let old := tget 0 u.ring p
  let free := decide (old = 0) ||
    (decide (old ≤ u.leftPages ∧ old - 1 ≠ d.get R.SEQ_STREAM_pc_page r) &&
      u.loops.all (fun f => decide (f.start / 32768 ≠ old - 1)))
  if u.streamRun ∧ d.get R.SEQ_STREAM_ring_pages r ≠ 0 ∧ q ≥ d.get R.SEQ_STREAM_resident_pages r ∧ q < u.imagePages ∧
      free then
    let a := u.pagesAt + q * 65536
    let x := hbmRead byPlan (some r) (bits a 39 1) (bits a 0 39) 65536 d
    if x.2 then x.1
    else
      let d := { x.1 with mem := copyMem x.1.mem (hbmKey (bits a 39 1) (bits a 0 39)) 65536 (planKey r (p * 65536)) x.1.mem }
      (d.modReg r (fun u => { u with ring := tput 0 u.ring p (q + 1), nextFill := q + 1 })).set R.SEQ_STREAM_fill_page r q
  else d

/-- HBM_WRITE_ACCEPT (R176, R393): a stack accepts the next word of a write stream, read from a cell's scratchpad; the
source words of tide j are taken from start(j + offset). -/
def execHbmWriteAccept (r id c off : Nat) (d : Dev) : Dev :=
  match d.landing r id with
  | none => d
  | some l =>
    if l.kind ≠ 2 ∨ ¬ (d.reg r).streamRun ∨ ¬ d.cellPresent r c ∨ off + 8 > spSize r then d
    else match dueTide l (d.get R.TIDE_NUMBER_tide) with
    | none => d
    | some j =>
      let n := d.landedUnits l j
      if 8 * n ≥ l.bytes then d
      else
        let x := eccWords r c [off / 8 * 8] d
        if x.2 then x.1.raise E.SP_UNCORRECTABLE (some r) (some c)
        else
          let d := hbmWrite (dieOf r) (d.streamAt l + 8 * n) (mbytes x.1.mem (spKey r c (off / 8 * 8)) 8) x.1
          d.landWrite l 0 j 0 (fun _ => 0) [] ((l.bytes + 7) / 8)

/-- An HB_AREA register takes a value (R169). -/
def setArea (die a v : Nat) (d : Dev) : Dev :=
  let base := bits v 0 24 * 65536
  let size := bits v 24 24 * 65536
  let clash := (List.range 8).any (fun o =>
    let b := d.area die o
    decide (o ≠ a ∧ b.2 > 0 ∧ size > 0 ∧ base < b.1 + b.2 ∧ b.1 < base + size))
  if clash ∨ base + size > hbmSize die then d.raise E.HB_AREA_CONFIG none (some (die * 8 + a))
  else (d.set R.HB_AREA_base (die * 8 + a) (bits v 0 24)).set R.HB_AREA_size (die * 8 + a) (bits v 24 24)

/-- HB_AREA_WRITE (R169, R523). -/
def execHbAreaWrite (die a v : Nat) (d : Dev) : Dev := if d.bootLocked die then d else setArea die a v d

/-! ### Commands (R181, Table 6.4) -/

/-- A command from its words (Table 6.4); second part, its opcode and reserved fields are good. -/
def decodeFerry (w : Nat → Nat) (slot : Nat) : FerryCmd × Bool :=
  let mask := bits (w 4) 60 4
  let hops := [bits (w 4) 0 20, bits (w 4) 20 20, bits (w 4) 40 20, bits (w 5) 0 20]
  let op := bits (w 0) 0 8
  ({ op := op, model := bits (w 0) 8 7, notify := bit (w 0) 15, shard := bits (w 0) 16 32, target := bits (w 1) 0 8,
     source := bits (w 1) 8 20, address := w 2, offset := bits (w 3) 0 40,
     hops := ((List.range 4).filter (fun i => bit mask i)).map (fun i => hops.getD i 0), slot := some slot },
   decide (1 ≤ op ∧ op ≤ 6 ∧ bits (w 0) 48 16 = 0 ∧ bits (w 1) 28 36 = 0 ∧ bits (w 3) 40 24 = 0 ∧
     bits (w 5) 20 44 = 0 ∧ w 6 = 0))

/-- A ring entry as the Ferry reads it (R170). One that cannot be read has no good opcode. -/
def readEntry (i : Nat) (e : Nat × Nat) (d : Dev) : Dev × FerryCmd × Bool :=
  let x := hbmRead byFerry none e.1 e.2 64 d
  let c := decodeFerry (fun k => mnum x.1.mem (hbmKey e.1 (e.2 + 8 * k)) 8) i
  (x.1, c.1, c.2 && !x.2)

/-- Place of the next ring command to start; none: the ring is empty, off, or held by QUIESCE_N. -/
def Dev.ferryFront (d : Dev) : Option (Nat × Nat) :=
  if d.is R.FERRY_RING_CTL_enable ∧ d.ferry.next ≠ d.get R.FERRY_RING_TAIL_tail ∧ ¬ d.ferry.stopped then
    d.ferryEntry d.ferry.next
  else none

/-- The next ring command to start. -/
def Dev.nextFerry (d : Dev) : Option (FerryCmd × Bool) :=
  d.ferryFront.map (fun e => (readEntry d.ferry.next e d).2)

/-- The device once the Ferry has read the entry in front. -/
def readFront (d : Dev) : Dev :=
  match d.ferryFront with
  | some e => (readEntry d.ferry.next e d).1
  | none => d

/-- FERRY_RING_TAIL_WRITE. -/
def execFerryRingTailWrite (v : Nat) (d : Dev) : Dev := d.set R.FERRY_RING_TAIL_tail 0 v

def Dev.freeRun (d : Dev) : Option Nat := (List.range 8).find? (fun i => (d.run i).isNone)

/-- The statuses that a command meets when it starts, lowest first. A re-hash and a write of one copy may run together
(Table 6.8). -/
def startFails (c : FerryCmd) (d : Dev) : Option Nat :=
  let load := c.op = fcFetch ∨ c.op = fcPush ∨ c.op = fcRecv
  let badPush := decide (c.op = fcPush) && (match d.hbmAt c.address with
    | some (die, a) => decide (d.areaAt die a 2048 ≠ areaFerry)
    | none => true)
  if badPush then some fsFormat
  else if c.op = fcFetch ∧ d.quayPresent ∧ d.get R.QUAY_TARGET_state c.target ≠ qsReady then some fsSourceLost
  else if load ∧ ¬ (d.modelState c.model = msLoading ∨ d.modelState c.model = msResident ∨
      d.modelState c.model = msRepairing) then some fsSpace
  else if c.op = fcFetch ∧ ¬ d.quayPresent then some fsAbsent
  else if c.op ≠ fcEvict ∧ d.ferry.runs.any (fun e => match e.2 with
      | some r => decide (r.cmd.op ≠ fcEvict ∧ r.cmd.model = c.model ∧ r.cmd.shard = c.shard) &&
          decide (r.cmd.writes = c.writes)
      | none => false) then some fsDuplicate
  else if c.op = fcEvict ∧ d.get R.FERRY_MODEL_users c.model ≠ 0 then some fsBusy
  else none

/-- What waits for the host ends when a command for it starts (R186, R188, R194, R200). -/
def endWaits (c : FerryCmd) (d : Dev) : Dev :=
  { d with ferry := { d.ferry with waits := d.ferry.waits.filter (fun w =>
      !(match w.2.1 with
        | .load => decide (w.1 = c.model)
        | .shard s => decide (w.1 = c.model ∧ s = c.shard)
        | .repair s => decide (w.1 = c.model ∧ s = c.shard ∧ (c.op = fcMirror ∨ c.op = fcRecv ∨ c.op = fcFetch))
        | .evict => decide (c.op = fcEvict))) } }

/-- A MIRROR reads the verified copy and sends it over the Isthmus to the bad one (R198); a source that cannot be read is
lost. -/
def startMirror (i id : Nat) (c : FerryCmd) (d : Dev) : Dev :=
  let m := c.model
  let x := d.shard m c.shard
  let lose := fun (d : Dev) => d.setRun i ((d.run i).map (fun r => { r with fail := some fsSourceLost }))
  match (d.diesOf m).find? (fun k => bit x.good k) with
  | none => lose d
  | some src =>
    let a := d.extent m src + x.offset
    let y := hbmRead byFerry none src a x.length d
    if y.2 then lose y.1
    else ((d.diesOf m).filter (fun k => bit x.bad k)).foldl (fun d k =>
      d.istQueue (k = 1) icFerry 0 0 (d.get R.DEV_ADDR_address * 2 ^ 44 + k * 2 ^ 39 + d.extent m k + x.offset)
        (x.length / 64) (.mirror id src a (d.extent m k + x.offset))) y.1

/-- A command starts in run slot `i`. -/
def startRun (i : Nat) (c : FerryCmd) (d : Dev) : Dev :=
  let fail := startFails c d
  let d := endWaits c d
  let d :=
    if c.op = fcEvict ∧ fail = none ∧ (d.modelState c.model = msLoading ∨ d.modelState c.model = msResident ∨
        d.modelState c.model = msRepairing) then
      beginEvict c.model (abortRuns (fun x => decide (x.model = c.model)) false d)
    else d
  let id := d.ferry.started
  let d := { d with ferry := { d.ferry with started := id + 1 } }
  let d := d.setRun i (some
    { id := id, cmd := c, began := d.now, header := [], cipher := [], rx := [], fail := fail, relayFail := false })
  if c.op = fcFetch ∧ fail = none then queueReads c.target id c.address 2048 d
  else if c.op = fcMirror ∧ fail = none then startMirror i id c d
  else d

/-- The oldest command with an opcode that the Ferry issued to itself. -/
def Dev.ownNext (d : Dev) (op : Nat) : Option FerryCmd :=
  if d.ferry.stopped then none else d.ferry.own.find? (fun c => c.op = op)

/-- The Ferry goes on to the next ring entry. -/
def passEntry (d : Dev) : Dev := { d with ferry := { d.ferry with next := (d.ferry.next + 1) % d.ferrySize } }

/-- Start the next command: the ring's, if it has this opcode, or the Ferry's own. -/
def startCmd (op : Nat) (own : Bool) (t : BitVec 64) (d : Dev) : Dev :=
  let d := d.advance t
  match d.freeRun with
  | none => d
  | some i =>
    if own then
      match d.ownNext op with
      | some c => startRun i c { d with ferry := { d.ferry with own := d.ferry.own.erase c } }
      | none => d
    else
      match d.nextFerry with
      | some (c, true) => if c.op = op then startRun i c (passEntry (readFront d)) else d
      | _ => d

/-- FETCH (R182). -/
def execFetch (own : Bool) (t : BitVec 64) (d : Dev) : Dev := startCmd fcFetch own t d
/-- PUSH (R182): one that QUIESCE_N aborted and the Ferry posted again goes first (R188). -/
def execPush (t : BitVec 64) (d : Dev) : Dev := startCmd fcPush (d.ownNext fcPush).isSome t d
/-- RECV (R182). -/
def execRecv (own : Bool) (t : BitVec 64) (d : Dev) : Dev := startCmd fcRecv own t d
/-- MIRROR (R198). -/
def execMirror (own : Bool) (t : BitVec 64) (d : Dev) : Dev := startCmd fcMirror own t d
/-- EVICT (R195). -/
def execEvict (t : BitVec 64) (d : Dev) : Dev := startCmd fcEvict false t d

/-- A verified copy of a resident shard that this round of re-hashing has not reached (R201). -/
def Dev.unhashed (d : Dev) : Option Nat :=
  (d.ferry.shards.find? (fun e => decide (e.2.good &&& (e.2.good ^^^ e.2.hashed) ≠ 0) &&
    decide (d.modelState (e.1 / 2 ^ 32) = msResident ∨ d.modelState (e.1 / 2 ^ 32) = msRepairing))).map (·.1)

/-- REHASH (R201): the device's own takes the next copy of the round. -/
def execRehash (own : Bool) (t : BitVec 64) (d : Dev) : Dev :=
  if own then
    let d := d.advance t
    match d.freeRun, d.unhashed with
    | some i, some k =>
      if d.ferry.stopped then d else startRun i (ownCmd fcRehash (k / 2 ^ 32) (k % 2 ^ 32) 0 0 0 0) d
    | _, _ => d
  else startCmd fcRehash false t d

/-! ### Shards (R178 to R185) -/

/-- A field of a shard header (Table 6.3). -/
def hdrNum (h : List Byte) (off n : Nat) : Nat := leNat ((h.drop off).take n)
def hdrBytes (h : List Byte) (off n : Nat) : List Byte := (h.drop off).take n

/-- Plaintext length of a shard. -/
def hdrLength (h : List Byte) : Nat := hdrNum h 0x18 8

/-- A shard is DIRECT. -/
def hdrDirect (h : List Byte) : Bool := decide (hdrNum h 6 1 = 0)

/-- The header checks of Table 6.5, FORMAT. -/
def hdrOk (h : List Byte) : Bool :=
  decide (hdrNum h 0 4 = 0x53485244 ∧ hdrNum h 4 2 = 1 ∧ hdrNum h 6 1 ≤ 1 ∧ hdrNum h 7 1 = 0 ∧
    hdrNum h 0x60 32 = 0 ∧ hdrNum h 0x6A0 352 = 0 ∧ hdrLength h % 65536 = 0 ∧ 65536 ≤ hdrLength h ∧
    hdrLength h ≤ 1073741824)

/-- The STORED key of a shard (R179): model key, model id, shard index and generation in their header widths. -/
def storedKey (modelKey : List Byte) (id shard gen : Nat) : List Byte :=
  shake256 (modelKey ++ leBytes 8 id ++ leBytes 4 shard ++ leBytes 4 gen) 32

/-- The shard key (R179); none where the key-store entry is empty. -/
def Dev.shardKeyOf (d : Dev) (m : Nat) (h : List Byte) : Option (List Byte) :=
  if hdrDirect h then some (Config.kemDecap d.fuses.serial (hdrBytes h 0x80 1568))
  else (tget none d.sec.keys (d.get R.FERRY_MODEL_key_index m)).map (fun k =>
    storedKey k (hdrNum h 8 8) (hdrNum h 0x10 4) (hdrNum h 0x2C 4))

/-- XOR of two byte lists. -/
def xorBytes (a b : List Byte) : List Byte := List.zipWith (fun x y => x ^^^ y) a b

/-- Send bytes of a shard to the next hops, in single sends of at most 928 bytes (R183, R331). -/
def relayBytes (hops : List Nat) (off : Nat) (bytes : List Byte) (d : Dev) : Dev :=
  hops.foldl (fun d hop => (List.range ((bytes.length + 927) / 928)).foldl (fun d i =>
    let part := (bytes.drop (928 * i)).take 928
    request rqFerry hop opRelay (off + 928 * i) (part.length / 8) part 2 d) d) d

/-- The next bytes from a command's source: the header, then 64 KiB blocks; none where the source has not delivered
them; an error of the source is SOURCE_LOST. -/
def nextBytes (r : FerryRun) (want : Nat) (d : Dev) : Dev × Option (Except Nat (List Byte × FerryRun)) :=
  if r.cmd.op = fcFetch ∨ r.cmd.op = fcRecv then
    (d, if r.rx.length < want then none else some (.ok (r.rx.take want, { r with rx := r.rx.drop want })))
  else
    let pos := if r.header = [] then 0 else 2048 + r.cipher.length
    match d.hbmAt (r.cmd.address + pos) with
    | none => (d, some (.error fsSourceLost))
    | some (die, a) =>
      let x := hbmRead byFerry none die a want d
      (x.1, some (if x.2 then .error fsSourceLost else .ok (mbytes x.1.mem (hbmKey die a) want, r)))

/-- The command fails on this device; what it has wholly received goes to its next hops all the same (R185). -/
def relayHeld (r : FerryRun) (d : Dev) : Dev :=
  if r.header = [] ∨ ¬ hdrOk r.header ∨ hdrDirect r.header then d
  else (List.range (r.rx.length / 65536)).foldl (fun d k =>
    relayBytes r.cmd.hops (2048 + r.cipher.length + 65536 * k) ((r.rx.drop (65536 * k)).take 65536) d) d

/-- A shard header arrives: its checks, room in the extent, the key; a STORED one is relayed first (R183). -/
def takeHeader (i : Nat) (r : FerryRun) (h : List Byte) (d : Dev) : Dev :=
  let m := r.cmd.model
  let fail :=
    if ¬ hdrOk h then some fsFormat
    else if (d.shardKeyOf m h).isNone then some fsKey
    else if r.cmd.offset + hdrLength h > d.get R.FERRY_MODEL_size m then some fsSpace
    else none
  let d := d.setRun i (some { r with header := h, fail := fail })
  let d := if r.cmd.op = fcFetch ∧ fail = none then
      queueReads r.cmd.target r.id (r.cmd.address + 2048) (hdrLength h) d
    else d
  if fail = some fsFormat ∨ hdrDirect h then d
  else
    let d := relayBytes r.cmd.hops 0 h d
    if fail = none then d else relayHeld { r with header := h } d

/-- Data that the Ferry, on Estuary, writes to a die's stacks: to Headland's through the Isthmus (Table 1.1). -/
def ferryWrite (run die a : Nat) (bytes : List Byte) (d : Dev) : Dev :=
  if die = 0 then
    d.istQueue false icFerry 0 0 (d.get R.DEV_ADDR_address * 2 ^ 44 + a) ((bytes.length + 63) / 64) (.ferry run a bytes)
  else hbmWrite die a bytes d

/-- A ciphertext block arrives: decrypted, written to every die of the mask, and relayed (R183, R184). -/
def takeBlock (i : Nat) (r : FerryRun) (c : List Byte) (d : Dev) : Dev :=
  let m := r.cmd.model
  match d.shardKeyOf m r.header with
  | none => relayHeld { r with rx := c ++ r.rx } (d.setRun i (some { r with fail := some fsKey }))
  | some k =>
    let pos := r.cipher.length
    let plain := xorBytes c (Config.gcmStream k (hdrBytes r.header 0x20 12) pos c.length)
    let d := (d.diesOf m).foldl (fun d die => ferryWrite r.id die (d.extent m die + r.cmd.offset + pos) plain d) d
    let d := d.setRun i (some { r with cipher := r.cipher ++ c })
    if hdrDirect r.header then d else relayBytes r.cmd.hops (2048 + pos) c d

/-- FERRY_BLOCK_RECEIVED (R183): the next block of a command's source, as far as the source has delivered it. -/
def execFerryBlockReceived (i : Nat) (d : Dev) : Dev :=
  match d.run i with
  | none => d
  | some r =>
    let load := r.cmd.op = fcFetch ∨ r.cmd.op = fcPush ∨ r.cmd.op = fcRecv
    let done := r.header ≠ [] ∧ r.cipher.length ≥ hdrLength r.header
    if ¬ load ∨ r.fail.isSome ∨ done ∨ (d.diesOf r.cmd.model).any d.dieTrains then d
    else
      match nextBytes r (if r.header = [] then 2048 else 65536) d with
      | (d, none) => d
      | (d, some (.error e)) => d.setRun i (some { r with fail := some e })
      | (d, some (.ok (bs, r))) => if r.header = [] then takeHeader i r bs d else takeBlock i r bs d

/-! ### Completion (R184, R185, R188) -/

/-- The copy on a die hashes to a digest; errors met on the way make it fail. -/
def copyHashes (m die off len : Nat) (digest : List Byte) (d : Dev) : Dev × Bool :=
  let a := d.extent m die + off
  let x := hbmRead byFerry none die a len d
  (x.1, !x.2 && decide (shake256 (mbytes x.1.mem (hbmKey die a) len) 32 = digest))

/-- Every die of the mask holds a verified copy (R189, R197, R198). -/
def shardVerified (m s : Nat) (x : ShardSt) (d : Dev) : Dev :=
  let old := d.shard m s
  let mask := d.get R.FERRY_MODEL_die_mask m
  let fresh := popCount mask 2 - popCount (mask &&& old.good) 2
  let fixed := popCount old.bad 2
  let d := d.modShard m s (fun _ => { x with good := mask, bad := 0, tried := 0, hashed := old.hashed })
  let d := d.inc C.FERRY_COUNTS_verified 0 fresh
  let d := if fixed = 0 then d else (d.inc C.FERRY_COUNTS_repaired 0 fixed).raise E.SHARD_REPAIRED none (some m)
  settleModel m d

/-- The bit of `ShardSt.tried` that a command's source has. -/
def FerryCmd.sourceBit (c : FerryCmd) : Nat :=
  if c.op = fcMirror then 1 else if c.op = fcRecv then 2 else if c.op = fcFetch then 4 else 0

/-- A load of a shard failed (R188, R198): a source that failed is passed over. After a PUSH both sources of the
manifest entry are open, the storage target first (notes/assumptions/106.md). -/
def shardFailed (c : FerryCmd) (d : Dev) : Dev :=
  let m := c.model
  let s := c.shard
  let e := d.manifest m s
  if d.modelState m = msLoading then
    let d := d.modShard m s (fun x => { x with tried := x.tried ||| c.sourceBit })
    if d.hosted 3 then ferryWait m (.shard s) (d.raise E.MODEL_NEEDED none (some m))
    else if e.target ≠ 0xFF ∧ d.quayPresent ∧ ¬ bit (d.shard m s).tried 2 then postFetch m s d
    else if e.neighbour.isSome ∧ ¬ bit (d.shard m s).tried 1 then postRecv m s (e.neighbour.getD 0) d
    else modelFail m d
  else if d.modelState m = msRepairing ∧ (d.shard m s).bad ≠ 0 then
    let d := d.modShard m s (fun x => { x with tried := x.tried ||| c.sourceBit })
    if d.mending m s then d else seekRepair m s d
  else d

/-- An own command found another of its shard running (R185): its source has not been tried, and the shard's fate is
that command's. -/
def untry (c : FerryCmd) (d : Dev) : Dev :=
  if c.slot = none then d.modShard c.model c.shard (fun x => { x with tried := x.tried &&& (7 - c.sourceBit) }) else d

/-- What follows a command that ended with a status other than VERIFIED (R188, R194, R198). -/
def afterFailed (c : FerryCmd) (status : Nat) (d : Dev) : Dev :=
  if c.op = fcEvict then (if d.hosted 4 then retryLoads d else d)
  else if ¬ c.writes then d
  else if status = fsDuplicate then untry c d
  else if (1 ≤ status ∧ status ≤ 6) ∨ d.modelState c.model = msRepairing then shardFailed c d
  else d

/-- FERRY_FORMAT (R181): a ring command with a bad opcode or field completes at once. -/
def execFerryFormat (t : BitVec 64) (d : Dev) : Dev :=
  let d := d.advance t
  match d.freeRun, d.nextFerry with
  | some _, some (c, false) => afterFailed c fsFormat (reportCmd c fsFormat (passEntry (readFront d)))
  | _, _ => d

/-- How a load, once all has arrived, ends on this device. Second part: the status and the shard it leaves. -/
def loadStatus (r : FerryRun) (badCopy : Bool) (d : Dev) : Dev × Nat × ShardSt :=
  let m := r.cmd.model
  let h := r.header
  let len := hdrLength h
  let digest := hdrBytes h 0x30 32
  let sh : ShardSt :=
    { direct := hdrDirect h, digest := digest, length := len, offset := r.cmd.offset }
  match d.shardKeyOf m h with
  | none => (d, fsKey, sh)
  | some k =>
    let iv := hdrBytes h 0x20 12
    let plain := xorBytes r.cipher (Config.gcmStream k iv 0 len)
    if Config.gcmTag k iv (hdrBytes h 0 0x50) r.cipher ≠ hdrBytes h 0x50 16 then (d, fsTag, sh)
    else if shake256 plain 32 ≠ digest then (d, fsDigest, sh)
    else if (d.diesOf m).contains 0 then
      let x := copyHashes m 0 r.cmd.offset len digest d
      if x.2 ∧ ¬ badCopy then (x.1, fsVerified, sh)
      else
        -- the read-back of the Headland copy failed; Estuary's stands verified (R184, R197)
        let d := x.1.modShard m r.cmd.shard (fun o =>
          { sh with good := (d.get R.FERRY_MODEL_die_mask m) &&& 2, bad := o.bad, tried := o.tried })
        (markBad m r.cmd.shard 0 d, fsDigest, sh)
    else (d, fsVerified, sh)

/-- A MIRROR whose copies have crossed the Isthmus: each bad copy is verified where it now lies (R198). -/
def mirrorStatus (c : FerryCmd) (badCopy : Bool) (d : Dev) : Dev × Nat × ShardSt :=
  let m := c.model
  let x := d.shard m c.shard
  let y := ((d.diesOf m).filter (fun i => bit x.bad i)).foldl (fun acc i =>
    let z := copyHashes m i x.offset x.length x.digest acc.1
    (z.1, acc.2 && z.2)) (d, true)
  (y.1, if y.2 ∧ ¬ badCopy then fsVerified else fsDigest, x)

/-- A REHASH reads the verified copies again (R197, R201). -/
def rehashStatus (c : FerryCmd) (badCopy : Bool) (d : Dev) : Dev × Nat :=
  let m := c.model
  let x := d.shard m c.shard
  let d := d.modShard m c.shard (fun y => { y with hashed := y.hashed ||| x.good })
  ((d.diesOf m).filter (fun i => bit x.good i)).foldl (fun acc i =>
    let y := copyHashes m i x.offset x.length x.digest acc.1
    if y.2 ∧ ¬ badCopy then (y.1, acc.2) else (markBad m c.shard i y.1, fsDigest)) (d, fsVerified)

/-- Finish a load or repair: R185's status, the shard, and what follows from a failure. -/
def completeLoad (i : Nat) (r : FerryRun) (relayLost : Bool) (st : Dev × Nat × ShardSt) : Dev :=
  let d := st.1.setRun i none
  let hops := r.cmd.hops ≠ []
  if st.2.1 = fsVerified then
    let d := shardVerified r.cmd.model r.cmd.shard st.2.2 d
    let status := if hops ∧ st.2.2.direct then fsNoRelay else if r.relayFail ∨ relayLost then fsRelayLost else fsVerified
    reportCmd r.cmd (if r.cmd.op = fcMirror then fsVerified else status) d
  else shardFailed r.cmd (reportCmd r.cmd st.2.1 d)

/-- What a command still has to do lies beyond the Isthmus: entries of its own are on it, or it reads Headland's stacks
while the Isthmus carries nothing (R10, R273); or a stack of the model retrains (Table 17.5). -/
def Dev.ferryWaits (d : Dev) (r : FerryRun) : Bool :=
  d.onIsthmus (fun b => b.ofRun r.id) || (d.diesOf r.cmd.model).any d.dieTrains || (!d.isthmusUp && decide (r.cmd.op ≠ fcEvict) && (d.diesOf r.cmd.model).contains 0)

/-- FERRY_COMMAND_DONE (R185). -/
def execFerryCommandDone (i : Nat) (sourceLost relayLost badCopy : Bool) (t : BitVec 64) (d : Dev) : Dev :=
  let d := d.advance t
  match d.run i with
  | none => d
  | some r =>
    let c := r.cmd
    let load := c.op = fcFetch ∨ c.op = fcPush ∨ c.op = fcRecv
    match r.fail with
    | some f => afterFailed c f (reportCmd c f (d.setRun i none))
    | none =>
      if d.ferryWaits r then d
      else if load then
        if r.header = [] ∨ r.cipher.length < hdrLength r.header then
          if sourceLost then shardFailed c (reportCmd c fsSourceLost (relayHeld r (d.setRun i none))) else d
        else completeLoad i r relayLost (loadStatus r badCopy d)
      else if c.op = fcMirror then completeLoad i r false (mirrorStatus c badCopy d)
      else if c.op = fcRehash then
        -- a write of the copy comes first: the re-hash begins again after it (Table 6.8)
        if d.ferry.runs.any (fun e => match e.2 with
          | some w => w.cmd.writes && decide (w.cmd.model = c.model ∧ w.cmd.shard = c.shard)
          | none => false) then d
        else
        let x := rehashStatus c badCopy (d.setRun i none)
        reportCmd c x.2 x.1
      else if d.modelState c.model = msEvicting then d
      else
        let d := reportCmd c fsVerified (d.setRun i none)
        if d.hosted 4 then retryLoads d else d

/-- FERRY_HOST_WAIT_EXPIRY (R186, R188, R194, R200). -/
def execFerryHostWaitExpiry (m : Nat) (t : BitVec 64) (d : Dev) : Dev :=
  let d := d.advance t
  let limit := (d.get R.FERRY_CTL_host_wait * msU : Nat)
  let due := d.ferry.waits.filter (fun w => decide (w.1 = m ∧ tdiff t w.2.2 ≥ limit))
  let d := { d with ferry := { d.ferry with waits := d.ferry.waits.filter (fun w => !due.contains w) } }
  due.foldl (fun d w => match w.2.1 with
    | .load => if d.modelState m = msLoading then (modelFail m d).raise E.HOST_WAIT_EXPIRED_FERRY none (some m) else d
    | .shard _ => if d.modelState m = msLoading then (modelFail m d).raise E.HOST_WAIT_EXPIRED_FERRY none (some m) else d
    | .evict => if d.modelState m = msLoading then modelFail m d else d
    | .repair s => if d.modelState m = msRepairing then repairNext m s d else d) d

/-! ### Residency commands (R189) -/

/-- MODEL_REGISTER. -/
def execModelRegister (m : Nat) (d : Dev) : Dev :=
  if d.modelState m = msEmpty then d.set R.FERRY_MODEL_state m msRegistered else d

/-- MODEL_LOAD. -/
def execModelLoad (m : Nat) (t : BitVec 64) (d : Dev) : Dev :=
  let d := d.advance t
  if d.modelState m = msRegistered ∨ d.modelState m = msFailed then loadModel m d else d

/-- MODEL_UNREGISTER. -/
def execModelUnregister (m : Nat) (d : Dev) : Dev :=
  if d.modelState m = msRegistered ∨ d.modelState m = msFailed then
    (forgetModel m d).set R.FERRY_MODEL_state m msEmpty
  else d

/-- EVICTION_DONE (R193, R195). -/
def execEvictionDone (m : Nat) (d : Dev) : Dev :=
  if d.modelState m = msEvicting ∧ (d.isthmusUp ∨ ¬ (d.diesOf m).contains 0) then
    let d := endEvict m d
    if d.hosted 4 then d else retryLoads d
  else d

/-- REHASH_INTERVAL_EXPIRY (R201). -/
def execRehashIntervalExpiry (t : BitVec 64) (d : Dev) : Dev :=
  let d := d.advance t
  if tdiff t d.ferry.rehashAt < (d.get R.FERRY_CTL_rehash_interval * 3600 * secU : Nat) then d
  else
    let behind := d.unhashed.isSome
    let d := { d with ferry := { d.ferry with
        rehashAt := t, shards := d.ferry.shards.map (fun e => (e.1, { e.2 with hashed := 0 })) } }
    if behind then d.raise E.REHASH_BEHIND else d

/-- One slow-tier shard verified under R180: its plaintext. -/
def slowPlain (m : Nat) (bytes : List Byte) (d : Dev) : Option (List Byte) :=
  let h := bytes.take 2048
  let c := bytes.drop 2048
  match d.shardKeyOf m h with
  | none => none
  | some k =>
    let iv := hdrBytes h 0x20 12
    let plain := xorBytes c (Config.gcmStream k iv 0 c.length)
    if hdrOk h ∧ hdrLength h = c.length ∧ Config.gcmTag k iv (hdrBytes h 0 0x50) c = hdrBytes h 0x50 16 ∧
        shake256 plain 32 = hdrBytes h 0x30 32 then some plain else none

/-- SLOW_TIER_FILL_DONE (R202): the buffer that the running step does not use is filled, if every shard verifies. -/
def execSlowTierFillDone (m : Nat) (shards : List (List Byte)) (d : Dev) : Dev :=
  match tget none d.ferry.slow m with
  | none => d
  | some st =>
    let next := (st.inUse + 1) % 2
    let plains := shards.map (fun b => slowPlain m b d)
    let all := plains.foldr (fun p acc => match p with | some x => x ++ acc | none => acc) []
    if plains.all (fun p => p.isSome) ∧ all.length = st.size then
      let d := hbmWrite 1 (st.at next) all d
      { d with ferry := { d.ferry with slow := tput none d.ferry.slow m (some { st with ready := setBit st.ready next true }) } }
    else d

/-- QUIESCE_N's part here (R187), and its release (R188). -/
def quiesceFerry (d : Dev) : Dev :=
  let d := { d with ferry := { d.ferry with stopped := true, resumes := false } }
  abortRuns (fun c => decide (c.op ≠ fcEvict)) true d

/-- QUIESCE_N is released: aborted loads are posted again, or asked for (R188). -/
def releaseFerry (d : Dev) : Dev :=
  let back := d.ferry.aborted
  let d := { d with ferry := { d.ferry with stopped := false, aborted := [] } }
  back.foldl (fun d c =>
    if d.modelState c.model = msRepairing then (if d.hosted 7 then ferryWait c.model (.repair c.shard) d else postOwn c d)
    else if d.hosted 3 then ferryWait c.model (.shard c.shard) (d.raise E.MODEL_NEEDED none (some c.model))
    else postOwn c d) d

end Sys2Proof.Machine
end

