-- ==== Sys2Proof/Machine/Admission.lean ====
section
/-! DEFINITION. Plan admission (13, 14): the device image of Tables 13.6 and 13.7, folding, relocation, the checks of
Table 14.4 and the loading of step 6, and the release of a plan (R63). -/

namespace Sys2Proof.Machine

/-! ### The image (R376, R377, R100) -/

/-- The memory that an admission reads the image from (a copy that relocation changes), and where it lies. -/
structure Image where
  mem : List Host.Cell
  /-- Memory key of the image's first byte. -/
  at0 : Nat
  deriving DecidableEq, Repr

/-- An `n`-byte field of the image at a byte offset. -/
def Image.num (i : Image) (off n : Nat) : Nat := mnum i.mem (i.at0 + off) n

/-- Offset and entry count of directory entry `k` (Table 13.6). -/
def Image.dir (i : Image) (k : Nat) : Nat × Nat := (i.num (0x40 + 8 * k) 4, i.num (0x44 + 8 * k) 4)

/-- Directory entries after the region sections, and the byte size of one entry of their tables (Table 13.7). -/
def dirFolding : Nat := 1
def dirModels : Nat := 2
def dirReloc : Nat := 3
def dirLandings : Nat := 4
def dirMasks : Nat := 5
def dirWeights : Nat := 6
def entrySize (k : Nat) : Nat := if k = dirReloc then 8 else if k = dirLandings then 32 else 16

/-- An `n`-byte field of entry `e` of a table. -/
def Image.field (i : Image) (k e off n : Nat) : Nat := i.num ((i.dir k).1 + entrySize k * e + off) n

/-- The entries of a table. -/
def Image.entries (i : Image) (k : Nat) : List Nat := List.range (i.dir k).2

/-- A region section (Table 3.15). -/
structure Section where
  index : Nat
  off : Nat
  vregion : Nat
  ticks : Nat
  resident : Nat
  ring : Nat
  descs : Nat
  entry : Nat
  target : Nat
  pages : Nat
  rate : Nat
  /-- Byte offset of the plan words. -/
  pagesAt : Nat
  deriving DecidableEq, Repr

/-- A byte offset rounded up to 64 KiB. -/
def up64k (n : Nat) : Nat := (n + 65535) / 65536 * 65536

/-- The region section at a byte offset. -/
def Image.sectionAt (i : Image) (k off : Nat) : Section :=
  { index := k, off := off, vregion := i.num (off + 6) 1, ticks := i.num (off + 8) 4, resident := i.num (off + 12) 1,
    ring := i.num (off + 13) 1, descs := i.num (off + 14) 2, entry := i.num (off + 16) 4, target := i.num (off + 20) 4,
    pages := i.num (off + 24) 4, rate := i.num (off + 28) 4,
    pagesAt := up64k (off + 0x100 + 64 * i.num (off + 14) 2) }

/-- `n` region sections, one after another (notes/assumptions/21.md). -/
def Image.sectionsFrom (i : Image) (k off : Nat) : Nat → List Section
  | 0 => []
  | n + 1 =>
    let s := i.sectionAt k off
    s :: i.sectionsFrom (k + 1) (s.pagesAt + 65536 * s.pages) n

/-- The region sections. -/
def Image.sections (i : Image) : List Section := i.sectionsFrom 0 (i.dir 0).1 (i.dir 0).2

/-- The byte after the image: the furthest end of a table or section (notes/assumptions/21.md). -/
def Image.size (i : Image) : Nat :=
  ((i.sections.map (fun (s : Section) => s.pagesAt + 65536 * s.pages)) ++
    ((List.range 6).map (fun k => (i.dir (k + 1)).1 + entrySize (k + 1) * (i.dir (k + 1)).2))).foldl Nat.max 0x100

/-! ### Refusals (Table 14.4, Table 14.5) -/

/-- Why an admission is refused: check code, virtual region where one applies, table and entry. -/
structure Refused where
  code : Nat
  region : Option Nat
  table : Nat
  entry : Nat
  deriving DecidableEq, Repr

/-- The first refusal that a list of checks finds. -/
def firstOf {α : Type} (l : List α) (f : α → Option Refused) : Option Refused := l.findSome? f

/-- A refusal where a condition holds. -/
def refuseIf (c : Bool) (code : Nat) (region : Option Nat) (table entry : Nat) : Option Refused :=
  if c then some ⟨code, region, table, entry⟩ else none

/-! ### Step 1: header, digest, map, period -/

/-- Bytes of the image that are zero. -/
def Image.zeroAt (i : Image) (off n : Nat) : Bool := i.num off n = 0

/-- The header of Table 13.6 is as given. -/
def Image.headerOk (i : Image) : Bool :=
  decide (i.num 0 4 = 0x504C414E ∧ i.num 4 2 = 1 ∧ i.num 6 2 < 2 ∧
    1 ≤ i.num 0x14 4 ∧ i.num 0x14 4 ≤ 32768 ∧ i.num 0x10 4 < i.num 0x14 4 ∧
    i.num 0x20 1 ≤ 8 ∧ i.num 0x21 1 ≤ 8 ∧ 1 ≤ i.num 0x22 1 ∧ i.num 0x22 1 ≤ 32 ∧ 1 ≤ i.num 0x23 1 ∧ i.num 0x23 1 ≤ 16 ∧
    1 ≤ i.num 0x24 1 ∧ i.num 0x24 1 ≤ 8) &&
  i.zeroAt 0x25 27 && i.zeroAt 0x78 72 && i.zeroAt 0xE0 32

/-- The digest of the image from byte 0x100 to its end matches. -/
def Image.digestOk (i : Image) : Bool :=
  decide (shake256Digest (mbytes i.mem (i.at0 + 0x100) (i.size - 0x100)) = mbytes i.mem (i.at0 + 0xC0) 32)

/-- Entry `v` of the device map at a hall address (13, "The device image"). -/
def Dev.mapEntry (d : Dev) (map v : Nat) : Nat := d.hallNum (map + 4 * v) 4

/-- Step 1. -/
def checkHeader (d : Dev) (i : Image) (map : Nat) : Option Refused :=
  if ¬ i.headerOk then some ⟨1, none, 0, 0⟩
  else if ¬ i.digestOk then some ⟨2, none, 0, 0⟩
  else if (d.hbmAt map).isNone ∨ ¬ d.is R.DEV_ADDR_valid ∨
      d.mapEntry map (i.num 0x10 4) ≠ d.get R.DEV_ADDR_address then some ⟨3, none, 0, 0⟩
  else refuseIf (i.num 0x18 4 ≠ d.get R.TIDE_PERIOD_period) 4 none 0 0

/-! ### Step 2: models -/

/-- The residency entry of a model entry (R190). -/
def Dev.residencyOf (d : Dev) (id gen : Nat) : Option Nat :=
  (List.range 128).find? (fun m => decide (d.modelState m = msResident ∧ d.get R.FERRY_MODEL_model_id m = id ∧
    d.get R.FERRY_MODEL_generation m = gen))

/-- Residency entries of the image's models, in table order. -/
def imageModels (d : Dev) (i : Image) : List (Option Nat) :=
  (i.entries dirModels).map (fun e => d.residencyOf (i.field dirModels e 0 8) (i.field dirModels e 8 4))

/-- Step 2. -/
def checkModels (d : Dev) (i : Image) : Option Refused :=
  firstOf (i.entries dirModels) (fun e => refuseIf ((imageModels d i).getD e none).isNone 5 none 3 e)

/-! ### Step 3: folding (R380) -/

/-- A region is in service (R380): its service bit is set and its DFLL has not failed (R424). -/
def Dev.inService (d : Dev) (r : Nat) : Bool :=
  bit (d.get R.DEV_REGION_SERVICE_in_service) r && !bit (d.get R.CLK_SRC_STATUS_dfll_failed) r

/-- A present cell in service. -/
def Dev.cellInService (d : Dev) (r c : Nat) : Bool :=
  bit (d.presentCells r) c && bit (d.get R.DEV_CELL_SERVICE_in_service r) c

/-- The physical regions in virtual order: those in service of each die, then the others (R380). -/
def regionOrder (d : Dev) : List Nat :=
  let h := List.range 8
  let e := h.map (· + 8)
  h.filter d.inService ++ h.filter (fun r => !d.inService r) ++
    e.filter d.inService ++ e.filter (fun r => !d.inService r)

/-- A virtual region that the image uses. -/
def Image.usesRegion (i : Image) (v : Nat) : Bool :=
  if v < 8 then decide (v < i.num 0x20 1) else decide (v < 16 ∧ v - 8 < i.num 0x21 1)

/-- A folded cell: virtual region and cell, physical region and cell, and SEQ_CIX values 1 to 3. -/
structure Folded where
  vr : Nat
  vc : Nat
  r : Nat
  c : Nat
  cix : List Nat
  deriving DecidableEq, Repr

/-- The folding entries of a virtual region, in table order. -/
def Image.foldEntries (i : Image) (v : Nat) : List Nat :=
  (i.entries dirFolding).filter (fun e => decide (i.field dirFolding e 0 1 = v))

/-- Cells named by folding entries; none where a name is absent, out of service, or given twice. -/
def foldNamed (d : Dev) (i : Image) (r : Nat) : List Nat → List Folded → Except Nat (List Folded)
  | [], acc => .ok acc
  | e :: es, acc =>
    let c := i.field dirFolding e 2 1
    if c = 0xFF then foldNamed d i r es acc
    else if c ≥ cellCount r ∨ ¬ d.cellInService r c ∨ acc.any (fun f => decide (f.c = c)) then .error e
    else
      foldNamed d i r es (acc ++ [⟨i.field dirFolding e 0 1, i.field dirFolding e 1 1, r, c,
        [i.field dirFolding e 4 4, i.field dirFolding e 8 4, i.field dirFolding e 12 4]⟩])

/-- The remaining virtual cells, in ascending order, each to the lowest cell not yet taken. -/
def foldRest (d : Dev) (i : Image) (r : Nat) : List Nat → List Folded → Except Nat (List Folded)
  | [], acc => .ok acc
  | e :: es, acc =>
    match (cellsOf r).find? (fun c => d.cellInService r c && acc.all (fun f => decide (f.c ≠ c))) with
    | none => .error e
    | some c =>
      foldRest d i r es (acc ++ [⟨i.field dirFolding e 0 1, i.field dirFolding e 1 1, r, c,
        [i.field dirFolding e 4 4, i.field dirFolding e 8 4, i.field dirFolding e 12 4]⟩])

/-- Virtual cells per region of a virtual region's die. -/
def Image.virtualCells (i : Image) (v : Nat) : Nat := if v < 8 then i.num 0x22 1 else i.num 0x23 1

/-- Fold one virtual region; an error names the folding entry. -/
def foldRegion (d : Dev) (i : Image) (v r : Nat) : Except Nat (List Folded) :=
  let es := i.foldEntries v
  let vcs := es.map (fun e => i.field dirFolding e 1 1)
  match es.find? (fun e => decide (i.field dirFolding e 1 1 ≥ i.virtualCells v ∨
      (vcs.filter (fun x => x = i.field dirFolding e 1 1)).length > 1)) with
  | some e => .error e
  | none =>
    match foldNamed d i r es [] with
    | .error e => .error e
    | .ok acc =>
      let rest := sortBy (fun a b => decide (i.field dirFolding a 1 1 ≤ i.field dirFolding b 1 1))
        (es.filter (fun e => decide (i.field dirFolding e 2 1 = 0xFF)))
      foldRest d i r rest acc

/-- Step 3: the folded cells of all regions. -/
def foldAll (d : Dev) (i : Image) (order : List Nat) : Except Refused (List Folded) :=
  let have' := fun lo => ((List.range 8).filter (fun k => d.inService (lo + k))).length
  if have' 0 < i.num 0x20 1 ∨ have' 8 < i.num 0x21 1 then .error ⟨6, none, 0, 0⟩
  else match (i.entries dirFolding).find? (fun e => ¬ i.usesRegion (i.field dirFolding e 0 1)) with
    | some e => .error ⟨7, none, 2, e⟩
    | none =>
      ((List.range 16).filter i.usesRegion).foldl (fun (acc : Except Refused (List Folded)) v =>
        match acc with
        | .error e => .error e
        | .ok l => match foldRegion d i v (order.getD v v) with
          | .error e => .error ⟨7, some v, 2, e⟩
          | .ok fs => .ok (l ++ fs)) (.ok [])

/-! ### Step 4: relocation (R378) -/

/-- What one relocation makes of its field; none: it is refused. -/
def relocate (d : Dev) (i : Image) (map image : Nat) (order : List Nat) (folded : List Folded) (kind arg v : Nat) :
    Option Nat :=
  match kind with
  | 1 =>
    let x := bits v 44 20
    if x < i.num 0x14 4 then some (bits v 0 44 + bits (d.mapEntry map x) 0 20 * 2 ^ 44) else none
  | 2 =>
    let space := bits v 40 4
    let vr := bits v 27 3 + (if space = 2 then 8 else 0)
    if hallDev v ≠ d.get R.DEV_ADDR_address ∨ (space ≠ 1 ∧ space ≠ 2) then none
    else match folded.find? (fun f => decide (f.vr = vr ∧ f.vc = bits v 22 5)) with
      | none => none
      | some f =>
        some (bits v 0 22 + (f.c % blockSize f.r) * 2 ^ 22 + (f.c / blockSize f.r) * 2 ^ 25 + (f.r % 8) * 2 ^ 27 +
          bits v 30 34 * 2 ^ 30)
  | 3 => some ((v + image) % 2 ^ 64)
  | 4 =>
    match (imageModels d i).getD arg none with
    | none => none
    | some m => some ((v + d.extent m (bits v 39 1)) % 2 ^ 64)
  | 5 =>
    let vr := bits v 22 4
    if i.usesRegion vr then some (bits v 0 22 + order.getD vr vr * 2 ^ 22 + bits v 26 38 * 2 ^ 26) else none
  | _ => none

/-- Step 4: the entries in table order, each on the image as the ones before left it. -/
def relocateAll (d : Dev) (i0 : Image) (map image : Nat) (order : List Nat) (folded : List Folded) :
    Except Refused Image :=
  (i0.entries dirReloc).foldl (fun (acc : Except Refused Image) e =>
    match acc with
    | .error x => .error x
    | .ok i =>
      let w := i0.field dirReloc e 0 8
      let off := bits w 0 32
      if off + 8 > i0.size then .error ⟨8, none, 4, e⟩
      else match relocate d i0 map image order folded (bits w 32 4) (bits w 36 16) (i.num off 8) with
        | none => .error ⟨8, none, 4, e⟩
        | some v => .ok { i with mem := mputn i.mem (i.at0 + off) 8 v }) (.ok i0)

/-! ### Step 5: checks -/

/-- What steps 1 to 4 have found. -/
structure Prepared where
  image : Image
  order : List Nat
  folded : List Folded
  models : List (Option Nat)
  deriving DecidableEq, Repr

/-- Descriptor `k` of a section. -/
def Image.desc (i : Image) (s : Section) (k : Nat) : Desc :=
  { words := (List.range 8).map (fun w => BitVec.ofNat 64 (i.num (s.off + 0x100 + 64 * k + 8 * w) 8)) }

/-- R101 without its ticks; a section of a region that the header does not use, or of one that has a section before it,
fails too (notes/assumptions/21.md). -/
def sectionBad (p : Prepared) (s : Section) : Bool :=
  let i := p.image
  let chans := (List.range 8).map (fun k => i.num (s.off + 0x60 + k) 1)
  decide (i.num s.off 4 ≠ 0x53454331 ∨ i.num (s.off + 4) 2 ≠ 1 ∨
    s.resident + s.ring > 64 ∨ s.ring = 1 ∨ (s.ring = 0 ∧ s.pages > s.resident) ∨ (s.ring ≥ 2 ∧ s.rate = 0) ∨
    s.entry / 32768 ≥ s.resident ∨ s.descs > 4096) ||
  !i.usesRegion s.vregion ||
  (i.sections.take s.index).any (fun t => decide (t.vregion = s.vregion)) ||
  (List.range 32).any (fun v => bit s.target v && p.folded.all (fun f => !decide (f.vr = s.vregion ∧ f.vc = v))) ||
  chans.any (fun c => decide (c = s.vregion ∨ (c > 15 ∧ c ≠ 0xFF)))

/-- A descriptor names a reserved space, or reaches beyond HBM or a cell's scratchpad from its base; what a cell index
adds depends on the handle and is judged at run time (R95). -/
def descBad (x : Desc) : Bool :=
  let space := bits x.base 40 4
  x.valid && (decide (space ≥ 7) ||
    (match space with
     | 0 => decide (bits x.base 0 39 + x.bound > hbmSize (bits x.base 39 1))
     | 1 => decide (bits x.base 0 22 + x.bound > 0x400000)
     | 2 => decide (bits x.base 0 22 + x.bound > 0x200000)
     | _ => false))

/-- Stacks of a die. -/
def stacksOfDie (die : Nat) : Nat := if die = 0 then 2 else 6

/-- The landing entry `e`, as the plan keeps it. -/
def Prepared.landing (p : Prepared) (e : Nat) : Landing :=
  let f := p.image.field dirLandings e
  let b3 := f 3 1
  let vr := f 2 1
  { id := f 0 1, kind := f 1 1, vregion := vr, region := p.order.getD vr vr, offset := bits b3 0 2,
    depth := bits b3 2 3 + 1, firstReady := bit b3 5, deadline := f 4 2, replicas := f 6 1, bytes := f 8 4,
    base := f 12 4, hbm := bits (f 16 8) 0 39, slots := f 24 1, stackSet := f 25 1 }

/-- A stream's address names another space or device, reaches beyond its die, or its stacks are another die's. -/
def streamBad (d : Dev) (p : Prepared) (e : Nat) : Bool :=
  let l := p.landing e
  let a := p.image.field dirLandings e 16 8
  decide (1 ≤ l.kind ∧ l.kind ≤ 3) &&
  decide (bits a 40 4 ≠ 0 ∨ (hallDev a ≠ 0 ∧ hallDev a ≠ d.get R.DEV_ADDR_address) ∨
    (bits a 39 1 = 1 ∧ dieOf l.region = 0) ∨ l.hbm + l.bytes > hbmSize (dieOf l.region) ∨
    l.stackSet ≥ 2 ^ stacksOfDie (dieOf l.region))

/-- The slot-mask entry `e`. -/
def Prepared.mask (p : Prepared) (e : Nat) : SlotMask :=
  let f := p.image.field dirMasks e
  { link := f 0 1, stream := f 1 1, landing := f 2 1, receive := bit (f 3 1) 0, replica := bits (f 3 1) 1 2,
    first := f 4 2, count := f 6 2, stride := f 8 2, offset := f 10 4, vregion := f 14 1 }

/-- All slot-mask entries. -/
def Prepared.masks (p : Prepared) : List SlotMask := (p.image.entries dirMasks).map p.mask

/-- Reserved positions of a send entry. -/
def SlotMask.positions (m : SlotMask) : List Nat :=
  if m.receive then [] else (List.range m.count).map (fun i => m.first + i * m.stride)

/-- Positions reserved on a link by the first `n` entries. -/
def reservedBy (ms : List SlotMask) (l n : Nat) : List Nat :=
  (ms.take n).flatMap (fun m => if m.link = l then m.positions else [])

/-- The reservations of entry `e` on its link, with those of the entries before it, break R288 or R395. -/
def linkBad (d : Dev) (ms : List SlotMask) (e : Nat) : Bool :=
  match ms[e]? with
  | none => false
  | some m =>
    let mine := m.positions
    let before := reservedBy ms m.link e
    let s8 := d.get R.TIDE_PERIOD_period * 800 / 16384
    let n := before.length + mine.length
    decide (mine ≠ []) &&
    (!d.linkUp m.link || mine.any (fun q => decide (q % 16 = 15 ∨ q ≥ s8)) || !decide mine.Nodup ||
      mine.any (fun q => before.contains q) || decide (100 * n > 85 * s8 ∨ n > d.get R.CW_RESERVE_capacity m.link))

/-- Slots of 40 per PX cycle that a section's ring takes of each stack of the die that holds the image: one slot each
cycle carries 64,000 MB/s (notes/assumptions/22.md). -/
def ringSlots (s : Section) (die : Nat) : Nat :=
  if s.ring = 0 then 0 else (s.rate + 64000 * stacksOfDie die - 1) / (64000 * stacksOfDie die)

/-- HBM reservations in order: rings by section, then streams by entry; (table, entry, region, stack, slots). -/
def hbmClaims (p : Prepared) (die : Nat) : List (Nat × Nat × Nat × Nat × Nat) :=
  p.image.sections.flatMap (fun s =>
    (List.range (stacksOfDie die)).map (fun k => (1, s.index, s.vregion, die * 2 + k, ringSlots s die))) ++
  (p.image.entries dirLandings).flatMap (fun e =>
    let l := p.landing e
    if l.kind = 0 then [] else
    ((List.range 8).filter (fun k => bit l.stackSet k)).map (fun k => (5, e, l.vregion, dieOf l.region * 2 + k, l.slots)))

/-- Slots claimed of a stack by a list of claims. -/
def claimed (cs : List (Nat × Nat × Nat × Nat × Nat)) (stack : Nat) : Nat :=
  cs.foldl (fun n c => if c.2.2.2.1 = stack then n + c.2.2.2.2 else n) 0

/-- Landing-buffer bytes of a landing: first and after last. A write stream has none. -/
def Landing.span (l : Landing) : Nat × Nat :=
  if l.kind = 2 then (0, 0) else (l.base, l.base + l.replicas * l.depth * l.bytes)

/-- Landing entry `e` breaks a condition of check 0x0F. -/
def landingBad (p : Prepared) (e : Nat) : Bool :=
  let l := p.landing e
  let others := (List.range e).map p.landing
  let s := l.span
  !p.image.usesRegion l.vregion ||
  decide (l.kind > 3 ∨ l.replicas < 1 ∨ l.replicas > 4 ∨ (l.replicas > 1 ∧ ¬ l.firstReady) ∨ s.2 > 16777216 ∨
    l.deadline ≥ p.image.num 0x1C 4) ||
  others.any (fun o =>
    decide (o.vregion = l.vregion ∧ o.id = l.id) ||
    (decide (dieOf o.region = dieOf l.region) && decide (o.span.1 < s.2 ∧ s.1 < o.span.2)))

/-- Slot-mask entry breaks check 0x10. -/
def maskBad (p : Prepared) (m : SlotMask) : Bool :=
  decide (m.link > 5) ||
  (m.receive && (p.image.entries dirLandings).all (fun e =>
    let l := p.landing e
    !decide (l.vregion = m.vregion ∧ l.id = m.landing ∧ l.kind = 0)))

/-- The slot-mask indices that LSEND slots of a section name: its words one after another from its first page, up to
the first units that decode to no word (notes/assumptions/23.md). -/
def lsendIndices (i : Image) (s : Section) : Nat → Nat → List Nat
  | 0, _ => []
  | fuel + 1, u =>
    if u + 4 > 32768 * s.pages then []
    else
      let a := s.pagesAt + 2 * u
      let n := (presentBits (i.num a 4)).length
      match decodeWord (i.num a (2 * wordUnits n)) with
      | .error _ => []
      | .ok w =>
        w.slots.filterMap (fun x => match x with | .xfer _ (.lsend _ index _ _) => some index.toNat | _ => none) ++
          lsendIndices i s fuel (u + wordUnits n)

/-- Weight-segment entry `e` breaks check 0x11. -/
def weightBad (d : Dev) (p : Prepared) (e : Nat) : Bool :=
  let f := p.image.field dirWeights e
  match p.folded.find? (fun x => decide (x.vr = f 0 1 ∧ x.vc = f 1 1)) with
  | none => true
  | some x =>
    match p.models.getD (f 3 1) none with
    | none => true
    | some m =>
      decide ((f 2 1 + 1) * 65536 > spSize x.r ∨ f 8 8 + 65536 > d.get R.FERRY_MODEL_size m ∨
        ¬ (d.diesOf m).contains (dieOf x.r))

/-- Checks 0x09 and 0x0A: region sections and their ticks. -/
def checkSections (d : Dev) (p : Prepared) : List (Option Refused) :=
  let i := p.image
  let ticks := i.num 0x1C 4
  [firstOf i.sections (fun s => refuseIf (sectionBad p s) 0x09 (some (s.vregion % 16)) 1 s.index),
   firstOf i.sections (fun s => refuseIf (decide (s.ticks ≠ ticks ∨ s.ticks > d.get R.TIDE_CTL_tick_cap)) 0x0A
     (some s.vregion) 1 s.index),
   refuseIf (decide (ticks > d.get R.TIDE_CTL_tick_cap)) 0x0A none 0 0]

/-- Check 0x0B: addresses. -/
def checkAddresses (d : Dev) (p : Prepared) : List (Option Refused) :=
  let i := p.image
  [firstOf i.sections (fun s => refuseIf ((List.range s.descs).any (fun k => descBad (i.desc s k))) 0x0B (some s.vregion) 1
     s.index),
   firstOf (i.entries dirLandings) (fun e => refuseIf (streamBad d p e) 0x0B (some (p.landing e).vregion) 5 e)]

/-- Checks 0x0C to 0x0E: reservations of links, of the Isthmus (at the capacity of this time, Table 9.3) and of stacks. `isthmus` is the plan's reservation of
Isthmus entry slots (notes/assumptions/24.md). -/
def checkReserve (d : Dev) (p : Prepared) (isthmus imageDie : Nat) : List (Option Refused) :=
  let ms := p.masks
  let cs := hbmClaims p imageDie
  [firstOf (List.range ms.length) (fun e => refuseIf (linkBad d ms e) 0x0C none 6 e),
   refuseIf (decide (isthmus > Nat.min 18 d.istSlots)) 0x0D none 0 0,
   firstOf (List.range cs.length) (fun k =>
     match cs[k]? with
     | none => none
     | some c => refuseIf (decide (claimed (cs.take (k + 1)) c.2.2.2.1 > 37)) 0x0E (some c.2.2.1) c.1 c.2.1)]

/-- Checks 0x0F to 0x12: landings, slot masks, weight segments, serving streams. -/
def checkTables (d : Dev) (p : Prepared) : List (Option Refused) :=
  let i := p.image
  let ls := i.entries dirLandings
  let ms := p.masks
  let kinds := fun k => (ls.filter (fun e => decide ((p.landing e).kind = k))).length
  [firstOf ls (fun e => refuseIf (landingBad p e) 0x0F (some ((p.landing e).vregion % 16)) 5 e),
   firstOf (List.range ms.length) (fun e =>
     match ms[e]? with
     | none => none
     | some m => refuseIf (maskBad p m) 0x10 (if m.receive then some (m.vregion % 16) else none) 6 e),
   firstOf i.sections (fun s => refuseIf ((lsendIndices i s (8192 * s.pages) 0).any (fun x => decide (x ≥ ms.length))) 0x10
     (some s.vregion) 1 s.index),
   firstOf (i.entries dirWeights) (fun e => refuseIf (weightBad d p e) 0x11 (some (i.field dirWeights e 0 1 % 16)) 7 e),
   refuseIf (bit (i.num 6 2) 0 && !decide (kinds 3 = 1 ∧ kinds 2 > 0)) 0x12 none 5 0]

/-- Step 5, in ascending code. -/
def checkPlan (d : Dev) (p : Prepared) (isthmus imageDie : Nat) : Option Refused :=
  (checkSections d p ++ checkAddresses d p ++ checkReserve d p isthmus imageDie ++ checkTables d p).findSome? id

/-! ### Step 6: loading -/

/-- A cell at the start of a plan: predicates read 0 (R71), weight buffers hold zeros (R550), and what an earlier plan
had in progress is gone; the rest is as it was (notes/assumptions/25.md). -/
def CellSt.atPlanStart (s : CellSt) : CellSt :=
  { vregs := s.vregs, spErr := s.spErr, loaded := s.loaded, reinit := s.reinit, scrubRow := s.scrubRow,
    lateCycle := s.lateCycle, lateWords := s.lateWords,
    arrays := (s.arrays.map (fun (a : Nat × ArraySt) => (a.1, ({ sets := a.2.sets } : ArraySt)))).filter
      (fun (a : Nat × ArraySt) => !decide (a.2 = ({} : ArraySt))) }

/-- A region before its plan starts. -/
def RegionSt.atPlanStart (u : RegionSt) : RegionSt :=
  { cells := (u.cells.map (fun (c : Nat × CellSt) => (c.1, c.2.atPlanStart))).filter
      (fun (c : Nat × CellSt) => !decide (c.2 = ({} : CellSt))) }

/-- Discard the weight segment's kept values and contents where its class changes (R152, R196). -/
def changeClass (r c : Nat) (mask : Nat) (d : Dev) : Dev :=
  let old := d.get R.SP_SEG_CLASS_weight (cellIx r c)
  let changed := (List.range (spSize r / 65536)).filter (fun s => bit old s ≠ bit mask s)
  (changed.foldl (fun d s =>
    { d with
      mem := d.mem.filter (fun p => !decide (spKey r c (s * 65536) ≤ p.1 ∧ p.1 < spKey r c (s * 65536) + 65536)) }.modCell r c
      (fun x => { x with
        spErr := x.spErr.filter (fun e => !decide (e.1 / 8192 = s)), loaded := tput none x.loaded s none })) d).set
    R.SP_SEG_CLASS_weight (cellIx r c) mask

/-- The cells of the regions that a plan uses: physical region, cell, and the virtual cell folded there. -/
def planCells (d : Dev) (p : Prepared) : List (Nat × Nat × Option Folded) :=
  p.image.sections.flatMap (fun s =>
    let r := p.order.getD s.vregion 0
    ((cellsOf r).filter (fun c => bit (d.presentCells r) c)).map (fun c =>
      (r, c, p.folded.find? (fun f => decide (f.r = r ∧ f.c = c)))))

/-- Weight-segment entries of a virtual cell: (segment, entry index). -/
def segsOf (p : Prepared) (f : Folded) : List (Nat × Nat) :=
  ((p.image.entries dirWeights).filter (fun e =>
    decide (p.image.field dirWeights e 0 1 = f.vr ∧ p.image.field dirWeights e 1 1 = f.vc))).map
    (fun e => (p.image.field dirWeights e 2 1, e))

/-- Load one weight segment, unless the segment keeps it (R196). -/
def loadSegment (p : Prepared) (r c seg e : Nat) (d : Dev) : Dev :=
  match p.models.getD (p.image.field dirWeights e 3 1) none with
  | none => d
  | some m =>
    let key := (m, d.get R.FERRY_MODEL_generation m, e)
    let bad := d.get R.SP_SEG_BAD_bad (cellIx r c)
    if tget none (d.cell r c).loaded seg = some key ∧ ¬ bit bad seg then d
    else
      let a := d.extent m (dieOf r) + p.image.field dirWeights e 8 8
      let d := (hbmRead byFerry none (dieOf r) a 65536 d).1
      let d := { d with mem := copyMem d.mem (hbmKey (dieOf r) a) 65536 (spKey r c (seg * 65536)) d.mem }
      -- a half that cannot be corrected leaves a group that its readers find wrong (notes/assumptions/105.md)
      let lo := dieOf r * 2 ^ 34 + a / 32
      let wrong := d.hbmErr.filter (fun e => decide (lo ≤ e.1 ∧ e.1 < lo + 2048))
      (d.modCell r c (fun x => { x with
        loaded := tput none x.loaded seg (some key),
        spErr := wrong.foldl (fun m e => tput 0 m (8192 * seg + 4 * (e.1 - lo)) 4)
          (x.spErr.filter (fun w => !decide (w.1 / 8192 = seg))) })).set R.SP_SEG_BAD_bad (cellIx r c)
        (setBit bad seg false)

/-- One present cell: its class mask, its cell indices, its weight segments. -/
def loadCell (p : Prepared) (x : Nat × Nat × Option Folded) (d : Dev) : Dev :=
  let (r, c, f) := x
  let segs := match f with
    | some f => segsOf p f
    | none => []
  let d := changeClass r c (segs.foldl (fun m s => setBit m s.1 true) 0) d
  let cix := match f with
    | some f => f.vc :: f.cix
    | none => [0xFFFFFF, 0xFFFFFF, 0xFFFFFF, 0xFFFFFF]
  let d := (List.range 4).foldl (fun d k => d.set R.SEQ_CIX_index ((r * 32 + c) * 4 + k) (cix.getD k 0)) d
  segs.foldl (fun d s => loadSegment p r c s.1 s.2 d) d

/-- One region section: target, descriptors, loop counts, resident pages, crossing channels. -/
def loadSection (p : Prepared) (imageAddr : Nat) (s : Section) (d : Dev) : Dev :=
  let i := p.image
  let r := p.order.getD s.vregion 0
  let target := (p.folded.filter (fun f => decide (f.r = r ∧ bit s.target f.vc))).foldl (fun m f => setBit m f.c true) 0
  let d := (((d.set R.SEQ_TARGET_target r target).set R.SEQ_STREAM_resident_pages r s.resident).set
    R.SEQ_STREAM_ring_pages r s.ring).set R.SEQ_STREAM_fill_page r 0
  let d := (List.range 16).foldl (fun d n =>
    d.setRw R.SEQ_LOOP_COUNT_count (r * 16 + n) (i.num (s.off + 0x20 + 4 * n) 4)) d
  let d := { d with
    mem := copyMem i.mem (i.at0 + s.pagesAt) (65536 * Nat.min s.resident s.pages) (planKey r 0) d.mem }
  let chans := (List.range 8).filterMap (fun k =>
    let v := i.num (s.off + 0x60 + k) 1
    if v < 16 then some (k, ({ dest := some (Fin.ofNat 16 (p.order.getD v 0)) } : Chan)) else none)
  let table := ((List.range s.descs).map (fun k => (k, i.desc s k))).filter (fun e => !decide (e.2 = {}))
  let d := d.modReg r (fun u => { u with
    table := table, chans := chans, nextFill := s.resident, pagesAt := imageAddr + s.pagesAt, imagePages := s.pages })
  ((d.set R.SEQ_STATUS_pc r s.entry).set R.SEQ_STREAM_pc_page r (s.entry / 32768)).set R.SEQ_STATUS_ended r 0

/-- The plan as admitted. -/
def planOf (p : Prepared) (imageAddr map : Nat) (d : Dev) : Plan :=
  let i := p.image
  let used := i.sections.map (fun s => Fin.ofNat 16 (p.order.getD s.vregion 0))
  { jobId := i.num 8 8, digest := i.num 0xC0 8, serving := bit (i.num 6 2) 0, virtualDevice := i.num 0x10 4,
    deviceCount := i.num 0x14 4, fanout := i.num 0x24 1,
    map := (List.range (i.num 0x14 4)).map (fun v => bits (d.mapEntry map v) 0 20), ticks := i.num 0x1C 4,
    tidePeriod := i.num 0x18 4, used := used,
    entries := i.sections.map (fun s => (Fin.ofNat 16 (p.order.getD s.vregion 0), s.entry)),
    landings := (i.entries dirLandings).map p.landing, masks := p.masks, models := distinct (p.models.filterMap id),
    imageAddr := imageAddr }

/-- A plan that references models gives them up, or takes them (R191). -/
def countUsers (up : Bool) (ms : List Nat) (d : Dev) : Dev :=
  ms.foldl (fun d m =>
    let n := d.get R.FERRY_MODEL_users m
    d.set R.FERRY_MODEL_users m (if up then n + 1 else n - 1)) d

/-- What an earlier plan leaves behind is cleared (R62, R63, R498, R550; Table 13.14; Table 14.5). -/
def clearPlan (d : Dev) : Dev :=
  let d := { (countUsers false d.plan.models d).istDrop (fun r => r.cls = icPlan) with
    plan := {}
    regions := (d.regions.map (fun (u : Nat × RegionSt) => (u.1, u.2.atPlanStart))).filter
      (fun (u : Nat × RegionSt) => !decide (u.2 = ({} : RegionSt))) }
  let d := (List.range 16).foldl (fun d r =>
    ((((d.clearReg R.SEQ_FAULT_cause r).set R.SEQ_STATUS_ended r 0).set R.SEQ_STATUS_depth r 0).set
      R.SEQ_STATUS_tick r 0).set R.SEQ_STATUS_loop_shadow r 0) d
  let d := ((((d.clearReg R.TIDE_FAULT_cause).clearReg R.TIDE_LAUNCH_launch_tide).set R.TIDE_STATUS_state 0
    tsStopped).set R.TIDE_STATUS_deferred 0 0).set R.TIDE_NUMBER_tide 0 (d.latestMark d.now (d.get R.TIDE_NUMBER_tide))
  let d := { d with tide := { policy := d.tide.policy, lagLimit := d.tide.lagLimit, grace := d.tide.grace,
                              wakeLead := d.tide.wakeLead, quiesce := d.tide.quiesce } }
  d.set R.TIDE_STATUS_hold_mask 0 0

/-- What CW_RESERVE, HB_RESERVE and IST_RESERVE report (R173, R272, R288). -/
def showReserve (p : Prepared) (isthmus imageDie : Nat) (d : Dev) : Dev :=
  let ms := p.masks
  let cs := hbmClaims p imageDie
  let d := (List.range 6).foldl (fun d l => d.set R.CW_RESERVE_reserved l (reservedBy ms l ms.length).length) d
  let d := (List.range 8).foldl (fun d s => d.set R.HB_RESERVE_slots s (claimed cs s)) d
  d.set R.IST_RESERVE_reserved 0 isthmus

/-- Steps 6 and 7 (Table 13.9). -/
def loadPlan (p : Prepared) (imageAddr map isthmus imageDie : Nat) (d : Dev) : Dev :=
  let plan := planOf p imageAddr map d
  let d := clearPlan d
  let d := (planCells d p).foldl (fun d x => loadCell p x d) d
  let d := p.image.sections.foldl (fun d s => loadSection p imageAddr s d) d
  let d := showReserve p isthmus imageDie d
  let d := d.set R.DEV_REGION_MAP_phys 0 ((List.range 16).foldl (fun n v => n + p.order.getD v v * 2 ^ (4 * v)) 0)
  let d := countUsers true plan.models { d with plan := { plan with admittedAt := some (cycleOf d.now) } }
  let d := ((d.clearReg R.DEV_LAUNCH_STATUS_state).clearReg R.DEV_ADMIT_DETAIL_region).clearReg
    R.DEV_TIMING_CHOICE_COUNT_first_ready
  let d := (((d.set R.DEV_ADMIT_STATUS_state 0 2).set R.DEV_ADMIT_STATUS_check 0 0).set
    R.DEV_ADMIT_STATUS_virtual_device 0 plan.virtualDevice).set R.DEV_STATUS_admit_lock 0 1
  d.raise E.ADMIT_DONE

/-- A refused admission (R400). -/
def refuseAdmission (x : Refused) (d : Dev) : Dev :=
  let d := (d.set R.DEV_ADMIT_STATUS_state 0 3).set R.DEV_ADMIT_STATUS_check 0 x.code
  let d := (((d.set R.DEV_ADMIT_DETAIL_region 0 (x.region.getD 0)).setB R.DEV_ADMIT_DETAIL_region_valid 0
    x.region.isSome).set R.DEV_ADMIT_DETAIL_table 0 x.table).set R.DEV_ADMIT_DETAIL_entry 0 x.entry
  d.raise E.ADMIT_REFUSED

/-- Steps 1 to 5: what is found, or the refusal. -/
def prepare (imageAddr map isthmus : Nat) (d : Dev) : Except Refused (Prepared × Nat) :=
  match d.hbmAt imageAddr with
  | none => .error ⟨1, none, 0, 0⟩
  | some (die, _) =>
    let i : Image := { mem := d.mem, at0 := bits imageAddr 0 44 }
    match (checkHeader d i map).orElse (fun _ => checkModels d i) with
    | some x => .error x
    | none =>
      let order := regionOrder d
      match foldAll d i order with
      | .error x => .error x
      | .ok folded =>
        match relocateAll d i map imageAddr order folded with
        | .error x => .error x
        | .ok i' =>
          let p : Prepared := { image := i', order := order, folded := folded, models := imageModels d i }
          match checkPlan d p isthmus die with
          | some x => .error x
          | none => .ok (p, die)

/-- The loader reads an image (R170). Second part: some of it cannot be read. -/
def readImage (imageAddr : Nat) (d : Dev) : Dev × Bool :=
  match d.hbmAt imageAddr with
  | none => (d, false)
  | some (die, a) =>
    let i : Image := { mem := d.mem, at0 := bits imageAddr 0 44 }
    if i.headerOk then hbmRead byFerry none die a i.size d else hbmRead byFerry none die a 0x100 d

/-- Admit the image at a hall address, with the device map at another (R379, R400). An image that cannot be read has no
digest that matches (notes/assumptions/105.md). -/
def admitPlan (imageAddr map isthmus : Nat) (d : Dev) : Dev :=
  let x := readImage imageAddr d
  if x.2 then refuseAdmission ⟨2, none, 0, 0⟩ x.1
  else match prepare imageAddr map isthmus x.1 with
  | .error e => refuseAdmission e x.1
  | .ok (p, die) => loadPlan p imageAddr map isthmus die x.1

def asNone : Nat := 0
def asLoading : Nat := 1
def asAdmitted : Nat := 2
def asRefused : Nat := 3

/-- ADMIT (R379): accepted only while STOPPED or FAULTED; ignored while loading (Table 13.12). -/
def execAdmit (t : BitVec 64) (d : Dev) : Dev :=
  let d := d.advance t
  let st := d.get R.TIDE_STATUS_state
  if (st = tsStopped ∨ st = tsFaulted) ∧ d.get R.DEV_ADMIT_STATUS_state ≠ asLoading then
    d.set R.DEV_ADMIT_STATUS_state 0 asLoading
  else d

/-- A released plan is discarded (R63, Table 13.14), while STOPPED or FAULTED; a loading in progress goes on. -/
def releasePlan (d : Dev) : Dev :=
  let st := d.get R.TIDE_STATUS_state
  if st = tsStopped ∨ st = tsFaulted then
    let d := clearPlan d
    let d := (List.range 6).foldl (fun d l => d.set R.CW_RESERVE_reserved l 0) d
    let d := (List.range 8).foldl (fun d s => d.set R.HB_RESERVE_slots s 0) d
    let d := d.set R.IST_RESERVE_reserved 0 0
    if d.get R.DEV_ADMIT_STATUS_state = asLoading then d else d.set R.DEV_ADMIT_STATUS_state 0 asNone
  else d

end Sys2Proof.Machine
end

