-- ==== Sys2Proof/Machine/Launch.lean ====
section
/-! DEFINITION. Admission's commands and the launch of a plan (13): acceptance of a record (R56, R57, R60, R382), its
relay (R383 to R385, R387), and the ACKs (R386). -/

namespace Sys2Proof.Machine

def lsOk : Nat := 0
def lsLate : Nat := 1
def lsNotAdmitted : Nat := 2
def lsMismatch : Nat := 3

/-- Data of a LAUNCH packet (Table 13.10). -/
def launchData (job tag tide origin kind status acked missing first : Nat) : List Byte :=
  leBytes 8 job ++ leBytes 8 tag ++ leBytes 8 tide ++ leBytes 4 origin ++ leBytes 1 kind ++ leBytes 1 status ++
  leBytes 2 0 ++ leBytes 4 acked ++ leBytes 4 missing ++ leBytes 4 first ++ leBytes 4 0

/-- A field of a LAUNCH packet's data. -/
def launchField (p : Packet) (off n : Nat) : Nat := leNat ((p.data.drop off).take n)

/-- A plan is admitted (Table 13.14). -/
def Dev.admitted (d : Dev) : Bool := d.get R.DEV_ADMIT_STATUS_state = asAdmitted

/-- Time from a late acceptance to the first region clock edge after it (R56): a free value of at most two periods of a
region at 350 MHz (notes/assumptions/89.md). -/
def Dev.edgeWait (d : Dev) : BitVec 64 × Dev :=
  let (f, d) := d.draw
  (BitVec.ofNat 64 (1 + f % 91), d)

/-- The plan starts at M(L), or late, or not at all (R56, R57, R60). A faulted plan starts no tide, whatever record is
accepted (R62). Answers the device's own status (R382). -/
def acceptLaunch (l : Nat) (d : Dev) : Dev × Nat :=
  let late := tdiff d.now (d.markOf l)
  let faulted := decide (d.get R.TIDE_STATUS_state = tsFaulted)
  let d := ((d.set R.TIDE_LAUNCH_launch_tide 0 l).set R.TIDE_LAUNCH_valid 0 1).set R.TIDE_LAUNCH_late 0 0
  if d.tide.quiesce ∨ late < 0 then (if faulted then d else d.set R.TIDE_STATUS_state 0 tsArmed, lsOk)
  else if late > (d.get R.TIDE_CTL_lag_limit * d.get R.TIDE_PERIOD_period : Nat) then
    (d.raise E.LAUNCH_LATE, lsLate)
  else if faulted then (d, lsOk)
  else
    let (w, d) := (d.set R.TIDE_LAUNCH_late 0 1).edgeWait
    (startRunning l (d.now + w) d, lsOk)

/-- Change the launch state. -/
def modLaunch (f : LaunchSt → LaunchSt) (d : Dev) : Dev := { d with launch := f d.launch }

/-- Send a RECORD to a virtual index (R384). -/
def sendRecord (v : Nat) (d : Dev) : Dev :=
  let d := modLaunch (fun x =>
    { x with children := x.children ++ [{ index := v, sentAt := d.now, ack := none, lost := false }] }) d
  request rqLaunch (d.plan.map.getD v 0) opLaunch 0 6
    (launchData d.plan.jobId d.plan.digest (d.launch.tide.getD 0) d.launch.origin 0 0 0 0 0) 3 d

/-- Virtual indices of the children of a device (R383), in ascending rank. -/
def Dev.launchChildren (d : Dev) (v : Nat) : List Nat :=
  let n := d.plan.deviceCount
  let rank := (v + n - d.launch.origin % n) % n
  ((List.range d.plan.fanout).map (fun i => d.plan.fanout * rank + 1 + i)).filterMap (fun k =>
    if k < n then some ((k + d.launch.origin) % n) else none)

/-- Relay to one's children (R384). -/
def relayAll (d : Dev) : Dev :=
  (d.launchChildren d.plan.virtualDevice).foldl (fun d v => sendRecord v d) d

/-- A child is lost: its children are adopted (R385). -/
def loseChild (v : Nat) (d : Dev) : Dev :=
  match d.launch.children.find? (fun c => decide (c.index = v)) with
  | none => d
  | some c =>
    if c.lost ∨ c.ack.isSome then d
    else
      let d := modLaunch (fun x =>
        { x with children := x.children.map (fun c => if c.index = v then { c with lost := true } else c) }) d
      (d.launchChildren v).foldl (fun d k => sendRecord k d) (d.raise E.LAUNCH_RELAY_LOST)

/-- Act on the RECORD sends that have failed, and on those that fail at once when their children are sent to. -/
def settleFailed : Nat → Dev → Dev
  | 0, d => d
  | fuel + 1, d =>
    match d.launch.failed with
    | [] => d
    | dev :: rest =>
      let d := modLaunch (fun x => { x with failed := rest }) d
      settleFailed fuel (match d.plan.map.findIdx? (fun a => decide (a = dev)) with
        | some v => loseChild v d
        | none => d)

/-- Own status and the totals of R386: acked, missing, first missing. -/
def Dev.launchTotals (d : Dev) : Nat × Nat × Nat :=
  let x := d.launch
  let n := flag (decide (x.status = lsOk))
  x.children.foldl (fun t c =>
    if c.lost then (t.1, t.2.1 + 1, Nat.min t.2.2 c.index)
    else match c.ack with
      | some (a, m, f) => (t.1 + a, t.2.1 + m, Nat.min t.2.2 f)
      | none => t) (n, 0, 0xFFFFFFFF)

/-- An ACK to a device from which the RECORD was received (R386). -/
def sendLaunchAck (dev status acked missing first tide origin job tag : Nat) (d : Dev) : Dev :=
  request rqLaunch dev opLaunch 0 6 (launchData job tag tide origin 1 status acked missing first) 3 d

/-- The ACK of this device's own subtree. -/
def ackOwn (dev : Nat) (d : Dev) : Dev :=
  let t := d.launchTotals
  sendLaunchAck dev d.launch.status t.1 t.2.1 t.2.2 (d.launch.tide.getD 0) d.launch.origin d.plan.jobId d.plan.digest d

/-- Every child has acknowledged or been lost (R386): ACKs upward, and the origin's totals. -/
def reportLaunch (d : Dev) : Dev :=
  let x := d.launch
  if x.tide.isNone ∨ x.reported ∨ x.asked.isSome ∨ x.children.any (fun c => c.ack.isNone && !c.lost) then d
  else
    let t := d.launchTotals
    let d := modLaunch (fun x => { x with reported := true }) d
    let d := d.set R.DEV_LAUNCH_STATUS_state 0 2
    let d := x.senders.foldl (fun d s => ackOwn s d) d
    if d.is R.DEV_LAUNCH_STATUS_origin then
      (((d.set R.DEV_LAUNCH_STATUS_acked 0 t.1).set R.DEV_LAUNCH_STATUS_missing 0 t.2.1).set
        R.DEV_LAUNCH_STATUS_first_missing 0 t.2.2).raise E.LAUNCH_DONE
    else d

/-- What follows a send, an ACK or a loss. -/
def settleLaunch (d : Dev) : Dev := reportLaunch (settleFailed (d.plan.deviceCount + d.launch.failed.length) d)

/-- A child's ACK counts once; a lost child's is discarded (Table 13.12). -/
def countAck (p : Packet) (d : Dev) : Dev :=
  let v := d.plan.map.findIdx? (fun a => decide (a = p.src.toNat))
  if launchField p 0 8 = d.plan.jobId ∧ launchField p 8 8 = d.plan.digest ∧
      d.launch.tide = some (launchField p 16 8 % 2 ^ 48) then
    modLaunch (fun x => { x with children := x.children.map (fun c =>
      if some c.index = v ∧ ¬ c.lost ∧ c.ack = none then
        { c with ack := some (launchField p 32 4, launchField p 36 4, launchField p 40 4) }
      else c) }) d
  else d

/-- A device's own status becomes known and it begins to relay (R384, R387). -/
def takeLaunch (l origin : Nat) (sender : Option Nat) (d : Dev) : Dev :=
  let (d, st) := acceptLaunch l d
  let d := modLaunch (fun x => { x with
    tide := some l, origin := origin, status := st, senders := sender.toList, children := [], reported := false }) d
  let d := (d.set R.DEV_LAUNCH_STATUS_state 0 1).setB R.DEV_LAUNCH_STATUS_origin 0 sender.isNone
  if d.hosted 5 then
    (modLaunch (fun x => { x with asked := some d.now }) d).raise E.LAUNCH_RELAY_REQUEST
  else
    -- an ACK of the same PX cycle counts after the RECORD (Table 13.12)
    let early := if d.launch.earlyAt = cycleOf d.now then d.launch.early else []
    settleLaunch (early.foldl (fun d p => countAck p d) (modLaunch (fun x => { x with early := [] }) (relayAll d)))

/-- A RECORD that is not accepted is acknowledged with its status (R382, R386). -/
def refuseRecord (p : Packet) (status : Nat) (d : Dev) : Dev :=
  sendLaunchAck p.src.toNat status 0 0 0xFFFFFFFF (launchField p 16 8) (launchField p 24 4) (launchField p 0 8)
    (launchField p 8 8) (d.raise E.LAUNCH_REFUSED)

/-- A RECORD, once no admission is loading (R382). -/
def takeRecord (p : Packet) (d : Dev) : Dev :=
  let l := launchField p 16 8 % 2 ^ 48
  if ¬ (d.admitted ∧ launchField p 0 8 = d.plan.jobId ∧ launchField p 8 8 = d.plan.digest) then
    refuseRecord p lsNotAdmitted d
  else if ¬ d.is R.TIDE_LAUNCH_valid then takeLaunch l (launchField p 24 4) (some p.src.toNat) d
  else if d.get R.TIDE_LAUNCH_launch_tide ≠ l then refuseRecord p lsMismatch d
  else
    -- a repeated record: the sender has its ACK too
    if d.launch.senders.contains p.src.toNat then (if d.launch.reported then ackOwn p.src.toNat d else d)
    else
      let d := modLaunch (fun x => { x with senders := x.senders ++ [p.src.toNat] }) d
      if d.launch.reported then ackOwn p.src.toNat d else d

/-- LAUNCH_RECORD (R382): answered at once, and taken when no admission is loading. -/
def launchRecord (p : Packet) (d : Dev) : Dev :=
  let d := respond p opMgmtResp stOk [] d
  if d.get R.DEV_ADMIT_STATUS_state = asLoading then modLaunch (fun x => { x with held := x.held ++ [p] }) d
  else takeRecord p d

/-- LAUNCH_ACK (R386). -/
def launchAck (p : Packet) (d : Dev) : Dev :=
  let d := respond p opMgmtResp stOk [] d
  if ¬ d.admitted then d
  else if d.launch.tide.isSome then countAck p d
  else
    let now := cycleOf d.now
    modLaunch (fun x => { x with early := (if x.earlyAt = now then x.early else []) ++ [p], earlyAt := now }) d

/-- A START, once no admission is loading (R383): this device accepts the record as though it had received it. -/
def startLaunch (l : Nat) (d : Dev) : Dev :=
  if d.is R.TIDE_LAUNCH_valid then d
  else if d.admitted then takeLaunch l d.plan.virtualDevice none d
  else d.raise E.LAUNCH_REFUSED

/-- LAUNCH_START. -/
def execLaunchStart (l : Nat) (t : BitVec 64) (d : Dev) : Dev :=
  let d := d.advance t
  if d.is R.TIDE_LAUNCH_valid then d
  else if d.get R.DEV_ADMIT_STATUS_state = asLoading then modLaunch (fun x => { x with heldStart := some l }) d
  else startLaunch l d

/-- LAUNCH_SEND (R387): the host names a virtual index. -/
def execLaunchSend (v : Nat) (t : BitVec 64) (d : Dev) : Dev :=
  let d := d.advance t
  if d.hosted 5 ∧ d.launch.tide.isSome ∧ v < d.plan.deviceCount ∧
      d.launch.children.all (fun c => decide (c.index ≠ v)) then
    settleLaunch (sendRecord v (modLaunch (fun x => { x with asked := none }) d))
  else d

/-- LAUNCH_WAIT_EXPIRY (R385). -/
def execLaunchWaitExpiry (v : Nat) (t : BitVec 64) (d : Dev) : Dev :=
  let d := d.advance t
  match d.launch.children.find? (fun c => decide (c.index = v)) with
  | some c =>
    if tdiff t c.sentAt ≥ (d.get R.DEV_LAUNCH_CTL_launch_wait * usU : Nat) then settleLaunch (loseChild v d) else d
  | none => d

/-- LAUNCH_HOST_WAIT_EXPIRY (R387). -/
def execLaunchHostWaitExpiry (t : BitVec 64) (d : Dev) : Dev :=
  let d := d.advance t
  match d.launch.asked with
  | some since =>
    if tdiff t since ≥ (d.get R.DEV_LAUNCH_CTL_host_wait * msU : Nat) then
      settleLaunch (relayAll ((modLaunch (fun x => { x with asked := none }) d).raise E.HOST_WAIT_EXPIRED_LAUNCH))
    else d
  | none => d

/-! ### Admission -/

/-- The relay state of an earlier job is cleared; records and a START that waited are taken (R382). -/
def takeHeld (d : Dev) : Dev :=
  let held := d.launch.held
  let start := d.launch.heldStart
  let d := { d with launch := {} }
  let d := match start with
    | some l => startLaunch l d
    | none => d
  settleLaunch (held.foldl (fun d p => takeRecord p d) d)

/-- ADMIT_RELEASE (R63): records that wait for the end of a loading go on waiting. -/
def execAdmitRelease (d : Dev) : Dev :=
  let st := d.get R.TIDE_STATUS_state
  if st = tsStopped ∨ st = tsFaulted then
    { releasePlan d with launch := { held := d.launch.held, heldStart := d.launch.heldStart } }
  else d

end Sys2Proof.Machine
end

