-- ==== Sys2Proof/Machine/Serving.lean ====
section
/-! DEFINITION. What the serving controller works on (07, 08): slots, budgets, output rings, the strandline log, the
meter feed, and KV pages with their page tables. -/

namespace Sys2Proof.Machine

/-! ### Slots (R221) -/

def ssFree : Nat := 0
def ssPrefill : Nat := 1
def ssHandoff : Nat := 2
def ssDecode : Nat := 3
def ssLong : Nat := 4

/-- States of SVC_STATUS (Table 7.13). -/
def svOff : Nat := 0
def svIdle : Nat := 1
def svServing : Nat := 2
def svSwitching : Nat := 3
def svQuiesced : Nat := 4

def Dev.slot (d : Dev) (s : Nat) : Option SvcSlot := tget none d.svc.slots s
def Dev.slotState (d : Dev) (s : Nat) : Nat := d.get R.SVC_SLOT_state s
def modSvc (f : SvcSt → SvcSt) (d : Dev) : Dev := { d with svc := f d.svc }
def setSlot (s : Nat) (x : Option SvcSlot) (d : Dev) : Dev := modSvc (fun v => { v with slots := tput none v.slots s x }) d
def modSlot (s : Nat) (f : SvcSlot → SvcSlot) (d : Dev) : Dev := setSlot s ((d.slot s).map f) d
def Dev.svcRing (d : Dev) (i : Nat) : SvcRing := tget {} d.svc.rings i
def modRing (i : Nat) (f : SvcRing → SvcRing) (d : Dev) : Dev :=
  modSvc (fun v => { v with rings := tput {} v.rings i (f (tget {} v.rings i)) }) d

/-- The occupied slots, in slot order. -/
def Dev.occupied (d : Dev) : List (Nat × SvcSlot) := d.svc.slots.filterMap (fun e => e.2.map (fun x => (e.1, x)))

/-- The occupied slots, in admission order. -/
def Dev.byAdmission (d : Dev) : List (Nat × SvcSlot) := sortBy (fun a b => decide (a.2.order ≤ b.2.order)) d.occupied

/-- Fields of a serving plan's registration. -/
def Dev.svcModel (d : Dev) (p : Nat) : Nat := d.get R.SVC_PLAN_model p
def Dev.svcTpp (d : Dev) (p : Nat) : Nat := Nat.max 1 (d.get R.SVC_PLAN_tokens_per_page p)

/-- Pages per layer for `n` positions (Table 7.3). -/
def pagesPer (tpp n : Nat) : Nat := (n + tpp - 1) / tpp

/-! ### Budgets (R254 to R261) -/

/-- A sum limited to the 48-bit signed range. -/
def sat48 (v : Int) : Int := max (-(2 ^ 47 : Int)) (min (2 ^ 47 - 1 : Int) v)

def Dev.balance (d : Dev) (c : Nat) : Int := sext 48 (d.get R.SVC_BUDGET_balance c)

/-- Available amount: balance minus reserved. -/
def Dev.available (d : Dev) (c : Nat) : Int := d.balance c - (d.get R.SVC_BUDGET_reserved c : Nat)

/-- SVC_BUDGET[c].low. -/
def showLow (c : Nat) (d : Dev) : Dev :=
  d.setB R.SVC_BUDGET_low c (decide (d.available c < (d.get R.SVC_BUDGET_low_mark c : Nat)))

/-- Change a balance; it saturates (R254). -/
def addBalance (c : Nat) (v : Int) (d : Dev) : Dev :=
  showLow c (d.set R.SVC_BUDGET_balance c (wrap 48 (sat48 (d.balance c + v))))

/-- What a reservation of `n` tokens takes: nothing of an unlimited customer (R254). -/
def Dev.reserveOf (d : Dev) (c n : Nat) : Nat := if d.is R.SVC_BUDGET_unlimited c then 0 else n

def reserve (c n : Nat) (d : Dev) : Dev := showLow c (d.set R.SVC_BUDGET_reserved c (d.get R.SVC_BUDGET_reserved c + n))
def unreserve (c n : Nat) (d : Dev) : Dev := showLow c (d.set R.SVC_BUDGET_reserved c (d.get R.SVC_BUDGET_reserved c - n))

/-- A customer has at least one token available. -/
def Dev.hasToken (d : Dev) (c : Nat) : Bool := decide (d.available c ≥ 1)

/-- Release a slot's step reservation. -/
def dropStep (s : Nat) (d : Dev) : Dev :=
  match d.slot s with
  | none => d
  | some x => modSlot s (fun x => { x with stepRes := 0 }) (unreserve x.req.customer x.stepRes d)

/-- Release a slot's admission reservation. -/
def dropAdmission (s : Nat) (d : Dev) : Dev :=
  match d.slot s with
  | none => d
  | some x => modSlot s (fun x => { x with admRes := 0 }) (unreserve x.req.customer x.admRes d)

/-- SVC_BUDGET[c].budget_holds. -/
def showHolds (c : Nat) (d : Dev) : Dev :=
  d.set R.SVC_BUDGET_budget_holds c
    (((d.occupied.filter (fun e => decide (e.2.req.customer = c))).map (fun e => e.2.holds)).foldl Nat.max 0)

/-- SVC_BUDGET_CTL.refill_period in hall-time units. -/
def Dev.refillPeriod (d : Dev) : Nat := Nat.max 1 (d.get R.SVC_BUDGET_CTL_refill_period) * msU

/-- The elapses of the refill period up to a time are counted, on the grid from the moment the mode took effect (R259). -/
def countRefills (t : BitVec 64) (d : Dev) : Dev :=
  let n := (tdiff t d.svc.refillAt).toNat / d.refillPeriod
  if d.hosted 9 then d
  else modSvc (fun v => { v with
    refills := v.refills + n, refillAt := v.refillAt + BitVec.ofNat 64 (n * d.refillPeriod) }) d

/-- Counted elapses that lie after a time. -/
def Dev.refillsAfter (d : Dev) (tb : BitVec 64) : Nat :=
  Nat.min d.svc.refills (((tdiff d.svc.refillAt tb).toNat + d.refillPeriod - 1) / d.refillPeriod)

/-- Apply pending adjustments, then every refill due at T_b (R259, R261). -/
def settleBudgets (tb : BitVec 64) (d : Dev) : Dev :=
  let d := modSvc (fun v => { v with adjust := [] }) (d.svc.adjust.foldl (fun d e => addBalance e.1 e.2 d) d)
  let d := countRefills tb d
  let k := d.svc.refills - d.refillsAfter tb
  if k ≠ 0 ∧ ¬ d.hosted 9 then
    (List.range 4096).foldl (fun d c =>
      let cap : Int := (d.get R.SVC_BUDGET_refill_cap c : Nat)
      if d.is R.SVC_BUDGET_enable c ∧ d.balance c < cap then
        addBalance c (min cap (d.balance c + (k * d.get R.SVC_BUDGET_refill_amount c : Nat)) - d.balance c) d
      else d) (modSvc (fun v => { v with refills := v.refills - k }) d)
  else d

/-- EV_BUDGET_LOW (R260): once as a customer's available amount falls below its mark. -/
def noteLow (d : Dev) : Dev :=
  if ¬ d.hosted 9 then d
  else
    let low := (List.range 4096).filter (fun c => d.is R.SVC_BUDGET_low c)
    let d := (low.filter (fun c => !d.svc.lowSeen.contains c)).foldl (fun d c => d.raise E.BUDGET_LOW none (some c)) d
    modSvc (fun v => { v with lowSeen := low }) d

/-! ### Output rings (R262 to R264, R412) -/

def Dev.outSize (d : Dev) (i : Nat) : Nat := 2 ^ (d.get R.SVC_OUT_size i + 4)

/-- Entries of a ring that are reserved: one standing entry for each occupied slot, the step entries, and the entries
not yet written. -/
def Dev.outReserved (d : Dev) (i : Nat) : Nat :=
  let mine := d.occupied.filter (fun e => decide (e.2.req.ring = i))
  mine.length + (mine.filter (fun e => e.2.stepOut)).length + (d.svc.output.filter (fun e => decide (e.1 = i))).length

/-- Unreserved free entries of a ring; a ring with enable 0 has none (R412). One entry stays empty, so that a full ring
differs from an empty one (notes/assumptions/27.md). -/
def Dev.outFree (d : Dev) (i : Nat) : Nat :=
  if ¬ d.is R.SVC_OUT_enable i then 0
  else
    let n := d.outSize i
    n - 1 - (d.get R.SVC_OUT_tail i + n - d.get R.SVC_OUT_head i % n) % n - d.outReserved i

/-- HOST_STATUS.pending. -/
def showPending (d : Dev) : Dev := d.setB R.HOST_STATUS_pending 0 (d.svc.output ≠ [])

/-- An output entry (Table 8.3), its phase bit clear. -/
def outEntry (id slot status first step : Nat) (tokens : List Nat) (final : Bool) : List Byte :=
  leBytes 8 id ++ leBytes 2 slot ++ leBytes 1 status ++ leBytes 1 tokens.length ++ leBytes 4 first ++
  (List.range 8).flatMap (fun i => leBytes 4 (tokens.getD i 0)) ++ leBytes 8 step ++ leBytes 1 (flag final) ++ leBytes 7 0

/-- Queue an output entry for its ring. -/
def pushOut (ring : Nat) (e : List Byte) (d : Dev) : Dev :=
  modSvc (fun v => { v with output := v.output ++ [(ring, e)] }) d

/-- The host can be reached (R411). -/
def Dev.hostUp (d : Dev) : Bool := d.is R.HOST_STATUS_link_up && !d.host.held

/-- A posted write to host memory (R408). -/
def postWrite (addr : Nat) (bytes : List Byte) (d : Dev) : Dev :=
  { d with host := { d.host with out := d.host.out ++ [{ addr := addr, data := bytes }] } }

/-- Write one output entry at its ring's tail. -/
def writeOut (ring : Nat) (e : List Byte) (d : Dev) : Dev :=
  let n := d.outSize ring
  let t := d.get R.SVC_OUT_tail ring % n
  let ph := (d.svcRing ring).phase
  let e := e.set 56 (BitVec.ofNat 8 ((e.getD 56 0).toNat + 2 * flag ph))
  let d := postWrite (d.get R.SVC_OUT_base ring + 64 * t) e d
  let d := if t + 1 = n then modRing ring (fun r => { r with phase := !ph }) d else d
  d.set R.SVC_OUT_tail ring ((t + 1) % n)

/-- Write a ring's new entries, its tail word, and its vector once (R264). -/
def flushRing (ring : Nat) (d : Dev) : Dev :=
  let mine := d.svc.output.filter (fun e => decide (e.1 = ring))
  if mine = [] ∨ ¬ d.is R.SVC_OUT_enable ring ∨ ¬ d.hostUp then d
  else
    let d := mine.foldl (fun d e => writeOut ring e.2 d) d
    let d := modSvc (fun v => { v with output := v.output.filter (fun e => !decide (e.1 = ring)) }) d
    let d := postWrite (d.get R.SVC_OUT_addr ring) (leBytes 4 (d.get R.SVC_OUT_tail ring)) d
    d.sendVector (d.get R.SVC_OUT_vector ring)

/-- The end of phase 8 (R264). -/
def flushOutput (d : Dev) : Dev := showPending ((List.range 16).foldl (fun d i => flushRing i d) d)

/-! ### The strandline log (R238, R239) -/

/-- Append one 64-byte entry. HEAD equal to TAIL after an append means that the ring is full: until the host moves TAIL,
the next entry overwrites the oldest. -/
def logAdd (type step : Nat) (body : List Byte) (d : Dev) : Dev :=
  if ¬ d.is R.SVC_LOG_CTL_enable then d
  else match d.hbmAt (d.get R.SVC_LOG_BASE_base) with
    | none => d
    | some (die, a) =>
      let n := 2 ^ d.get R.SVC_LOG_CTL_size
      let h := d.get R.SVC_LOG_HEAD_head % n
      if d.areaAt die (a + 64 * h) 64 ≠ areaSystem then d
      else
        let d := if d.svc.logFull ∧ h = d.get R.SVC_LOG_TAIL_tail % n then
            let d := (d.setRw R.SVC_LOG_TAIL_tail 0 ((d.get R.SVC_LOG_TAIL_tail + 1) % n)).inc C.SVC_LOG_CTL_lost
            if d.svc.overwrote then d
            else (modSvc (fun v => { v with overwrote := true }) d).raise E.STRAND_OVERWRITE
          else d
        let entry := leBytes 8 (type + step % 2 ^ 48 * 65536) ++ body
        let d := { d with mem := mwrite d.mem (hbmKey die (a + 64 * h)) (entry ++ leBytes (64 - entry.length) 0) }
        let d := d.set R.SVC_LOG_HEAD_head 0 ((h + 1) % n)
        modSvc (fun v => { v with logFull := decide ((h + 1) % n = d.get R.SVC_LOG_TAIL_tail % n) }) d

/-! ### The meter feed (R266) -/

/-- SVC_METER_FEED.queued; an emptied queue ends a stall (R267). -/
def showFeed (d : Dev) : Dev :=
  let d := d.set R.SVC_METER_FEED_queued 0 d.svc.feed.length
  if d.svc.feed = [] then d.set R.SVC_METER_FEED_stalled 0 0 else d

/-- Add a slot's counts to its customer's record. -/
def feedAdd (c tenant delivered expired : Nat) (d : Dev) : Dev :=
  if delivered = 0 ∧ expired = 0 then d
  else
    let q := d.svc.feed
    let q := if q.any (fun r => decide (r.customer = c)) then
        q.map (fun r => if r.customer = c then
          { r with delivered := (r.delivered + delivered) % 2 ^ 48, expired := (r.expired + expired) % 2 ^ 48 } else r)
      else q ++ [{ customer := c, tenant := tenant, delivered := delivered, expired := expired, since := d.now }]
    showFeed (modSvc (fun v => { v with feed := q }) d)

/-! ### KV pages (R226 to R230) -/

def frameSize : Nat := 262144
def tableSize : Nat := 32768

/-- First and end frame of a die's pool: the frames that lie wholly in area KV. -/
def Dev.poolFrames (d : Dev) (die : Nat) : Nat × Nat :=
  let a := d.area die areaKv
  ((a.1 + frameSize - 1) / frameSize, (a.1 + a.2) / frameSize)

/-- First frame of those reserved for staging on Estuary: the last of the pool, while slow_enable is 1 (R230). -/
def Dev.stageFirst (d : Dev) : Nat :=
  let p := d.poolFrames 1
  if d.is R.SVC_KV_CTL_slow_enable then Nat.max p.1 (p.2 - d.get R.SVC_KV_CTL_stage_frames) else p.2

/-- First and end frame from which pages are allocated. -/
def Dev.kvFrames (d : Dev) (die : Nat) : Nat × Nat :=
  let p := d.poolFrames die
  (p.1, if die = 1 then d.stageFirst else p.2)

/-- What a page table occupies: (die address, bytes). -/
def KvTable.ranges (t : KvTable) : List (Nat × Nat) :=
  (t.root.toList.map (fun a => (a, tableSize))) ++ (t.leaves.filterMap (fun e => e.2.map (fun a => (a, tableSize)))) ++
  (t.pages.filterMap (fun e => match e.2 with
    | some p => p.frame.map (fun f => (f * frameSize, frameSize))
    | none => none))

/-- What is in use of a die's area KV. -/
def Dev.kvUsed (d : Dev) (die : Nat) : List (Nat × Nat) :=
  d.occupied.flatMap (fun e =>
    if die = 0 then e.2.head.ranges
    else e.2.est.ranges ++ e.2.carry.toList.map (fun c => (c.1 * frameSize, frameSize))) ++
  (if die = 0 then [] else d.svc.stages.map (fun x => (x.2.2 * frameSize, frameSize)))

/-- Frames of the pool that are in use. -/
def Dev.framesUsed (d : Dev) (die : Nat) : List Nat :=
  let p := d.poolFrames die
  (distinct ((d.kvUsed die).map (fun u => u.1 / frameSize))).filter (fun f => decide (p.1 ≤ f ∧ f < p.2))

/-- Free frames of the pool (SVC_KV_POOL). -/
def Dev.framesFree (d : Dev) (die : Nat) : Nat :=
  let p := d.poolFrames die
  p.2 - p.1 - (d.framesUsed die).length

/-- The lowest free place of `len` bytes, aligned to `len`, in a die's part of the pool that pages come from. -/
def Dev.kvPlace (d : Dev) (die len : Nat) : Option Nat :=
  let p := d.kvFrames die
  let used := d.kvUsed die
  let up := fun x => (x + len - 1) / len * len
  minOf ((p.1 * frameSize :: used.map (fun u => up (u.1 + u.2))).filter (fun x =>
    decide (p.1 * frameSize ≤ x ∧ x + len ≤ p.2 * frameSize) &&
    used.all (fun u => decide (x + len ≤ u.1 ∨ u.1 + u.2 ≤ x))))

/-- A slot's page table of a die. -/
def SvcSlot.table (x : SvcSlot) (die : Nat) : KvTable := if die = 0 then x.head else x.est
def SvcSlot.setTable (x : SvcSlot) (die : Nat) (t : KvTable) : SvcSlot :=
  if die = 0 then { x with head := t } else { x with est := t }

/-- A leaf entry (Table 7.9). -/
def leafEntry (p : Option KvPage) : Nat :=
  match p with
  | none => 0
  | some p => 1 + 2 * flag p.slow.isSome + 4 * flag p.staged + (p.frame.getD 0) * 8 + (p.slow.getD 0) * 2 ^ 24

/-- Write an 8-byte entry of a table. -/
def writeEntry (die a v : Nat) (d : Dev) : Dev := hbmWrite die a (leBytes 8 v) d

/-- Change a page of a slot, in the state and in its leaf table. -/
def setPage (s die q : Nat) (p : Option KvPage) (d : Dev) : Dev :=
  match d.slot s with
  | none => d
  | some x =>
    let t := x.table die
    let d := modSlot s (fun x => x.setTable die { t with pages := tput none t.pages q p }) d
    match tget none t.leaves (q / 4096) with
    | some a => writeEntry die (a + 8 * (q % 4096)) (leafEntry p) d
    | none => d

/-- Take a table of 32 KiB, zeroed. -/
def takeTable (die : Nat) (d : Dev) : Option (Nat × Dev) :=
  (d.kvPlace die tableSize).map (fun a => (a, zeroHbm die a tableSize d))

/-- The slot has a directory on a die. -/
def ensureRoot (s die : Nat) (d : Dev) : Option Dev :=
  match d.slot s with
  | none => none
  | some x =>
    if (x.table die).root.isSome then some d
    else (takeTable die d).map (fun r => modSlot s (fun x => x.setTable die { x.table die with root := some r.1 }) r.2)

/-- The slot has the leaf table of a logical page. -/
def ensureLeaf (s die q : Nat) (d : Dev) : Option Dev :=
  match ensureRoot s die d with
  | none => none
  | some d =>
    match d.slot s with
    | none => none
    | some x =>
      if (tget none (x.table die).leaves (q / 4096)).isSome then some d
      else (takeTable die d).map (fun r =>
        let d := modSlot s (fun x =>
          let t := x.table die
          x.setTable die { t with leaves := tput none t.leaves (q / 4096) (some r.1) }) r.2
        writeEntry die ((x.table die).root.getD 0 + 8 * (q / 4096)) (1 + r.1 % 2 ^ 39) d)

/-- The slot has a logical page with an HBM frame; a page whose home is the slower tier and that is not staged has
none, and is not made one here. -/
def ensurePage (s die q : Nat) (d : Dev) : Option Dev :=
  match ensureLeaf s die q d with
  | none => none
  | some d =>
    match d.slot s with
    | none => none
    | some x =>
      match tget none (x.table die).pages q with
      | some p => if p.frame.isSome then some d else none
      | none => (d.kvPlace die frameSize).map (fun a =>
          setPage s die q (some { frame := some (a / frameSize), slow := none, staged := false }) d)

/-- All of a list of logical pages, or none of them. -/
def ensurePages (s die : Nat) (qs : List Nat) (d : Dev) : Option Dev :=
  qs.foldl (fun acc q => acc.bind (ensurePage s die q)) (some d)

/-- Entries on the Isthmus that belong to the handoff of a slot's pages. -/
def IstBody.ofSlot (s : Nat) (q : Nat → Bool) : IstBody → Bool
  | .page slot p _ _ => decide (slot = s) && q p
  | _ => false

/-- Return a page to the pool (R229). -/
def freePage (s die q : Nat) (d : Dev) : Dev :=
  let d := modSvc (fun v => { v with
    spills := v.spills.filter (fun x => !decide (x.1 = s ∧ x.2.1 = q)),
    stages := v.stages.filter (fun x => !decide (x.1 = s ∧ x.2.1 = q)),
    staged := v.staged.filter (fun x => !decide (x.1 = s ∧ x.2.1 = q)) }) d
  setPage s die q none (d.istDrop (fun r => r.body.ofSlot s (· = q)))

/-- Logical pages that a slot has on a die. -/
def SvcSlot.pagesOf (x : SvcSlot) (die : Nat) : List Nat := (x.table die).pages.map (·.1)

/-- The lane and its Headland pages return to the free pool (R225). -/
def freeLane (s : Nat) (d : Dev) : Dev :=
  match d.slot s with
  | none => d
  | some x =>
    if ¬ x.hasLane then d
    else
      let m := d.svcModel x.req.plan
      let d := d.set R.FERRY_MODEL_users m (d.get R.FERRY_MODEL_users m - 1)
      modSlot s (fun x => { x with hasLane := false, head := {} }) d

/-- The slot becomes FREE (R229). -/
def freeSlot (s : Nat) (d : Dev) : Dev :=
  match d.slot s with
  | none => d
  | some x =>
    let m := d.svcModel x.req.plan
    let d := freeLane s d
    let d := d.set R.FERRY_MODEL_users m (d.get R.FERRY_MODEL_users m - 1)
    let d := modSvc (fun v => { v with
      spills := v.spills.filter (fun y => !decide (y.1 = s)),
      stages := v.stages.filter (fun y => !decide (y.1 = s)),
      staged := v.staged.filter (fun y => !decide (y.1 = s)) }) (d.istDrop (fun r => r.body.ofSlot s (fun _ => true)))
    showHolds x.req.customer ((setSlot s none d).clearReg R.SVC_SLOT_state s)

/-! ### Spill and staging (R230) -/

/-- Slower-tier frames in use. -/
def Dev.slowUsed (d : Dev) : List Nat :=
  d.occupied.flatMap (fun e => e.2.est.pages.filterMap (fun p => match p.2 with | some p => p.slow | none => none)) ++
  d.svc.spills.map (fun x => x.2.2)

/-- The lowest free slower-tier frame. -/
def Dev.slowFrame (d : Dev) : Option Nat :=
  let used := d.slowUsed
  (List.range (used.length + 1)).find? (fun f => !used.contains f && decide (f < d.get R.SVC_KV_CTL_slow_frames))

/-- Pages of a slot that may be spilled, lowest first. -/
def Dev.spillable (d : Dev) (s : Nat) (x : SvcSlot) : List Nat :=
  let tpp := d.svcTpp x.req.plan
  let layers := Nat.max 1 (d.get R.SVC_PLAN_layers x.req.plan)
  let n := d.get R.SVC_SLOT_committed s
  x.est.pages.filterMap (fun e => match e.2 with
    | some p =>
      if p.frame.isSome ∧ p.slow = none ∧ (e.1 / layers + 1) * tpp ≤ n ∧
          ¬ d.svc.spills.any (fun y => decide (y.1 = s ∧ y.2.1 = e.1)) then some e.1 else none
    | none => none)

/-- HBM-resident pages of a slot. -/
def SvcSlot.resident (x : SvcSlot) : Nat :=
  (x.est.pages.filter (fun e => match e.2 with | some p => p.frame.isSome && p.slow.isNone | none => false)).length

/-- Start one spill, from the slot with the most resident pages. -/
def spillOne (d : Dev) : Option Dev :=
  let best := d.occupied.foldl (fun (b : Option (Nat × SvcSlot)) e =>
    if d.spillable e.1 e.2 = [] then b
    else match b with
      | none => some e
      | some x => if e.2.resident > x.2.resident then some e else some x) none
  match best, d.slowFrame with
  | some (s, x), some f =>
    (d.spillable s x).head?.map (fun q => modSvc (fun v => { v with spills := v.spills ++ [(s, q, f)] }) d)
  | _, _ => none

/-- Spill while free frames, those that spills under way will free among them, are below high_water percent. -/
def spillMore : Nat → Dev → Dev
  | 0, d => d
  | fuel + 1, d =>
    let p := d.poolFrames 1
    if 100 * (d.framesFree 1 + d.svc.spills.length) < d.get R.SVC_KV_CTL_high_water * (p.2 - p.1) then
      match spillOne d with
      | some d => spillMore fuel d
      | none => d
    else d

/-- Spilling in phase 7. -/
def spillPages (d : Dev) : Dev :=
  let p := d.poolFrames 1
  if d.is R.SVC_KV_CTL_slow_enable ∧ 100 * d.framesFree 1 < d.get R.SVC_KV_CTL_low_water * (p.2 - p.1) then
    spillMore (p.2 - p.1) d
  else d

/-- A free staging frame, or the one whose page was staged longest ago among those that `keep` does not name. A frame
that held a page or a table when it became one of those reserved for staging is not free before that is returned. -/
def stageFrame (keep : List (Nat × Nat)) (d : Dev) : Option (Nat × Dev) :=
  let busy := d.framesUsed 1
  let lo := d.stageFirst
  let hi := (d.poolFrames 1).2
  match (List.range (busy.length + 1)).find? (fun i => decide (lo + i < hi) && !busy.contains (lo + i)) with
  | some i => some (lo + i, d)
  | none =>
    match d.svc.staged.find? (fun x => !keep.contains (x.1, x.2.1)) with
    | none => none
    | some (s, q, f) =>
      let old := ((d.slot s).bind (fun x => tget none x.est.pages q)).bind (fun p => p.slow)
      let d := setPage s 1 q (some { frame := none, slow := old, staged := false }) d
      some (f, modSvc (fun v => { v with staged := v.staged.filter (fun x => !decide (x = (s, q, f))) }) d)

/-- Start staging the pages of a list that are not in HBM; a page that the step reads of this slot, or of a slot that
entered it before (`keep`), stays staged. Second part: there were some. -/
def stagePages (keep : List (Nat × Nat)) (s : Nat) (qs : List Nat) (d : Dev) : Dev × Bool :=
  let cold := qs.filter (fun q => match (d.slot s).bind (fun x => tget none x.est.pages q) with
    | some p => p.frame.isNone
    | none => false)
  (cold.foldl (fun d q =>
    if d.svc.stages.any (fun x => decide (x.1 = s ∧ x.2.1 = q)) then d
    else match stageFrame (keep ++ qs.map (fun q => (s, q))) d with
      | some (f, d) => modSvc (fun v => { v with stages := v.stages ++ [(s, q, f)] }) d
      | none => d) d, cold ≠ [])

/-- Host address of a slower-tier frame (Table 7.9). -/
def Dev.slowAddr (d : Dev) (f : Nat) : Nat := d.get R.SVC_KV_SLOW_BASE_base + f * frameSize

/-- KV_SPILL_DONE (R230): the page is copied, its entry changed, its frame freed. -/
def execKvSpillDone (s q : Nat) (d : Dev) : Dev :=
  match d.svc.spills.find? (fun x => decide (x.1 = s ∧ x.2.1 = q)) with
  | none => d
  | some (_, _, f) =>
    match ((d.slot s).bind (fun x => tget none x.est.pages q)).bind (fun p => p.frame) with
    | none => d
    | some fr =>
      let x := hbmRead byFerry none 1 (fr * frameSize) frameSize d
      let d := modSvc (fun v => { v with spills := v.spills.filter (fun x => !decide (x = (s, q, f))) }) x.1
      -- a page that cannot be read stays where it is (notes/assumptions/105.md)
      if x.2 then d
      else
        let bytes := mbytes d.mem (hbmKey 1 (fr * frameSize)) frameSize
        let d := modSvc (fun v => { v with spilled := v.spilled ++ [(d.slowAddr f, bytes)] }) d
        setPage s 1 q (some { frame := none, slow := some f, staged := false }) d

/-- KV_STAGE_DONE (R230): the page is staged into its frame. -/
def execKvStageDone (s q : Nat) (data : List Byte) (d : Dev) : Dev :=
  match d.svc.stages.find? (fun x => decide (x.1 = s ∧ x.2.1 = q)) with
  | none => d
  | some (_, _, f) =>
    let slow := ((d.slot s).bind (fun x => tget none x.est.pages q)).bind (fun p => p.slow)
    let d := hbmWrite 1 (f * frameSize) (data.take frameSize) d
    let d := modSvc (fun v => { v with
      stages := v.stages.filter (fun x => !decide (x = (s, q, f))), staged := v.staged ++ [(s, q, f)] }) d
    setPage s 1 q (some { frame := some f, slow := slow, staged := true }) d

/-- The copy of a page from its Headland frame to its Estuary frame begins (R224): 4,096 entries of the Isthmus. -/
def sendPage (s q : Nat) (d : Dev) : Dev :=
  let f := fun (t : KvTable) => (tget none t.pages q).bind (fun p => p.frame)
  match d.slot s with
  | none => d
  | some x =>
    match f x.head, f x.est with
    | some a, some b =>
      d.istQueue true icKv 0 0 (d.get R.DEV_ADDR_address * 2 ^ 44 + 2 ^ 39 + b * frameSize) (frameSize / 64)
        (.page s q (a * frameSize) (b * frameSize))
    | _, _ => d

/-- HANDOFF_COPY_DONE (R224): the copy of a page, all of whose entries have crossed the Isthmus, is complete. -/
def execHandoffCopyDone (s q : Nat) (d : Dev) : Dev :=
  match d.slot s with
  | none => d
  | some x =>
    if ¬ x.copies.contains q ∨ d.onIsthmus (fun b => b.ofSlot s (· = q)) then d
    else modSlot s (fun x => { x with copies := x.copies.filter (fun y => !decide (y = q)) }) d

end Sys2Proof.Machine
end

