-- ==== Sys2Proof/Machine/Boundary.lean ====
section
/-! DEFINITION. The step boundary (R212 to R237, R242 to R268): its eight phases, the switch between plans, and the loss
of a step. -/

namespace Sys2Proof.Machine

/-! ### Statuses (Table 8.4) -/

def osOk : Nat := 0
def osEos : Nat := 1
def osStopId : Nat := 2
def osStopSeq : Nat := 3
def osMaxNew : Nat := 4
def osExpired : Nat := 5
def osBudget : Nat := 6
def osNoBudget : Nat := 7
def osFormat : Nat := 8
def osNoPlan : Nat := 9
def osModel : Nat := 10
def osRefused : Nat := 11
def osFault : Nat := 12

/-! ### Phase 1: collect (R214, R215, R246) -/

/-- What a slot's result entry reports. -/
structure SvcResult where
  slot : Nat
  outcome : Nat
  tokens : List Nat
  drafts : List Nat
  layer : Nat
  chunk : Nat
  /-- Tokens of the chunk, for a prefill entry. -/
  valid : Nat
  start : Nat
  deriving DecidableEq, Repr

/-- The result buffer of a die and step number (memory key); none where its base is no address of that die. -/
def Dev.resultAt (d : Dev) (die n : Nat) : Option Nat :=
  (d.hbmAt (d.get R.SVC_RESULT_BASE_base die)).map (fun x => hbmKey x.1 (x.2 + 65536 * (n % 2)))

/-- A decode result entry; none: it is out of range. -/
def decodeResult (d : Dev) (at0 : Nat) (i : Nat) (e : DecEntry) : Option SvcResult :=
  let a := at0 + 64 + 128 * i
  let f := fun off n => mnum d.mem (a + off) n
  let outcome := f 2 1
  let count := f 3 1
  let nd := f 0x24 1
  if f 0 2 ≠ e.slot ∨ outcome > 2 ∨ count > 8 then none
  else if outcome = 1 ∧ (count = 0 ∨ count > e.drafts + 1 ∨ nd > 7) then none
  else if outcome = 2 ∧ count ≠ 0 then none
  else some {
    slot := e.slot, outcome := outcome,
    tokens := if outcome = 1 then (List.range count).map (fun k => f (4 + 4 * k) 4) else [],
    drafts := (List.range (Nat.min 7 nd)).map (fun k => f (0x28 + 4 * k) 4), layer := f 0x44 2, chunk := f 0x48 4, valid := 0,
    start := 0 }

/-- A prefill result entry. -/
def prefillResult (d : Dev) (at0 : Nat) (i : Nat) (e : PreEntry) : Option SvcResult :=
  let a := at0 + 64 + 64 * i
  let f := fun off n => mnum d.mem (a + off) n
  let outcome := f 2 1
  if f 0 2 ≠ e.slot ∨ outcome > 2 then none
  else some {
    slot := e.slot, outcome := outcome, tokens := if outcome = 2 then [f 4 4] else [], drafts := [], layer := 0,
    chunk := 0, valid := e.valid, start := e.start }

/-- The entries of a part, checked in order; none where one fails. -/
def allResults {α : Type} (f : Nat → α → Option SvcResult) : Nat → List α → Option (List SvcResult)
  | _, [] => some []
  | i, e :: es =>
    match f i e, allResults f (i + 1) es with
    | some r, some rs => some (r :: rs)
    | _, _ => none

/-- A result header repeats the step number. -/
def Dev.headerAt (d : Dev) (at0 n : Nat) : Bool := decide (mnum d.mem at0 8 = n)

/-- The results of the ending step: decode and prefill entries; none: EV_SVC_RESULT. A part of width 0 has no result. -/
def collect (n : Nat) (d : Dev) : Option (List SvcResult × List SvcResult) :=
  let dec := if d.svc.decode = [] then some [] else
    match d.resultAt 1 n with
    | some a => if d.headerAt a n then allResults (decodeResult d a) 0 d.svc.decode else none
    | none => none
  let pre := if d.svc.prefill = [] then some [] else
    match d.resultAt 0 n with
    | some a => if d.headerAt a n then allResults (prefillResult d a) 0 d.svc.prefill else none
    | none => none
  match dec, pre with
  | some a, some b =>
    -- inactive and held entries ran as shadow and change nothing (R213)
    let active := fun s => d.svc.decode.any (fun e => decide (e.slot = s) && !e.held)
    some (a.filter (fun r => decide (r.slot ≠ 0xFFFF) && active r.slot), b.filter (fun r => decide (r.slot ≠ 0xFFFF)))
  | _, _ => none

/-- Chunks reported done: the prompt tokens left, and the states that leave PREFILL (Table 7.7). -/
def takeChunks (pre : List SvcResult) (d : Dev) : Dev :=
  pre.foldl (fun d r =>
    if r.outcome = 0 then d
    else
      let d := modSlot r.slot (fun x => { x with
        left := x.left - r.valid, chunks := x.chunks ++ [(r.start, r.valid)] }) d
      if r.outcome = 2 then d.set R.SVC_SLOT_state r.slot ssHandoff else d) d

/-! ### Phase 2: commit (R248 to R251, R253) -/

/-- The status with which a token ends its request, if it does (R249): the token, those generated before it (oldest
first), and the number delivered with it. -/
def stopStatus (q : Request) (eos : Nat) (before : List Nat) (count tok : Nat) : Option Nat :=
  let all := before ++ [tok]
  if tok = eos then some osEos
  else if q.stopIds.contains tok then some osStopId
  else if q.stopSeqs.any (fun s => decide (s ≠ [] ∧ s.length ≤ all.length ∧ all.drop (all.length - s.length) = s)) then
    some osStopSeq
  else if count ≥ q.maxNew then some osMaxNew
  else none

/-- The tokens delivered, in order, and the stop status (R249, R250). -/
def deliver (q : Request) (eos : Nat) : List Nat → Nat → List Nat → List Nat × Option Nat
  | _, _, [] => ([], none)
  | before, n, t :: ts =>
    match stopStatus q eos before (n + 1) t with
    | some st => ([t], some st)
    | none =>
      let r := deliver q eos (before ++ [t]) (n + 1) ts
      (t :: r.1, r.2)

/-- The last 7 of a list. -/
def lastSeven (l : List Nat) : List Nat := l.drop (l.length - 7)

/-- End a request: its final entry, its reservations. -/
def endRequest (s status first n : Nat) (tokens : List Nat) (d : Dev) : Dev :=
  match d.slot s with
  | none => d
  | some x =>
    let d := dropAdmission s (dropStep s d)
    let d := modSlot s (fun x => { x with ended := some status, stepOut := false }) d
    pushOut x.req.ring (outEntry x.req.id s status first n tokens true) d

/-- Row "Otherwise" of Table 8.2. -/
def commitTokens (s n : Nat) (r : SvcResult) (d : Dev) : Dev :=
  match d.slot s with
  | none => d
  | some x =>
    let st := d.slotState s
    let eos := d.get R.SVC_PLAN_eos x.req.plan
    let (toks, stop) := deliver x.req eos x.recent x.delivered r.tokens
    let c := x.req.customer
    -- charge and release (R257)
    let d := dropStep s (addBalance c (-(toks.length : Int)) d)
    let d := dropAdmission s d
    let d := feedAdd c x.req.tenant toks.length 0 d
    let d := if st = ssDecode ∨ st = ssLong then
        d.set R.SVC_SLOT_committed s (d.get R.SVC_SLOT_committed s + r.tokens.length) else d
    let d := modSlot s (fun x => { x with
      input := toks.getLastD x.input, drafts := r.drafts, recent := lastSeven (x.recent ++ toks),
      delivered := x.delivered + toks.length,
      carry := x.carry.map (fun c => (c.1, 0, 0)) }) d
    match stop with
    | some status => endRequest s status x.delivered n toks d
    | none =>
      let d := modSlot s (fun x => { x with stepOut := false }) d
      pushOut x.req.ring (outEntry x.req.id s osOk x.delivered n toks false) d

/-- Phase 2 of one slot: the first row of Table 8.2 that matches. -/
def commitSlot (tb : BitVec 64) (n : Nat) (results : List SvcResult) (s : Nat) (d : Dev) : Dev :=
  match d.slot s with
  | none => d
  | some x =>
    let r := results.find? (fun r => decide (r.slot = s))
    let produced := match r with
      | some r => r.tokens.length
      | none => 0
    let st := d.slotState s
    if x.req.deadline ≠ 0 ∧ tdiff (BitVec.ofNat 64 x.req.deadline) tb ≤ 0 then
      endRequest s osExpired x.delivered n [] (feedAdd x.req.customer x.req.tenant 0 produced d)
    else if d.modelState (d.svcModel x.req.plan) = msFailed then endRequest s osModel x.delivered n [] d
    else if (st = ssDecode ∨ st = ssLong) ∧ x.holds ≥ d.get R.SVC_BUDGET_CTL_hold_limit then
      endRequest s osBudget x.delivered n [] d
    else match r with
      | some r =>
        if r.tokens = [] then
          -- a LONG slot's carry goes on (R231)
          let d := if r.outcome = 2 then
              modSlot s (fun x => { x with carry := x.carry.map (fun c => (c.1, r.layer, r.chunk)) }) d else d
          modSlot s (fun x => { x with stepOut := false, drafts := r.drafts }) (dropStep s d)
        else commitTokens s n r d
      | none =>
        -- a held step leaves no drafts (R243); a slot that the step did not enter keeps its own
        let held := d.svc.decode.any (fun e => decide (e.slot = s) && e.held)
        modSlot s (fun x => { x with stepOut := false, drafts := if held then [] else x.drafts }) (dropStep s d)

/-- Phase 2. -/
def phaseCommit (tb : BitVec 64) (n : Nat) (results : List SvcResult) (d : Dev) : Dev :=
  let d := settleBudgets tb d
  (d.occupied.map (·.1)).foldl (fun d s => commitSlot tb n results s d) d

/-! ### Phase 3: free (R229, R247) -/

/-- The FINISH entry of an ended request, and its slot becomes FREE. -/
def finishSlot (n s : Nat) (d : Dev) : Dev :=
  match d.slot s with
  | none => d
  | some x =>
    match x.ended with
    | none => d
    | some st =>
      freeSlot s (logAdd 0x06 n (leBytes 8 x.req.id ++ leBytes 2 s ++ leBytes 1 st ++ leBytes 4 x.delivered) d)

/-- Pages of a DECODE slot whose first position is at or beyond its committed length. -/
def Dev.beyond (d : Dev) (s : Nat) (x : SvcSlot) : List Nat :=
  let layers := Nat.max 1 (d.get R.SVC_PLAN_layers x.req.plan)
  (x.pagesOf 1).filter (fun q => decide (q / layers * d.svcTpp x.req.plan ≥ d.get R.SVC_SLOT_committed s))

/-- Phase 3. -/
def phaseFree (n : Nat) (d : Dev) : Dev :=
  let d := (d.occupied.map (·.1)).foldl (fun d s => finishSlot n s d) d
  d.occupied.foldl (fun d e =>
    if d.slotState e.1 = ssDecode then (d.beyond e.1 e.2).foldl (fun d q => freePage e.1 1 q d) d else d) d

/-! ### Phase 4: join (R224, R225) -/

/-- A HANDOFF slot whose copies have all completed joins decode. -/
def joinSlot (n s : Nat) (d : Dev) : Dev :=
  match d.slot s with
  | none => d
  | some x =>
    if d.slotState s = ssHandoff ∧ x.copies = [] ∧ x.chunks = [] then
      let d := logAdd 0x05 n (leBytes 8 x.req.id ++ leBytes 2 s) d
      let d := freeLane s ((d.set R.SVC_SLOT_state s ssDecode).set R.SVC_SLOT_committed s x.req.promptLen)
      modSlot s (fun x => { x with drafts := [] }) d
    else d

/-- Logical pages of positions [a, a + n) of every layer. -/
def pagesFor (tpp layers a n : Nat) : List Nat :=
  if n = 0 then []
  else
    let lo := a / tpp
    let hi := (a + n - 1) / tpp
    (List.range (hi - lo + 1)).flatMap (fun i => (List.range layers).map (fun l => (lo + i) * layers + l))

/-- Start the handoff of one chunk, or leave it for a later boundary. -/
def startHandoff (s : Nat) (ch : Nat × Nat) (d : Dev) : Dev :=
  match d.slot s with
  | none => d
  | some x =>
    let qs := pagesFor (d.svcTpp x.req.plan) (Nat.max 1 (d.get R.SVC_PLAN_layers x.req.plan)) ch.1 ch.2
    match ensurePages s 1 qs d with
    | none => d
    | some d =>
      (qs.filter (fun q => !x.copies.contains q)).foldl (fun d q => sendPage s q d) (modSlot s (fun x => { x with
        chunks := x.chunks.filter (fun c => !decide (c = ch)),
        copies := distinct (x.copies ++ qs) }) d)

/-- Phase 4. -/
def phaseJoin (n : Nat) (d : Dev) : Dev :=
  let ss := d.occupied.map (·.1)
  let d := ss.foldl (fun d s => joinSlot n s d) d
  d.occupied.foldl (fun d e => e.2.chunks.foldl (fun d ch => startHandoff e.1 ch d) d) d

/-! ### Phase 5: admit (R216 to R220, R252, R255) -/

def Dev.intakeSize (d : Dev) (i : Nat) : Nat := 2 ^ (Nat.min 10 (d.get R.SVC_INTAKE_size i) + 2)

/-- Die address of the entry at a ring's head, in area HOST of Estuary; none: the ring cannot act. -/
def Dev.intakeHead (d : Dev) (i : Nat) : Option Nat :=
  match d.hbmAt (d.get R.SVC_INTAKE_base i) with
  | some (1, a) =>
    let e := a + 256 * (d.get R.SVC_INTAKE_head i % d.intakeSize i)
    if d.areaAt 1 e 256 = areaHost then some e else none
  | _ => none

/-- The request in an intake entry (Table 7.5). -/
def Dev.intakeEntry (d : Dev) (i e : Nat) : Request :=
  let f := fun off n => mnum d.mem (hbmKey 1 (e + off)) n
  let lens := f 0x4A 2
  { id := f 0 8, customer := f 8 2, tenant := f 0xA 1, plan := f 0xB 1, drafts := f 0xC 1, promptLen := f 0x10 4,
    maxNew := f 0x14 4, promptAddr := f 0x18 8, deadline := f 0x20 8, seed := mbytes d.mem (hbmKey 1 (e + 0x28)) 32,
    stopIds := (List.range (Nat.min 8 (f 0x48 1))).map (fun k => f (0x50 + 4 * k) 4),
    stopSeqs := (List.range (Nat.min 4 (f 0x49 1))).map (fun j =>
      (List.range (Nat.min 8 (bits lens (4 * j) 4))).map (fun k => f (0x70 + 32 * j + 4 * k) 4)),
    ring := i }

/-- The prompt's die address, where it lies in area HOST of Estuary. -/
def Dev.promptAt (d : Dev) (q : Request) : Option Nat :=
  match d.hbmAt q.promptAddr with
  | some (1, a) => if d.areaAt 1 a (4 * q.promptLen) = areaHost then some a else none
  | _ => none

/-- First row of Table 7.6. -/
def Dev.badFormat (d : Dev) (e : Nat) (q : Request) : Bool :=
  let f := fun off n => mnum d.mem (hbmKey 1 (e + off)) n
  let ids := f 0x48 1
  let seqs := f 0x49 1
  decide (f 0xD 3 ≠ 0 ∨ f 0x4C 4 ≠ 0 ∨ f 0xF0 16 ≠ 0 ∨ q.promptLen = 0 ∨ ids > 8 ∨ seqs > 4) ||
  (d.promptAt q).isNone ||
  (List.range seqs).any (fun j => let n := bits (f 0x4A 2) (4 * j) 4; decide (n < 1 ∨ n > 8))

/-- What becomes of an entry at a ring's head. -/
inductive Verdict where
  | reject (status : Nat)
  | waitModel
  | wait
  | take
  deriving DecidableEq, Repr

/-- Table 7.6, with R252 and R255 in their place. -/
def Dev.verdict (d : Dev) (tb : BitVec 64) (e : Nat) (q : Request) : Verdict :=
  let m := d.svcModel q.plan
  let since := (d.svcRing q.ring).waitSince
  let late := match since with
    | some t => decide (tdiff tb t > (d.get R.SVC_CTL_model_wait * msU : Nat))
    | none => false
  if d.badFormat e q then .reject osFormat
  else if q.plan > 15 ∨ ¬ d.is R.SVC_PLAN_enable q.plan then .reject osNoPlan
  else if d.modelState m = msFailed ∨ (late = true ∧ d.modelState m ≠ msResident) then .reject osModel
  else if q.deadline ≠ 0 ∧ tdiff (BitVec.ofNat 64 q.deadline) tb ≤ 0 then .reject osExpired
  else if q.customer > 4095 ∨ q.tenant ≠ d.get R.SVC_BUDGET_tenant q.customer then .reject osFormat
  else if ¬ d.is R.SVC_BUDGET_enable q.customer ∨ ¬ d.hasToken q.customer then .reject osNoBudget
  else if d.modelState m ≠ msResident then .waitModel
  else if d.occupied.length ≥ 256 ∨ (d.occupied.filter (fun x => x.2.hasLane)).length ≥ 32 then .wait
  else .take

/-- SVC_ADMIT_PENDING and what is kept of a ring's head entry. -/
def setAsked (i : Nat) (b : Bool) (d : Dev) : Dev :=
  d.set R.SVC_ADMIT_PENDING_rings 0 (setBit (d.get R.SVC_ADMIT_PENDING_rings) i b)

/-- The head advances past an entry. -/
def nextEntry (i : Nat) (d : Dev) : Dev :=
  let d := modRing i (fun r => { phase := r.phase }) (setAsked i false d)
  d.set R.SVC_INTAKE_head i ((d.get R.SVC_INTAKE_head i % d.intakeSize i + 1) % d.intakeSize i)

/-- Reject an entry, where the output ring has an unreserved free entry (R262). Second part: it acted. -/
def rejectEntry (i n status : Nat) (q : Request) (d : Dev) : Dev × Bool :=
  if d.outFree i = 0 then (d, false)
  else
    let d := pushOut i (outEntry q.id 0xFFFF status 0 n [] true) d
    (nextEntry i (d.inc C.SVC_COUNTS_rejected), true)

/-- PROMPT entries: up to 12 tokens each (Table 7.10). -/
def logPrompt (n : Nat) (d : Dev) (toks : List Nat) : Nat → Dev
  | 0 => d
  | k + 1 =>
    let d := logPrompt n d toks k
    let part := (toks.drop (12 * k)).take 12
    if part = [] then d
    else logAdd 0x02 n (leBytes 4 (12 * k) ++ leBytes 1 part.length ++ part.flatMap (leBytes 4)) d

/-- Admit a request (R219, R255). Second part: it acted; its standing output entry must be free (R262). -/
def admitEntry (i n : Nat) (q : Request) (d : Dev) : Dev × Bool :=
  if d.outFree i = 0 then (d, false)
  else
    let s := ((List.range 256).find? (fun s => (d.slot s).isNone)).getD 0
    let used := (d.occupied.filter (fun x => x.2.hasLane)).map (fun x => d.get R.SVC_SLOT_lane x.1)
    let lane := ((List.range 32).find? (fun l => !used.contains l)).getD 0
    let n1 := d.reserveOf q.customer 1
    let x : SvcSlot := { req := q, order := d.svc.orders, left := q.promptLen, admRes := n1 }
    let d := modSvc (fun v => { v with orders := v.orders + 1, nextRing := (i + 1) % 16 }) (setSlot s (some x) d)
    let d := (((d.set R.SVC_SLOT_state s ssPrefill).set R.SVC_SLOT_plan s q.plan).set R.SVC_SLOT_lane s lane).set
      R.SVC_SLOT_committed s 0
    let m := d.svcModel q.plan
    let d := reserve q.customer n1 (d.set R.FERRY_MODEL_users m (d.get R.FERRY_MODEL_users m + 2))
    let a := (d.promptAt q).getD 0
    let prompt := mbytes d.mem (hbmKey 1 a) (4 * q.promptLen)
    let toks := (List.range (Nat.min q.promptLen (d.get R.SVC_LOG_CTL_prompt_max))).map (fun k =>
      mnum d.mem (hbmKey 1 (a + 4 * k)) 4)
    let d := logAdd 0x01 n (leBytes 8 q.id ++ leBytes 2 s ++ leBytes 1 lane ++ leBytes 1 q.plan ++ leBytes 2 q.customer ++
      leBytes 1 q.tenant ++ leBytes 4 q.promptLen ++ leBytes 1 q.drafts ++ q.seed) d
    let d := if d.is R.SVC_LOG_CTL_enable then
        logAdd 0x03 n (shake256Digest prompt) (logPrompt n d toks ((toks.length + 11) / 12)) else d
    (nextEntry i (d.inc C.SVC_COUNTS_admitted), true)

/-- An entry treated under R218. -/
def treatEntry (tb : BitVec 64) (i n e : Nat) (q : Request) (d : Dev) : Dev × Bool :=
  match d.verdict tb e q with
  | .reject st => rejectEntry i n st q d
  | .take => admitEntry i n q d
  | .wait => (d, false)
  | .waitModel =>
    let d := modRing i (fun r => { r with waitSince := some (r.waitSince.getD tb) }) d
    let m := d.svcModel q.plan
    (if d.modelState m = msRegistered ∧ ¬ d.hosted 3 then loadModel m d else d, false)

/-- An entry while the host decides (R220). -/
def askEntry (tb : BitVec 64) (i n e : Nat) (q : Request) (d : Dev) : Dev × Bool :=
  let r := d.svcRing i
  match r.decision with
  | some false => rejectEntry i n osRefused q d
  | some true =>
    treatEntry tb i n e q (setAsked i false (modRing i (fun r => { r with decision := none, accepted := true }) d))
  | none =>
    if r.accepted then treatEntry tb i n e q d
    else if r.timedOut then
      treatEntry tb i n e q (setAsked i false d)
    else if r.askedAt.isSome then (d, false)
    else ((setAsked i true (modRing i (fun r => { r with askedAt := some d.now }) d)).raise E.ADMIT_PENDING, false)

/-- One ring's turn. -/
def ringTurn (tb : BitVec 64) (n : Nat) (tails : List Nat) (i : Nat) (d : Dev) : Dev × Bool :=
  if ¬ d.is R.SVC_INTAKE_enable i ∨ d.get R.SVC_INTAKE_head i % d.intakeSize i = tails.getD i 0 % d.intakeSize i then
    (d, false)
  else match d.intakeHead i with
    | none => (d, false)
    | some e =>
      let q := d.intakeEntry i e
      if d.hosted 8 then askEntry tb i n e q d else treatEntry tb i n e q d

/-- One turn over the 16 rings; second part: how many acted. -/
def turnAll (tb : BitVec 64) (n max first : Nat) (tails : List Nat) (d : Dev) : Dev × Nat :=
  (List.range 16).foldl (fun (acc : Dev × Nat) k =>
    if acc.2 ≥ max then acc
    else
      let r := ringTurn tb n tails ((first + k) % 16) acc.1
      (r.1, acc.2 + flag r.2)) (d, 0)

/-- Turns until `max` requests were admitted or rejected, or no ring can act. -/
def turns (tb : BitVec 64) (n first : Nat) (tails : List Nat) : Nat → Nat → Dev → Dev
  | 0, _, d => d
  | fuel + 1, max, d =>
    let r := turnAll tb n max first tails d
    if r.2 = 0 ∨ r.2 ≥ max then r.1 else turns tb n first tails fuel (max - r.2) r.1

/-- Phase 5; a quiesce in progress admits nothing. -/
def phaseAdmit (tb : BitVec 64) (n : Nat) (d : Dev) : Dev :=
  if d.svc.quiesce then d
  else
    let tails := (List.range 16).map (fun i => d.get R.SVC_INTAKE_tail i)
    let max := Nat.max 1 (d.get R.SVC_CTL_admit_max)
    turns tb n d.svc.nextRing tails max max d

/-! ### Phase 6: choose (R233, R234) -/

/-- The next step's slow-tier buffer of a plan's model is verified (R203). -/
def Dev.slowReady (d : Dev) (m : Nat) : Bool :=
  match tget none d.ferry.slow m with
  | none => true
  | some st => bit st.ready ((st.inUse + 1) % 2)

/-- A plan has work (R233). -/
def Dev.hasWork (d : Dev) (p : Nat) : Bool :=
  d.occupied.any (fun e => decide (e.2.req.plan = p) &&
    (decide (d.slotState e.1 = ssDecode ∨ d.slotState e.1 = ssLong ∨ d.slotState e.1 = ssHandoff) ||
      (e.2.hasLane && decide (e.2.left > 0))))

/-- A serving plan is eligible (R233). -/
def Dev.eligible (d : Dev) (running : Option Nat) (p : Nat) : Bool :=
  let m := d.svcModel p
  d.is R.SVC_PLAN_enable p && d.hasWork p && d.slowReady m &&
  (decide (d.modelState m = msResident) || (decide (running = some p ∧ d.modelState m = msRepairing)))

/-- The plan of the next step (R234). -/
def Dev.choose (d : Dev) (running : Option Nat) : Option Nat :=
  let first := match running with
    | some p => p + 1
    | none => d.get R.SVC_STATUS_plan + 1
  let others := ((List.range 16).map (fun k => (first + k) % 16)).filter (fun p =>
    !decide (running = some p) && d.eligible running p)
  match running with
  | some p =>
    if d.eligible running p ∧ (d.svc.steps < Nat.max 1 (d.get R.SVC_PLAN_quantum p) ∨ others = []) then some p
    else others.head?
  | none => others.head?

/-! ### Phase 7: prepare (R222, R228, R231, R243, R256, R262) -/

/-- Reasons of SVC_SLOT.held. -/
def hrBudget : Nat := 1
def hrPages : Nat := 2
def hrOutput : Nat := 3

/-- Drafts of a slot for the next step (R243). -/
def Dev.draftsFor (d : Dev) (s : Nat) (x : SvcSlot) : Nat :=
  let n := d.get R.SVC_SLOT_committed s
  let p := x.req.plan
  let cap := d.get R.SVC_PLAN_page_ceiling p * d.svcTpp p - n - 1
  let money := (d.available x.req.customer - 1).toNat
  if d.slotState s = ssLong then 0
  else Nat.min x.req.drafts (Nat.min x.drafts.length (Nat.min (x.req.maxNew - x.delivered - 1) (Nat.min money cap)))

/-- The slot enters or leaves LONG (Table 7.7, R231, R232). A slot whose carry record cannot be allocated stays DECODE
and finds no pages. -/
def chooseLong (s : Nat) (d : Dev) : Dev :=
  match d.slot s with
  | none => d
  | some x =>
    let p := x.req.plan
    let n := d.get R.SVC_SLOT_committed s
    let long := decide (pagesPer (d.svcTpp p) (n + 1) > d.get R.SVC_PLAN_page_ceiling p)
    if d.slotState s = ssDecode ∧ long = true then
      match d.kvPlace 1 frameSize with
      | none => d
      | some a =>
        let d := (modSlot s (fun x => { x with carry := some (a / frameSize, 0, 0) }) d).set R.SVC_SLOT_state s ssLong
        hbmWrite 1 a (leBytes 8 s ++ leBytes 8 (d.get R.SVC_STATUS_step) ++ leBytes 8 n ++ leBytes 40 0) d
    else if d.slotState s = ssLong ∧ long = false then
      match x.carry with
      | some (_, 0, 0) => (modSlot s (fun x => { x with carry := none }) d).set R.SVC_SLOT_state s ssDecode
      | _ => d
    else d

/-- Logical pages that the next step reads or writes for a slot (R228). -/
def Dev.neededPages (d : Dev) (s : Nat) (x : SvcSlot) (drafts : Nat) : List Nat :=
  let p := x.req.plan
  let tpp := d.svcTpp p
  let layers := Nat.max 1 (d.get R.SVC_PLAN_layers p)
  let n := d.get R.SVC_SLOT_committed s
  match x.carry with
  | some (_, layer, chunk) =>
    let c := d.get R.SVC_PLAN_page_ceiling p
    let last := pagesPer tpp (n + 1)
    distinct ((((List.range c).map (fun k => chunk * c + k)).filter (fun b => decide (b < last))).map (fun b =>
      b * layers + layer) ++ (List.range layers).map (fun l => n / tpp * layers + l))
  | none => pagesFor tpp layers 0 (n + drafts + 1)

/-- A slot is held for the next step. -/
def holdSlot (s reason : Nat) (d : Dev) : Dev := d.set R.SVC_SLOT_held s reason

/-- Budget of one slot (R256): reserved, or held. Second part: the slot's drafts, where it is not held. An unlimited
customer is not held for want of tokens (R254); enable 0 holds it like any other (Table 8.5). -/
def budgetSlot (s : Nat) (d : Dev) : Dev × Option Nat :=
  match d.slot s with
  | none => (d, none)
  | some x =>
    let c := x.req.customer
    if ¬ d.is R.SVC_BUDGET_enable c ∨ ¬ (d.is R.SVC_BUDGET_unlimited c ∨ d.hasToken c) then
      (showHolds c (modSlot s (fun x => { x with holds := Nat.min 255 (x.holds + 1) }) (holdSlot s hrBudget d)), none)
    else
      let k := d.draftsFor s x
      let r := d.reserveOf c (k + 1)
      (modSlot s (fun x => { x with stepRes := r }) (reserve c r d), some k)

/-- Pages and the step output entry of one slot; `keep` lists the pages of the slots entered before. Second part: the
pages that it reads, where it is entered unheld. -/
def pageSlot (s k : Nat) (keep : List (Nat × Nat)) (d : Dev) : Dev × List (Nat × Nat) :=
  match d.slot s with
  | none => (d, [])
  | some x =>
    let needs := d.neededPages s x k
    let st := stagePages keep s needs d
    let noCarry := decide (d.slotState s = ssDecode ∧
      pagesPer (d.svcTpp x.req.plan) (d.get R.SVC_SLOT_committed s + 1) > d.get R.SVC_PLAN_page_ceiling x.req.plan)
    match (if st.2 || noCarry then none else ensurePages s 1 needs st.1) with
    | none => ((dropStep s (holdSlot s hrPages st.1)).inc C.SVC_COUNTS_page_holds, [])
    | some d =>
      if d.outFree x.req.ring = 0 then (dropStep s (holdSlot s hrOutput d), [])
      else
        (showHolds x.req.customer (modSlot s (fun x => { x with stepOut := true, holds := 0 }) (holdSlot s 0 d)),
          needs.map (fun q => (s, q)))

/-- The decode slots of a plan that enter the next step: the first `decode_width` in admission order, each in slot
order in the record (notes/assumptions/28.md). -/
def Dev.decodeSlots (d : Dev) (p : Nat) : List Nat :=
  ((d.byAdmission.filter (fun e => decide (e.2.req.plan = p) &&
    decide (d.slotState e.1 = ssDecode ∨ d.slotState e.1 = ssLong))).map (·.1)).take (d.get R.SVC_PLAN_decode_width p)

/-- What chunk assignment answers: the device, the record's entries, and the lanes that found no output entry. -/
structure Chunks where
  d : Dev
  entries : List PreEntry
  stalled : List Nat

/-- Prompt chunks of the plan's lanes, in admission order (R222, R262): `width` entries and `c` tokens are left. -/
def assignChunks (p : Nat) : List Nat → Nat → Nat → Dev → Chunks
  | [], _, _, d => { d := d, entries := [], stalled := [] }
  | s :: ss, width, c, d =>
    if c < 128 ∨ width = 0 then { d := d, entries := [], stalled := [] }
    else match d.slot s with
      | none => assignChunks p ss width c d
      | some x =>
        let v := Nat.min x.left (Nat.min 4096 c)
        let start := x.req.promptLen - x.left
        let last := decide (v = x.left)
        let layers := Nat.max 1 (d.get R.SVC_PLAN_layers p)
        match ensurePages s 0 (pagesFor (d.svcTpp p) layers start v) d with
        | none => assignChunks p ss width c d
        | some d' =>
          if last ∧ d.outFree x.req.ring = 0 then
            let r := assignChunks p ss width c d
            { r with stalled := s :: r.stalled }
          else
            let d := if last then modSlot s (fun x => { x with stepOut := true }) d' else d'
            let r := assignChunks p ss (width - 1) (c - 128 * ((v + 127) / 128)) d
            { r with entries := { slot := s, start := start, valid := v, last := last } :: r.entries }

/-- The drafts that a list gives a slot. -/
def draftsIn (l : List (Nat × Nat)) (s : Nat) : Nat :=
  match l.find? (fun e => decide (e.1 = s)) with
  | some e => e.2
  | none => 0

/-- Budgets, then pages and output entries, of the slots that enter the next step. Second part: the drafts given. -/
def prepareSlots (ss : List Nat) (d : Dev) : Dev × List (Nat × Nat) :=
  let d := ss.foldl (fun d s => chooseLong s d) d
  let b := ss.foldl (fun (acc : Dev × List (Nat × Nat)) s =>
    let r := budgetSlot s acc.1
    (r.1, acc.2 ++ (r.2.toList.map (fun k => (s, k))))) (d, [])
  let r := b.2.foldl (fun (acc : Dev × List (Nat × Nat)) e =>
    let x := pageSlot e.1 e.2 acc.2 acc.1
    (x.1, acc.2 ++ x.2)) (b.1, [])
  (r.1, b.2)

/-- Phase 7 for the chosen plan. -/
def phasePrepare (p : Nat) (d : Dev) : Dev :=
  let ss := d.decodeSlots p
  let b := prepareSlots ss d
  let d := b.1
  let dec := (sortBy (fun a b => decide (a ≤ b)) ss).map (fun s =>
    let held := decide (d.get R.SVC_SLOT_held s ≠ 0)
    ({ slot := s, held := held, drafts := if held then 0 else draftsIn b.2 s } : DecEntry))
  let width := d.get R.SVC_PLAN_decode_width p
  let dec := dec ++ List.replicate (width - dec.length) { slot := 0xFFFF, held := false, drafts := 0 }
  let lanes := (d.byAdmission.filter (fun e => decide (e.2.req.plan = p) && e.2.hasLane && decide (e.2.left > 0))).map (·.1)
  let pw := d.get R.SVC_PLAN_prefill_width p
  let r := assignChunks p lanes pw (128 * d.get R.SVC_PLAN_prefill_units p) d
  let pre := r.entries ++
    List.replicate (pw - r.entries.length) { slot := 0xFFFF, start := 0, valid := 0, last := false }
  -- EV_OUTPUT_STALL once per ring (R262)
  let stalled := (ss.filter (fun s => decide (r.d.get R.SVC_SLOT_held s = hrOutput))) ++ r.stalled
  let rings := sortBy (fun a b => decide (a ≤ b)) (distinct (stalled.filterMap (fun s => (r.d.slot s).map (·.req.ring))))
  let d := rings.foldl (fun d i => d.raise E.OUTPUT_STALL none (some i)) r.d
  modSvc (fun v => { v with decode := dec, prefill := pre }) (spillPages d)

/-! ### Phase 8: publish (R213, R244) -/

/-- A hall address of this device in HBM. -/
def Dev.hallOf (d : Dev) (die a : Nat) : Nat := d.get R.DEV_ADDR_address * 2 ^ 44 + die * 2 ^ 39 + a

/-- A slot-seed record (R131, R242). -/
def seedRecord (q : Request) (index : Nat) : List Byte := q.seed ++ leBytes 2 q.id ++ leBytes 6 0 ++ leBytes 8 index

/-- A decode entry (Table 7.3). -/
def decBytes (d : Dev) (e : DecEntry) : List Byte :=
  match (if e.slot = 0xFFFF then none else d.slot e.slot) with
  | none => leBytes 2 0xFFFF ++ leBytes 126 0
  | some x =>
    let n := d.get R.SVC_SLOT_committed e.slot
    let long := x.carry.isSome
    let c := x.carry.getD (0, 0, 0)
    leBytes 2 e.slot ++ leBytes 1 (1 + 2 * flag e.held + 4 * flag long + 8 * flag (decide (e.drafts > 0))) ++
    leBytes 1 e.drafts ++ leBytes 4 x.input ++ leBytes 8 n ++
    leBytes 8 (match x.est.root with | some a => d.hallOf 1 a | none => 0) ++
    leBytes 8 (if long then d.hallOf 1 (c.1 * frameSize) else 0) ++ leBytes 2 c.2.1 ++ leBytes 2 0 ++ leBytes 4 c.2.2 ++
    leBytes 8 (pagesPer (d.svcTpp x.req.plan) (n + e.drafts + 1)) ++ seedRecord x.req (n + 1 - x.req.promptLen) ++
    leBytes 32 0

/-- A prefill entry. -/
def preBytes (d : Dev) (e : PreEntry) : List Byte :=
  match (if e.slot = 0xFFFF then none else d.slot e.slot) with
  | none => leBytes 2 0xFFFF ++ leBytes 126 0
  | some x =>
    leBytes 2 e.slot ++ leBytes 1 (1 + 2 * flag e.last) ++ leBytes 1 (d.get R.SVC_SLOT_lane e.slot) ++
    leBytes 4 (128 * ((e.valid + 127) / 128)) ++ leBytes 8 e.start ++
    leBytes 8 (match x.head.root with | some a => d.hallOf 0 a | none => 0) ++
    leBytes 8 (x.req.promptAddr + 4 * e.start) ++ leBytes 2 e.valid ++ leBytes 14 0 ++ seedRecord x.req 0 ++ leBytes 32 0

/-- The step record (Table 7.2). -/
def recordBytes (p step start : Nat) (first : Bool) (d : Dev) : List Byte :=
  let slow := match tget none d.ferry.slow (d.svcModel p) with
    | some st => st.inUse
    | none => 0
  let pre := d.svc.prefill.filter (fun e => decide (e.slot ≠ 0xFFFF))
  leBytes 4 0x53544550 ++ leBytes 2 1 ++ leBytes 1 p ++ leBytes 1 (slow + 2 * flag first) ++ leBytes 8 step ++
  leBytes 8 start ++ leBytes 2 (d.svc.decode.filter (fun e => decide (e.slot ≠ 0xFFFF))).length ++ leBytes 2 pre.length ++
  leBytes 4 ((pre.map (fun e => 128 * ((e.valid + 127) / 128))).foldl (· + ·) 0) ++ leBytes 224 0 ++
  d.svc.decode.flatMap (decBytes d) ++ d.svc.prefill.flatMap (preBytes d)

/-- The draft block (R244). -/
def blockBytes (d : Dev) : List Byte :=
  d.svc.decode.flatMap (fun e =>
    let ds := match d.slot e.slot with
      | some x => x.drafts.take e.drafts
      | none => []
    (List.range 7).flatMap (fun k => leBytes 4 (ds.getD k 0)) ++ leBytes 4 0)

/-- Write the record and the draft block to both dies, and release the record stream (R211). -/
def writeRecord (step : Nat) (d : Dev) : Dev :=
  let d := [0, 1].foldl (fun d die =>
    match d.hbmAt (d.get R.SVC_RECORD_BASE_base die) with
    | some (x, a) =>
      let a := a + 65536 * (step % 2)
      if d.areaAt x a 65536 = areaPlan then hbmWrite x (a + 0xA000) d.svc.block (hbmWrite x a d.svc.record d) else d
    | none => d) d
  modSvc (fun v => { v with published := true }) d

/-- Phase 8: `step` and `start` are the next step's number and first tide. -/
def phasePublish (p n step start : Nat) (first : Bool) (d : Dev) : Dev :=
  let m := d.svcModel p
  -- the next step uses the other slow-tier buffer (R202, R203)
  let d := match tget none d.ferry.slow m with
    | some st =>
      let st' := { st with inUse := (st.inUse + 1) % 2, ready := setBit st.ready st.inUse false }
      { d with ferry := { d.ferry with slow := tput none d.ferry.slow m (some st') } }
    | none => d
  let d := modSvc (fun v => { v with
      record := recordBytes p step start first d, block := blockBytes d, stepStart := start, first := first, reruns := 0 }) d
  let d := writeRecord step d
  let dec := (d.svc.decode.filter (fun e => decide (e.slot ≠ 0xFFFF))).length
  let pre := (d.svc.prefill.filter (fun e => decide (e.slot ≠ 0xFFFF))).length
  let d := logAdd 0x04 n (leBytes 8 start ++ leBytes 1 p ++ leBytes 8 (d.get R.FERRY_MODEL_model_id m) ++
    leBytes 4 (d.get R.FERRY_MODEL_generation m) ++ leBytes 2 dec ++ leBytes 2 pre) d
  flushOutput d

/-! ### Switching, losing a step, the boundary -/

/-- First tide whose mark lies at least `switch_lead` tides after a time (R235). -/
def Dev.switchTide (d : Dev) (tb : BitVec 64) : Nat :=
  let p := Nat.max 1 (d.get R.TIDE_PERIOD_period)
  let after := (tdiff tb (d.markOf 0)).toNat + Nat.max 1 (d.get R.SVC_CTL_switch_lead) * p
  (after + p - 1) / p

/-- Stop the running plan and admit another, to be launched at tide `l`. -/
def switchTo (p l : Nat) (d : Dev) : Dev :=
  let d := if d.get R.TIDE_STATUS_state = tsFaulted then d else stopTides d
  let d := ((d.set R.SVC_STATUS_plan 0 p).set R.SVC_STATUS_state 0 svSwitching).set R.DEV_ADMIT_STATUS_state 0 asLoading
  modSvc (fun v => { v with loading := some (d.get R.SVC_PLAN_image p), launch := l }) d

/-- The running serving plan. -/
def Dev.runningPlan (d : Dev) : Option Nat :=
  if d.get R.SVC_STATUS_state = svServing ∨ d.get R.SVC_STATUS_state = svQuiesced then some (d.get R.SVC_STATUS_plan) else none

/-- R191: last_use of every model in use. -/
def noteUse (tide : Nat) (d : Dev) : Dev :=
  (List.range 128).foldl (fun d m => if d.get R.FERRY_MODEL_users m ≠ 0 then d.set R.FERRY_MODEL_last_use m tide else d) d

/-- R237: the step is lost; it is rerun, or its plan is disabled. -/
def loseStep (d : Dev) : Dev :=
  let n := d.get R.SVC_STATUS_step
  let p := d.get R.SVC_STATUS_plan
  let d := (d.inc C.SVC_COUNTS_steps_lost).raise E.SVC_STEP_LOST
  let d := logAdd 0x07 n (leBytes 8 n ++ leBytes 1 d.svc.reruns) d
  let d := modSvc (fun v => { v with due := none, published := false }) d
  if d.svc.reruns < d.get R.SVC_CTL_retry then
    let d := modSvc (fun v => { v with reruns := v.reruns + 1, republish := true }) d
    switchTo p (d.switchTide d.now) d
  else
    let d := d.setRw R.SVC_PLAN_enable p 0
    let d := (d.occupied.filter (fun e => decide (e.2.req.plan = p))).foldl (fun d e =>
      endRequest e.1 osFault e.2.delivered n [] d) d
    let d := (d.occupied.map (·.1)).foldl (fun d s => finishSlot n s d) d
    let d := (if d.get R.TIDE_STATUS_state = tsFaulted then d else stopTides d).set R.SVC_STATUS_state 0 svIdle
    (flushOutput (modSvc (fun v => { v with decode := [], prefill := [], steps := 0, republish := false }) d)).raise
      E.SVC_PLAN_DISABLED none (some p)

/-- Phases 6 to 8, from phase 5's device: `running` has just ended a step, or none is running. -/
def phasesNext (tb : BitVec 64) (n step next : Nat) (running : Option Nat) (d : Dev) : Dev :=
  let choice := if d.is R.SVC_CTL_enable then d.choose running else none
  match choice with
  | none =>
    let d := if running.isSome then stopTides d else d
    let d := d.set R.SVC_STATUS_state 0 (if d.is R.SVC_CTL_enable then svIdle else svOff)
    flushOutput (modSvc (fun v => { v with decode := [], prefill := [], steps := 0, published := false }) d)
  | some p =>
    let same := decide (running = some p)
    let start := if same then next else d.switchTide tb
    let d := phasePrepare p (d.set R.SVC_STATUS_step 0 step)
    let d := phasePublish p n step start (!same) d
    if same then modSvc (fun v => { v with due := none }) d
    else switchTo p start (modSvc (fun v => { v with steps := 0, due := none }) d)

/-- The eight phases at the boundary after a step (Table 7.1). -/
def boundary (tb : BitVec 64) (d : Dev) : Dev :=
  let n := d.get R.SVC_STATUS_step
  let p := d.get R.SVC_STATUS_plan
  let k := d.get R.TIDE_NUMBER_tide
  let d := noteUse k (modSvc (fun v => { v with overwrote := false }) d)
  match collect n d with
  | none => loseStep (d.raise E.SVC_RESULT)
  | some (dec, pre) =>
    let last := d.svc.stepStart + Nat.max 1 (d.get R.SVC_PLAN_step_tides p)
    let d := modSvc (fun v => { v with due := none, published := false, steps := v.steps + 1 }) d
    let d := phaseCommit tb n (dec ++ pre.filter (fun r => decide (r.outcome = 2))) (takeChunks pre d)
    let d := noteUse k (phaseAdmit tb n (phaseJoin n (phaseFree n d)))
    noteLow (phasesNext tb n ((n + 1) % 2 ^ 48) last (some p) (d.set R.SVC_STATUS_step 0 (n + 1)))

/-- After a debug unlock every occupied slot ends with FAULT (R476). -/
def endUnlocked (d : Dev) : Dev :=
  if ¬ d.svc.endAll then d
  else
    let n := d.get R.SVC_STATUS_step
    let d := d.occupied.foldl (fun d e => finishSlot n e.1 (endRequest e.1 osFault e.2.delivered n [] d)) d
    modSvc (fun v => { v with endAll := false }) d

/-- The fields of SVC_CTL that a boundary goes by. -/
def svcCtlFields : List Fld :=
  [R.SVC_CTL_enable, R.SVC_CTL_admit_max, R.SVC_CTL_model_wait, R.SVC_CTL_retry, R.SVC_CTL_switch_lead]

/-- Their values. -/
def Dev.svcCtl (d : Dev) : List Nat := svcCtlFields.map (fun f => d.get f)

/-- Give the fields of SVC_CTL values. -/
def putCtl (vs : List Nat) (d : Dev) : Dev := (List.zip svcCtlFields vs).foldl (fun d e => d.set e.1 0 e.2) d

/-- A boundary goes by SVC_CTL as it stood when the boundary began; a write since then keeps its place in the register
(Table 7.11). -/
def underCtl (vs : List Nat) (f : Dev → Dev) (d : Dev) : Dev := putCtl d.svcCtl (f (putCtl vs d))

/-- A step boundary has been run: its time is the quiet point of Table 1.6. The Ferry that QUIESCE_N stopped resumes
(R452). -/
def noteBoundary (d : Dev) : Dev :=
  let d := modSvc (fun v => { v with boundaryAt := some d.now }) d
  if d.ferry.resumes then releaseFerry { d with ferry := { d.ferry with resumes := false } } else d

/-- STEP_BOUNDARY (R209, R212): the ending step's last tide has ended. -/
def execStepBoundary (t : BitVec 64) (d : Dev) : Dev :=
  let d := d.advance t
  match d.svc.due with
  | some tb =>
    if d.get R.SVC_STATUS_state = svServing ∨ d.get R.SVC_STATUS_state = svQuiesced then
      noteBoundary (underCtl d.svc.ctl (fun d => boundary tb (endUnlocked d)) d) else d
  | none => d

/-- The requests of a model that is FAILED end at a boundary that has no phase 2 as well (R236,
notes/assumptions/107.md). -/
def endFailed (n : Nat) (d : Dev) : Dev :=
  (d.occupied.filter (fun e => decide (d.modelState (d.svcModel e.2.req.plan) = msFailed))).foldl (fun d e =>
    finishSlot n e.1 (endRequest e.1 osModel e.2.delivered n [] d)) d

/-- A tide mark while IDLE (R234): a boundary of phases 5 and 6; a plan that is chosen is prepared and launched. -/
def idleBoundary (tb : BitVec 64) (d : Dev) : Dev :=
  if d.get R.SVC_STATUS_state = svIdle ∧ ¬ d.svc.quiesce ∧ d.get R.DEV_ADMIT_STATUS_state ≠ asLoading then
    let n := d.get R.SVC_STATUS_step
    let d := endFailed n (modSvc (fun v => { v with overwrote := false }) (endUnlocked d))
    let d := phaseAdmit tb n d
    noteBoundary (noteLow (phasesNext tb n n 0 none d))
  else d

/-- The last tide of the step in force has ended (R209): called at end(k). -/
def noteStepEnd (k : Nat) (t : BitVec 64) (d : Dev) : Dev :=
  let p := d.get R.SVC_STATUS_plan
  if (d.get R.SVC_STATUS_state = svServing ∨ d.get R.SVC_STATUS_state = svQuiesced) ∧ d.plan.serving ∧
      k + 1 = d.svc.stepStart + Nat.max 1 (d.get R.SVC_PLAN_step_tides p) then
    modSvc (fun v => { v with due := some t, published := false, ctl := d.svcCtl }) d
  else d

/-- The admission that the controller asked for has ended (R235): the plan is launched, or was refused. -/
def svcAdmitted (d : Dev) : Dev :=
  let d := modSvc (fun v => { v with loading := none }) d
  if d.admitted then
    -- a rerun covers the tides from its own launch on
    let d := if d.svc.republish then modSvc (fun v => { v with stepStart := v.launch }) d else d
    (acceptLaunch d.svc.launch d).1
  else d.set R.SVC_STATUS_state 0 svIdle

/-- The plan that was launched has started its first tide: the step is in force, and a rerun's record is published
again (R211). -/
def svcStarted (d : Dev) : Dev :=
  if d.get R.SVC_STATUS_state = svSwitching ∧ d.get R.TIDE_STATUS_state = tsRunning ∧ d.svc.loading = none then
    let d := d.set R.SVC_STATUS_state 0 svServing
    if d.svc.republish then
      modSvc (fun v => { v with republish := false, stepStart := d.get R.TIDE_NUMBER_tide })
        (writeRecord (d.get R.SVC_STATUS_step) d)
    else d
  else d

/-- STEP_LOST (R237): a plan fault has ended a serving step. -/
def execStepLost (t : BitVec 64) (d : Dev) : Dev :=
  let d := d.advance t
  let st := d.get R.SVC_STATUS_state
  if d.get R.TIDE_STATUS_state = tsFaulted ∧ d.svc.loading = none ∧ (st = svServing ∨ st = svSwitching ∨ st = svQuiesced) then
    loseStep (endUnlocked d)
  else d

/-! ### Other commands -/

/-- A write of a word of SVC_PLAN[p] (R207). -/
def execSvcPlanWrite (p word v : Nat) (d : Dev) : Dev :=
  if d.is R.SVC_PLAN_enable p then d.raise E.SVC_CONFIG none (some p)
  else match word with
    | 0 => d.set R.SVC_PLAN_image p v
    | 1 =>
      let d := (((d.set R.SVC_PLAN_model p (bits v 0 7)).set R.SVC_PLAN_quantum p (Nat.max 1 (bits v 8 8))).set
        R.SVC_PLAN_step_tides p (Nat.max 1 (bits v 16 16))).set R.SVC_PLAN_decode_width p (Nat.min 256 (bits v 32 9))
      (((d.set R.SVC_PLAN_prefill_width p (Nat.min 32 (bits v 41 6))).set R.SVC_PLAN_prefill_units p
        (Nat.min 32 (bits v 47 6))).set R.SVC_PLAN_layers p (Nat.max 1 (bits v 53 8))).store R.SVC_PLAN_enable p (bits v 63 1)
    | _ => ((d.set R.SVC_PLAN_page_ceiling p (Nat.max 1 (bits v 0 16))).set R.SVC_PLAN_tokens_per_page p
        (Nat.max 1 (bits v 16 16))).set R.SVC_PLAN_eos p (bits v 32 32)

/-- ADMIT_ACCEPT and ADMIT_REJECT (R220): a decision for a ring whose entry is pending. -/
def decideRing (i : Nat) (accept : Bool) (d : Dev) : Dev :=
  if bit (d.get R.SVC_ADMIT_PENDING_rings) i then modRing i (fun r => { r with decision := some accept }) d else d

def execAdmitAccept (i : Nat) (d : Dev) : Dev := decideRing i true d
def execAdmitReject (i : Nat) (d : Dev) : Dev := decideRing i false d

/-- ADMIT_HOST_WAIT_EXPIRY (R220). -/
def execAdmitHostWaitExpiry (i : Nat) (t : BitVec 64) (d : Dev) : Dev :=
  let d := d.advance t
  let r := d.svcRing i
  match r.askedAt with
  | some since =>
    if r.decision = none ∧ ¬ r.accepted ∧ ¬ r.timedOut ∧ tdiff t since > (d.get R.SVC_CTL_host_wait * msU : Nat) then
      (modRing i (fun r => { r with timedOut := true }) d).raise E.HOST_WAIT_EXPIRED_SVC none (some i)
    else d
  | none => d

/-- BUDGET_ADJUST (R261). -/
def execBudgetAdjust (c delta : Nat) (d : Dev) : Dev :=
  modSvc (fun v => { v with adjust := tput 0 v.adjust c (sat48 (tget 0 v.adjust c + sext 48 delta)) }) d

/-- REFILL_PERIOD_EXPIRY (R259). -/
def execRefillPeriodExpiry (t : BitVec 64) (d : Dev) : Dev :=
  countRefills t (d.advance t)

/-- SVC_OUT_ENABLE_WRITE (R412): the ctl word of SVC_OUT[i]; setting enable to 1 also sets the tail to the head. -/
def execSvcOutEnableWrite (i v : Nat) (d : Dev) : Dev :=
  let was := d.is R.SVC_OUT_enable i
  let d := ((d.set R.SVC_OUT_size i (bits v 0 4)).store R.SVC_OUT_enable i (bits v 4 1)).set R.SVC_OUT_vector i (bits v 5 6)
  if d.is R.SVC_OUT_enable i ∧ ¬ was then
    modRing i (fun r => { r with phase := true }) (d.set R.SVC_OUT_tail i (d.get R.SVC_OUT_head i))
  else d

/-- METER_FEED_STALL_EXPIRY (R267). -/
def execMeterFeedStallExpiry (t : BitVec 64) (d : Dev) : Dev :=
  let d := d.advance t
  if d.svc.feed.any (fun r => decide (tdiff t r.since > (secU : Nat))) ∧ ¬ d.is R.SVC_METER_FEED_stalled then
    (d.set R.SVC_METER_FEED_stalled 0 1).raise E.METER_FEED_STALL
  else d

end Sys2Proof.Machine
end

