-- ==== Sys2Proof/Machine/Meter.lean ====
section
/-! DEFINITION. The sealed meter (18): token counting over the feed, energy, the time base, signed records, the seal and
parameters, the test port, and the mirror. -/

namespace Sys2Proof.Machine

/-- A command of the meter alone. -/
def liftMeter (f : MeterSt → MeterSt) (s : State) : Answer :=
  .next { s with meter := f s.meter }

/-- A command of the meter and the rest of the device: the feed and the mirror. -/
def liftBoth (f : Dev × MeterSt → Dev × MeterSt) (s : State) : Answer :=
  .next { s with dev := (f (s.dev, s.meter)).1, meter := (f (s.dev, s.meter)).2 }

/-- What the meter does while it is powered (R480). -/
def whenPowered (f : MeterSt → MeterSt) (m : MeterSt) : MeterSt := if m.powered then f m else m

/-! ### Counts -/

/-- A class S count of `w` bits with its sat bit above them (R7, R483 to R485). -/
def stick (w x n : Nat) : Nat :=
  let top := 2 ^ w - 1
  if x % 2 ^ w + n < top then x % 2 ^ w + n + x / 2 ^ w * 2 ^ w else top + 2 ^ w

/-- Add to a customer's or tenant's totals. -/
def addTokens (key delivered expired : Nat) (ts : SMap TokenTotal) : SMap TokenTotal :=
  let x := tget {} ts key
  tput {} ts key { delivered := stick 63 x.delivered delivered, expired := stick 63 x.expired expired }

/-- Flags of Table 18.2, by bit. -/
def mfFeed : Nat := 0
def mfTimebase : Nat := 1
def mfMeterOnly : Nat := 2
def mfSealOpen : Nat := 3
def mfParam : Nat := 4
def mfOverrange : Nat := 5
def mfRestored : Nat := 6

def MeterSt.flagged (m : MeterSt) (i : Nat) : MeterSt := { m with flags := setBit m.flags i true }

/-! ### The token feed (R482 to R484) -/

/-- CRC-16 with polynomial 0x1021 and initial value 0xFFFF (R482). -/
def crc16Step (c : BitVec 16) (b : Byte) : BitVec 16 :=
  (List.range 8).foldl (fun (c : BitVec 16) i =>
    if c.getLsbD 15 != b.getLsbD (7 - i) then (c <<< 1) ^^^ 0x1021#16 else c <<< 1) c
def crc16 (bs : List Byte) : BitVec 16 := bs.foldl crc16Step 0xFFFF#16

/-- A feed frame (Table 18.1): bytes 3 to 21 as one number. -/
def feedFrame (seq : BitVec 16) (restart idle : Bool) (body : Nat) : List Byte :=
  let b := leBytes 2 seq.toNat ++ leBytes 1 (flag restart + 2 * flag idle) ++ leBytes 19 body
  b ++ leBytes 2 (crc16 b).toNat

/-- A field of a frame. -/
def frameNum (f : List Byte) (off n : Nat) : Nat := leNat ((f.drop off).take n)

/-- The frame is whole: its CRC is good. -/
def frameGood (f : List Byte) : Bool := decide (frameNum f 22 2 = (crc16 (f.take 22)).toNat)

/-- A feed interruption begins (R484). -/
def interrupt (alone : Bool) (m : MeterSt) : MeterSt :=
  let n := stick 31 (m.interruptions + flag m.interruptSat * 2 ^ 31) 1
  let m := { m with interruptions := n % 2 ^ 31, interruptSat := decide (n ≥ 2 ^ 31) }.flagged mfFeed
  if alone then m.flagged mfMeterOnly else m

/-- The meter's sample at a time: 16,000 in a second (R485). -/
def sampleOf (t : BitVec 64) : Nat := t.toNat / 1000000

/-- The totals as the sample began are kept: counts accepted in the sample at which an interval ends go to the next
(Table 18.6). -/
def keepTotals (t : BitVec 64) (m : MeterSt) : MeterSt :=
  if m.sample = some (sampleOf t) then m
  else { m with sample := some (sampleOf t), oldCustomers := m.customers, oldTenants := m.tenants }

/-- What the meter does with a frame it accepts (R482 to R484). -/
def acceptFrame (f : List Byte) (t : BitVec 64) (m : MeterSt) : MeterSt :=
  let m := if bit (frameNum f 2 1) 0 ∧ ¬ m.absent then interrupt false m else m
  let m := { m with lastSeq := some (frameNum f 0 2), acceptedAt := t, absent := false }
  if bit (frameNum f 2 1) 1 then { m with calendar := frameNum f 3 5 }
  else
    let m := keepTotals t m
    { m with
      customers := addTokens (frameNum f 3 2 % 4096) (frameNum f 6 6) (frameNum f 12 6) m.customers,
      tenants := addTokens (frameNum f 5 1) (frameNum f 6 6) (frameNum f 12 6) m.tenants }

/-- A frame reaches the meter (R482). Second part: it pulses the accept line. A restart frame is accepted even where its
seq equals the last accepted (notes/assumptions/41.md). -/
def takeFrame (f : List Byte) (t : BitVec 64) (m : MeterSt) : MeterSt × Bool :=
  if ¬ m.powered ∨ ¬ frameGood f then (m, false)
  else
    let seq := frameNum f 0 2
    let next : Bool := match m.lastSeq with
      | some s => decide (seq = (s + 1) % 65536)
      | none => false
    if next ∨ bit (frameNum f 2 1) 0 then (acceptFrame f t m, true)
    else (m, decide (m.lastSeq = some seq))

def modFeed (f : FeedTx → FeedTx) (d : Dev) : Dev := modSvc (fun v => { v with feedTx := f v.feedTx }) d

/-- The accepted frame's counts leave the queue: what was added to its record meanwhile stays. -/
def feedTaken (c : Nat × Nat × Nat) (t : BitVec 64) (d : Dev) : Dev :=
  let q := d.svc.feed.filterMap (fun r =>
    if r.customer ≠ c.1 then some r
    else if r.delivered = c.2.1 ∧ r.expired = c.2.2 then none
    else some { r with
      delivered := (r.delivered + 2 ^ 48 - c.2.1) % 2 ^ 48, expired := (r.expired + 2 ^ 48 - c.2.2) % 2 ^ 48, since := t })
  showFeed (modSvc (fun v => { v with feed := q }) d)

/-- The accept line pulses: the controller's frame is done. -/
def feedAccepted (t : BitVec 64) (d : Dev) : Dev :=
  let x := d.svc.feedTx
  let d := match x.carries with
    | some c => feedTaken c t d
    | none => d
  modFeed (fun x => { x with seq := x.seq + 1, started := true, frame := none, carries := none, onWire := false }) d

/-- The frame on the wire reaches the meter with some bits flipped; the accept pulse may be lost. -/
def deliverFrame (flips : BitVec 192) (ackLost : Bool) (t : BitVec 64) (s : Dev × MeterSt) : Dev × MeterSt :=
  match s.1.svc.feedTx.frame with
  | none => s
  | some f =>
    let d := modFeed (fun x => { x with onWire := false }) s.1
    let x := takeFrame (leBytes 24 (BitVec.ofNat 192 (leNat f) ^^^ flips).toNat) t s.2
    (if x.2 ∧ ¬ ackLost then feedAccepted t d else d, x.1)

/-- The controller sends a frame. -/
def sendFrame (idle : Bool) (carries : Option (Nat × Nat × Nat)) (body : Nat) (t : BitVec 64) (d : Dev) : Dev :=
  modFeed (fun x => { x with
    frame := some (feedFrame x.seq (!x.started) idle body), carries := carries, onWire := true, sentAt := t }) d

/-- The body of a count frame: customer, tenant, delivered, expired at their offsets from byte 3. -/
def countBody (r : FeedRec) : Nat :=
  r.customer + r.tenant * 2 ^ 16 + r.delivered % 2 ^ 48 * 2 ^ 24 + r.expired % 2 ^ 48 * 2 ^ 72

/-- FEED_COUNT_RECORD (R482, R483): the controller sends its oldest record, or has sent it, and the frame arrives. -/
def execFeedCountRecord (flips : BitVec 192) (ackLost : Bool) (t : BitVec 64) (s : Dev × MeterSt) : Dev × MeterSt :=
  let d := s.1.advance t
  let x := d.svc.feedTx
  if ¬ d.coreUp 1 then (d, s.2)
  else match x.frame, x.carries, d.svc.feed with
    | some _, some _, _ => if x.onWire then deliverFrame flips ackLost t (d, s.2) else (d, s.2)
    | none, _, r :: _ =>
      deliverFrame flips ackLost t (sendFrame false (some (r.customer, r.delivered, r.expired)) (countBody r) t d, s.2)
    | _, _, _ => (d, s.2)

/-- FEED_IDLE_FRAME (R482): the idle frame on the wire arrives. -/
def execFeedIdleFrame (flips : BitVec 192) (ackLost : Bool) (t : BitVec 64) (s : Dev × MeterSt) : Dev × MeterSt :=
  let d := s.1.advance t
  let x := d.svc.feedTx
  if d.coreUp 1 ∧ x.onWire ∧ x.carries = none then deliverFrame flips ackLost t (d, s.2) else (d, s.2)

/-- FEED_RESEND_TIMEOUT (R482): the frame not accepted within 10 µs is sent again. -/
def execFeedResendTimeout (t : BitVec 64) (d : Dev) : Dev :=
  let d := d.advance t
  let x := d.svc.feedTx
  if d.coreUp 1 ∧ x.frame.isSome ∧ ¬ x.onWire ∧ tdiff t x.sentAt ≥ (10 * usU : Nat) then
    modFeed (fun x => { x with onWire := true, sentAt := t }) d
  else d

/-- FEED_IDLE_TIMER (R482): with no record to send, an idle frame every 1 ms. -/
def execFeedIdleTimer (t : BitVec 64) (d : Dev) : Dev :=
  let d := d.advance t
  let x := d.svc.feedTx
  if d.coreUp 1 ∧ x.frame = none ∧ d.svc.feed = [] ∧ tdiff t x.idleAt ≥ (msU : Nat) then
    let secs := if d.is R.TIME_CALENDAR_synced then d.calSeconds else 0
    modFeed (fun x => { x with idleAt := t }) (sendFrame true none secs t d)
  else d

/-- FEED_INTERRUPTION (R484): no frame accepted for 10 ms. METER_ONLY tells that Estuary is unpowered. -/
def execFeedInterruption (t : BitVec 64) (s : Dev × MeterSt) : Dev × MeterSt :=
  let d := s.1.advance t
  let m := s.2
  if m.powered ∧ ¬ m.absent ∧ tdiff t m.acceptedAt ≥ (10 * msU : Nat) then
    (d, { interrupt (decide (d.get R.PWR_STATE_state = 3)) m with absent := true })
  else (d, m)

/-! ### Energy (R485 to R487) -/

/-- One channel's sample: shunt voltage in nV and rail voltage in µV. Energy in pJ, current above 120% of rated current
taken as 120%; second part, whether it was above. -/
def samplePj (p : MeterParams) (ch nv uv : Nat) : Nat × Bool :=
  let shunt := p.shunt.getD ch 1
  let limit := p.rated.getD ch 0 * shunt * 1200
  (uv * Nat.min nv limit / (16 * shunt), decide (nv > limit))

/-- One channel's sample enters its total. -/
def sampleChannel (nv uv ch : Nat) (m : MeterSt) : MeterSt :=
  if ¬ bit m.params.enable.toNat ch then m
  else
    let x := samplePj m.params ch nv uv
    let r := tget 0 m.residue ch + x.1
    let m := { m with
      energy := tput 0 m.energy ch (stick 63 (tget 0 m.energy ch) (r / 1000000000)),
      residue := tput 0 m.residue ch (r % 1000000000),
      pulseResidue := m.pulseResidue + x.1 }
    if x.2 then { m with overrange := m.overrange ||| (1#6 <<< ch) }.flagged mfOverrange else m

/-- METER_PULSE (R487). -/
def givePulses (m : MeterSt) : MeterSt :=
  let per := m.params.pulse * 1000000000
  if per = 0 then m else { m with pulses := m.pulses + m.pulseResidue / per, pulseResidue := m.pulseResidue % per }

/-- ENERGY_SAMPLE (R485). -/
def execEnergySample (shunts volts : List (BitVec 32)) (m : MeterSt) : MeterSt :=
  givePulses ((List.range 6).foldl (fun m ch => sampleChannel (shunts.getD ch 0).toNat (volts.getD ch 0).toNat ch m) m)

/-! ### The time base (R488) -/

/-- Meter seconds at a time (notes/assumptions/42.md). -/
def MeterSt.secondsNow (m : MeterSt) (t : BitVec 64) : Nat :=
  (m.seconds + (tdiff t m.secondsAt).toNat / secU) % 2 ^ 64

/-- METER_TIMEBASE_FAIL. -/
def execMeterTimebaseFail (m : MeterSt) : MeterSt := { m with degraded := true }.flagged mfTimebase

/-- METER_TIMEBASE_RESTORE. -/
def execMeterTimebaseRestore (m : MeterSt) : MeterSt := { m with degraded := false }

/-! ### Records (R489 to R491) -/

/-- The 64 bytes of a parameter set (Table 18.3). -/
def paramBytes (p : MeterParams) : List Byte :=
  leBytes 2 p.period ++ leBytes 1 p.enable.toNat ++ leBytes 1 0 ++ leBytes 4 p.pulse ++
  (List.range 6).flatMap (fun i => leBytes 4 (p.shunt.getD i 0)) ++
  (List.range 6).flatMap (fun i => leBytes 2 (p.rated.getD i 0)) ++
  (List.range 6).flatMap (fun i => leBytes 1 (p.rail.getD i 0)) ++ leBytes 14 0

/-- Totals of keys 0 to n - 1, delivered then expired, 8 bytes each. -/
def totalsBytes (n : Nat) (ts : SMap TokenTotal) : List Byte :=
  (List.range n).flatMap (fun i => leBytes 8 (tget {} ts i).delivered ++ leBytes 8 (tget {} ts i).expired)

/-- The live totals at a time as a snapshot: what the sample in progress has added goes to the next interval. -/
def takeSnap (stop : Nat) (t : BitVec 64) (m : MeterSt) : MeterSnap :=
  let fresh := decide (m.sample = some (sampleOf t))
  { flags := m.flags, start := m.start, stop := stop, calendar := m.calendar,
    paramEvents := m.paramEvents + flag m.paramSat * 2 ^ 31,
    interruptions := m.interruptions + flag m.interruptSat * 2 ^ 31, params := m.params,
    energy := (List.range 6).map (fun i => tget 0 m.energy i), customers := if fresh then m.oldCustomers else m.customers,
    tenants := if fresh then m.oldTenants else m.tenants }

/-- A new interval begins: an accepted parameter set takes effect (R493). `alone`: the feed is absent because Estuary is
unpowered. -/
def beginInterval (start : Nat) (alone : Bool) (m : MeterSt) : MeterSt :=
  let flags := flag m.degraded * 2 ^ mfTimebase + flag alone * 2 ^ mfMeterOnly + flag m.sealOpen * 2 ^ mfSealOpen + flag m.next.isSome * 2 ^ mfParam
  { m with start := start, flags := flags, overrange := 0, params := m.next.getD m.params, next := none }

/-- RECORD_INTERVAL_END (R489): the totals are copied and counting goes on. -/
def execRecordIntervalEnd (t : BitVec 64) (s : Dev × MeterSt) : Dev × MeterSt :=
  let m := s.2
  let now := m.secondsNow t
  if m.powered ∧ now ≥ m.start + m.params.period then
    let alone := m.absent && decide (s.1.get R.PWR_STATE_state = 3)
    let m := if alone then m.flagged mfMeterOnly else m
    (s.1, beginInterval now alone { m with signing := m.signing ++ [takeSnap now t m] })
  else s

/-- Bytes 0x0000 to 0x10FF of a record (Table 18.2). -/
def recordBody (m : MeterSt) (number : Nat) (previous : List Byte) (x : MeterSnap) : List Byte :=
  leBytes 4 0x4D545231 ++ leBytes 2 1 ++ leBytes 2 x.flags ++ leBytes 8 number ++ leBytes 16 m.serial ++
  leBytes 8 x.start ++ leBytes 8 x.stop ++ leBytes 8 x.calendar ++ leBytes 4 x.paramEvents ++ leBytes 4 x.interruptions ++
  shake256 (paramBytes x.params) 32 ++ x.energy.flatMap (fun e => leBytes 8 e) ++ leBytes 16 0 ++
  shake256 (totalsBytes 4096 x.customers) 32 ++ previous ++ leBytes 32 0 ++ totalsBytes 256 x.tenants

/-- The last record's number, and the digest that the next record carries of it. -/
def MeterSt.last (m : MeterSt) : Nat × List Byte :=
  match m.store.getLast? with
  | some r => (r.number, shake256 r.bytes 32)
  | none => (0, leBytes 32 0)

/-- Sign an interval's record and keep it with its customer table; the store holds the last 1,024 (R490, R491). -/
def signRecord (x : MeterSnap) (m : MeterSt) : MeterSt :=
  let number := m.last.1 + 1
  let body := recordBody m number m.last.2 x
  let r : MeterRecord :=
    { number := number, bytes := body ++ Config.sign 2 (leBytes 16 m.serial) body, customers := x.customers }
  let store := m.store ++ [r]
  { m with store := store.drop (store.length - 1024) }

/-! ### The mirror (R495) -/

/-- Bytes into consecutive 64-bit registers. -/
def showBytes (f : Fld) (words : Nat) (bs : List Byte) (d : Dev) : Dev :=
  (List.range words).foldl (fun d i => d.set f i (leNat ((bs.drop (8 * i)).take 8))) d

/-- The meter certificate, preceded by its length (Table 18.8). -/
def MeterSt.cert (m : MeterSt) : List Byte :=
  let c := Config.certificate 2 (leBytes 16 m.serial)
  leBytes 4 c.length ++ c

/-- What a refresh raises (Table 18.7). -/
def mirrorEvents (d : Dev) (m : MeterSt) : List Ev :=
  (if m.sealOpen ∧ ¬ d.is R.METER_STATUS_seal_open then [E.METER_SEAL_OPEN] else []) ++
  (if m.degraded ∧ ¬ d.is R.METER_STATUS_timebase_degraded then [E.METER_TIMEBASE] else []) ++
  (if (List.range 6).any (fun i => bit m.overrange.toNat i && !bit (d.get R.METER_STATUS_overrange) i) then
    [E.METER_OVERRANGE] else []) ++
  (if m.interruptions > d.get R.METER_COUNTS_feed_interruptions then [E.METER_FEED_INTERRUPTED] else []) ++
  (if m.paramEvents > d.get R.METER_COUNTS_param_events then [E.METER_PARAM] else []) ++
  (if m.last.1 > d.get R.METER_RECORD_NUMBER_number then [E.METER_RECORD] else [])

/-- Words of a record and of a customer table that newly show a sat bit. -/
def newlyFull (f : Fld) (first n : Nat) (bs : List Byte) (d : Dev) : Nat :=
  ((List.range n).filter (fun i =>
    let k := first + i
    bit (leNat ((bs.drop (8 * k)).take 8)) 63 && !bit (d.get f k) 63)).length

/-- How many counts of the meter a refresh first shows at their maximum (R7, notes/assumptions/104.md). -/
def mirrorFull (d : Dev) (m : MeterSt) : Nat :=
  let small := flag (m.paramSat && !d.is R.METER_COUNTS_param_events_sat) +
    flag (m.interruptSat && !d.is R.METER_COUNTS_feed_interruptions_sat) +
    ((List.range 6).filter (fun i => bit (tget 0 m.energy i) 63 && !d.is R.METER_ENERGY_sat i)).length
  match m.store.getLast? with
  | none => small
  | some r =>
    if d.get R.METER_RECORD_NUMBER_number = r.number then small
    else small + newlyFull R.METER_SNAPSHOT_table 0 8192 (totalsBytes 4096 r.customers) d +
      newlyFull R.METER_RECORD_record 32 512 r.bytes d

/-- The mirror's small registers. -/
def showMirror (t : BitVec 64) (m : MeterSt) (d : Dev) : Dev :=
  let d := ((((d.setB R.METER_STATUS_seal_open 0 m.sealOpen).setB R.METER_STATUS_timebase_degraded 0 m.degraded).setB
    R.METER_STATUS_feed_absent 0 m.absent).set R.METER_STATUS_stale 0 0).set R.METER_STATUS_overrange 0 m.overrange.toNat
  let d := (((d.set R.METER_COUNTS_param_events 0 m.paramEvents).setB R.METER_COUNTS_param_events_sat 0 m.paramSat).set
    R.METER_COUNTS_feed_interruptions 0 m.interruptions).setB R.METER_COUNTS_feed_interruptions_sat 0 m.interruptSat
  let d := d.set R.METER_SECONDS_seconds 0 (m.secondsNow t)
  let d := (List.range 6).foldl (fun d i =>
    (d.set R.METER_ENERGY_energy i (tget 0 m.energy i)).set R.METER_ENERGY_sat i (tget 0 m.energy i / 2 ^ 63)) d
  showBytes R.METER_PARAM_param 8 (paramBytes m.params) d

/-- The mirror's copy of the latest record and its customer table. -/
def mirrorRecord (m : MeterSt) (d : Dev) : Dev :=
  match m.store.getLast? with
  | none => d
  | some r =>
    if d.get R.METER_RECORD_NUMBER_number = r.number then d
    else
      showBytes R.METER_SNAPSHOT_table 8192 (totalsBytes 4096 r.customers)
        (showBytes R.METER_RECORD_record 4268 r.bytes (d.set R.METER_RECORD_NUMBER_number 0 r.number))

/-- A refresh over the mirror path, while meter and mirror are powered. -/
def refreshMirror (t : BitVec 64) (m : MeterSt) (d : Dev) : Dev :=
  if ¬ m.powered ∨ ¬ d.coreUp 1 then d
  else
    let es := mirrorEvents d m ++ List.replicate (mirrorFull d m) E.COUNTER_SATURATED
    let d := showBytes R.METER_CERT_cert 8192 m.cert (mirrorRecord m (showMirror t m d))
    { d with mirrorAt := t }.raiseAll (es.map (fun e => (e, none, none)))

/-- MIRROR_REFRESH: every 1 s. -/
def execMirrorRefresh (t : BitVec 64) (s : Dev × MeterSt) : Dev × MeterSt :=
  let d := s.1.advance t
  if s.2.powered ∧ lapsed s.2.refreshAt secU t then (refreshMirror t s.2 d, { s.2 with refreshAt := some t }) else (d, s.2)

/-- MIRROR_STALE_TIMEOUT: no refresh for 3 s. -/
def execMirrorStaleTimeout (t : BitVec 64) (d : Dev) : Dev :=
  let d := d.advance t
  if d.coreUp 1 ∧ ¬ d.is R.METER_STATUS_stale ∧ tdiff t d.mirrorAt ≥ (3 * secU : Nat) then
    (d.set R.METER_STATUS_stale 0 1).raise E.METER_STALE
  else d

/-- RECORD_SIGNED (R489): the oldest ended interval's record, which also goes over the mirror path. -/
def execRecordSigned (t : BitVec 64) (s : Dev × MeterSt) : Dev × MeterSt :=
  let d := s.1.advance t
  match s.2.signing with
  | x :: rest =>
    if s.2.powered then
      let m := signRecord x { s.2 with signing := rest }
      (refreshMirror t m d, m)
    else (d, s.2)
  | [] => (d, s.2)

/-! ### The meter's supply (R491) -/

/-- METER_SUPPLY_WARNING: the totals and the time are committed; the meter stops until its supply returns. -/
def execMeterSupplyWarning (t : BitVec 64) (m : MeterSt) : MeterSt :=
  if m.powered then { m with powered := false, seconds := m.secondsNow t, secondsAt := t } else m

/-- METER_POWER_RESTORE: the records not yet signed, then that of the interrupted interval, which ends at the committed
time; then a new interval (notes/assumptions/42.md). -/
def execMeterPowerRestore (t : BitVec 64) (s : Dev × MeterSt) : Dev × MeterSt :=
  let d := s.1.advance t
  if s.2.powered then (d, s.2)
  else
    let m := s.2
    let cut := takeSnap m.seconds m.secondsAt ({ m with sample := none }.flagged mfRestored)
    let m := (m.signing ++ [cut]).foldl (fun m x => signRecord x m)
      { m with powered := true, secondsAt := t, signing := [], acceptedAt := t }
    let m := beginInterval m.seconds (m.absent && decide (d.get R.PWR_STATE_state = 3)) m
    (refreshMirror t m d, m)

/-! ### The seal, parameters and the test port (R492, R493) -/

/-- SEAL_OPEN. -/
def execSealOpen (m : MeterSt) : MeterSt := { m with sealOpen := true }.flagged mfSealOpen

/-- SEAL_CLOSE. -/
def execSealClose (m : MeterSt) : MeterSt := { m with sealOpen := false }

/-- Bytes sent on METER_TX. -/
def sendPort (bs : List Byte) (m : MeterSt) : MeterSt := { m with port := m.port ++ [bs] }

/-- READ_RECORD: nothing for a number that the store does not hold. -/
def execReadRecord (n : Nat) (m : MeterSt) : MeterSt :=
  match m.store.find? (fun r => r.number = n) with
  | some r => sendPort r.bytes m
  | none => sendPort [] m

/-- READ_CUSTOMER_SNAPSHOT. -/
def execReadCustomerSnapshot (n : Nat) (m : MeterSt) : MeterSt :=
  match m.store.find? (fun r => r.number = n) with
  | some r => sendPort (totalsBytes 4096 r.customers) m
  | none => sendPort [] m

/-- READ_LIVE_TOTALS: status, counts and seconds as the mirror's registers pack them, then the totals
(notes/assumptions/43.md). -/
def execReadLiveTotals (t : BitVec 64) (m : MeterSt) : MeterSt :=
  let status := flag m.sealOpen + 2 * flag m.degraded + 4 * flag m.absent + 16 * m.overrange.toNat
  let counts := m.paramEvents + flag m.paramSat * 2 ^ 31 + (m.interruptions + flag m.interruptSat * 2 ^ 31) * 2 ^ 32
  sendPort (leBytes 8 status ++ leBytes 8 counts ++ leBytes 8 m.last.1 ++ leBytes 8 (m.secondsNow t) ++
    (List.range 6).flatMap (fun i => leBytes 8 (tget 0 m.energy i)) ++ totalsBytes 256 m.tenants ++
    totalsBytes 4096 m.customers) m

/-- READ_CERTIFICATE: the certificate with its length, and the parameter set in force. -/
def execReadCertificate (m : MeterSt) : MeterSt := sendPort (m.cert ++ paramBytes m.params) m

/-- A parameter set within Tables 18.3 and 21.9; none where a field is outside them. -/
def readParams (b : List Byte) : Option MeterParams :=
  let num := fun (off n : Nat) => leNat ((b.drop off).take n)
  let p : MeterParams :=
    { period := num 0 2,
      enable := BitVec.ofNat 6 (num 2 1),
      pulse := num 4 4,
      shunt := (List.range 6).map (fun i => num (8 + 4 * i) 4),
      rated := (List.range 6).map (fun i => num (32 + 2 * i) 2),
      rail := (List.range 6).map (fun i => num (44 + i) 1) }
  if b.length = 64 ∧ 10 ≤ p.period ∧ p.period ≤ 3600 ∧ num 2 1 < 64 ∧ num 3 1 = 0 ∧ 100 ≤ p.pulse ∧ p.pulse ≤ 1000000 ∧
      p.shunt.all (fun x => decide (10 ≤ x ∧ x ≤ 100000)) ∧ p.rated.all (fun x => decide (1 ≤ x ∧ x ≤ 2000)) ∧
      p.rail.all (fun x => decide (x ≤ 7)) ∧ num 50 14 = 0 then some p
  else none

/-- WRITE_PARAMETER_SET (R493): counted while the seal is open, whether accepted or refused. The answer is one byte, 0
accepted and 1 refused. -/
def execWriteParameterSet (b : List Byte) (m : MeterSt) : MeterSt :=
  if ¬ m.sealOpen then sendPort [1] m
  else
    let full := decide (m.paramEvents = 2 ^ 31 - 1)
    let n := stick 31 (m.paramEvents + flag m.paramSat * 2 ^ 31) 1
    let m := { m with paramEvents := n % 2 ^ 31, paramSat := decide (n ≥ 2 ^ 31) }
    match readParams b with
    | some p => if m.banks ≥ 32 ∨ full then sendPort [1] m
      else sendPort [0] { m with next := some p, banks := m.banks + 1 }
    | none => sendPort [1] m

/-- SET_METER_SECONDS (R488, R492): while the seal is open. -/
def execSetMeterSeconds (v : Nat) (t : BitVec 64) (m : MeterSt) : MeterSt :=
  if m.sealOpen then sendPort [0] { m with seconds := v, secondsAt := t } else sendPort [1] m

end Sys2Proof.Machine
end

