-- ==== Sys2Proof/Machine/Life.lean ====
section
/-! DEFINITION. Router CRC errors, event delivery commands and the life log (19). -/

namespace Sys2Proof.Machine

/-! ### Block routers (R497) -/

/-- ROUTER_CRC_FAIL (R497): the first transmission of a transfer (attempt 0) or a resend of it fails its CRC. -/
def execRouterCrcFail (r : Nat) (drift : Bool) (attempt : Nat) (t : BitVec 64) (d : Dev) : Dev :=
  let d := d.advance t
  if drift then (if attempt ≥ 3 then d.inc C.EVT_ROUTER_failures r else d)
  else if attempt ≥ 3 then d.raise E.ROUTER_UE (some r)
  else
    let d := d.inc C.EVT_ROUTER_resends r
    let d := if (d.reg r).once.contains (E.ROUTER_CRC.code, 0) then d
      else (d.modReg r (fun u => { u with once := u.once ++ [(E.ROUTER_CRC.code, 0)] })).raise E.ROUTER_CRC (some r)
    let u := d.reg r
    match u.slip with
    | some s => d.modReg r (fun u => { u with slip := some { s with left := s.left + 1 } })
    | none =>
      if u.phase = .run then
        enterSlip r d.now (d.modReg r (fun u => { u with
          slip := some { left := 1, recorded := false, pc := d.get R.SEQ_STATUS_pc r, tick := u.tideTick, cells := [] } }))
      else d

/-! ### Events (R503, R505, R506) -/

/-- COALESCE_EXPIRY (R505): the interval of a vector ends; a severe vector held back is sent. -/
def execCoalesceExpiry (v : Nat) (t : BitVec 64) (d : Dev) : Dev :=
  let d := d.advance t
  let st := tget {} d.evt.vecs v
  let passed : Bool := match st.lastSent with
    | none => true
    | some t0 => decide (tdiff t t0 ≥ (d.get R.EVT_CTL_coalesce * usU : Nat))
  if st.held ∧ passed then
    ({ d with evt := { d.evt with vecs := tput {} d.evt.vecs v { lastSent := some t, held := false } } }).sendVector v
  else d

/-- EVT_RING_BASE_WRITE (R503). -/
def execEvtRingBaseWrite (v : Nat) (d : Dev) : Dev := if v % 131072 = 0 then d.set R.EVT_RING_BASE_base 0 v else d

/-- EVT_STATUS_CLEAR (R506); a bit that the device set in this PX cycle stays set (R4). -/
def execEvtStatusClear (v : Nat) (d : Dev) : Dev :=
  let clear := fun (f : Fld) (d : Dev) => if bit v f.lo ∧ d.madeNow f 0 = 0 then d.set f 0 0 else d
  (clear R.EVT_STATUS_boot_alert (clear R.EVT_STATUS_fault_seen (clear R.EVT_STATUS_fatal_seen
    (clear R.EVT_STATUS_nmi_seen d)))).updateAlert

/-! ### The life log (R511 to R515) -/

def Dev.modLife (d : Dev) (f : LifeSt → LifeSt) : Dev := { d with life := f d.life }

/-- Bin of a temperature in 1/16 degree (R513). -/
def tempBin (x : Int) : Nat :=
  if x < 640 then 0 else if x ≥ 1760 then 15 else Nat.min 14 ((x.toNat - 560) / 80)

/-- Bytes 16 to 1,211 of a SUMMARY entry (R513, Table 19.8). -/
def Dev.summaryBody (d : Dev) : List Byte :=
  let tot := fun k => leBytes 4 (tget 0 d.life.totals k)
  leBytes 4 (d.get R.LIFE_TOTALS_power_on_hours) ++ leBytes 8 (d.get R.LIFE_TIDES_tides) ++
  leBytes 4 (d.get R.LIFE_TOTALS_thermal_cycles) ++ tot totLanes ++ tot totRetrains ++ tot totDips ++ tot totResets ++
  tot totQuiesces ++ tot totFatals ++ leBytes 72 0 ++
  (List.range 256).flatMap (fun k => leBytes 4 (tget 0 d.life.histogram k)) ++ leBytes 60 0

/-- Length of an entry by type (Table 19.7). -/
def entryLength (kind : Nat) : Nat := if kind = 0x01 then 1216 else 64

/-- The bytes of an entry as it is written (R512). -/
def Dev.entryBytes (d : Dev) (e : LifeEntry) (seq : Nat) : List Byte :=
  let n := entryLength e.kind
  let head := leBytes 2 0x4C47 ++ leBytes 1 e.kind ++ leBytes 1 (flag (d.is R.TIME_CALENDAR_synced)) ++ leBytes 2 n ++
    leBytes 4 seq ++ leBytes 5 (d.calSeconds) ++ leBytes 1 0
  let text := (head ++ e.body ++ leBytes n 0).take (n - 4)
  text ++ leBytes 4 (crc32c text).toNat

/-- Bytes of a sector and sectors of the ring (R511). -/
def sectorSize : Nat := 262144
def sectorCount : Nat := 768

/-- The ring's next sector, to be erased before its first entry. -/
def nextSector (x : LifeSt) : LifeSt := { x with sector := (x.sector + 1) % sectorCount, pos := 0, erased := false }

/-- Before an entry of `n` bytes: one that would span two sectors goes to the next. -/
def fitSector (n : Nat) (x : LifeSt) : LifeSt := if x.pos + n > sectorSize then nextSector x else x

/-- LIFE_STATUS.busy. -/
def showBusy (d : Dev) : Dev := d.setB R.LIFE_STATUS_busy 0 (d.life.writing ≠ [])

/-- LIFE_WRITE_DONE (R511): the erase of the sector, or the write of the oldest entry, completes or fails. -/
def execLifeWriteDone (ok : Bool) (t : BitVec 64) (d : Dev) : Dev :=
  let d := d.advance t
  match d.life.writing with
  | [] => d
  | e :: rest =>
    let d := d.modLife (fitSector (entryLength e.kind))
    if ok then
      if ¬ d.life.erased then
        d.modLife (fun x => { x with erased := true, log := x.log.filter (fun y => !decide (y.1 = x.sector)) })
      else
        let seq := (d.get R.LIFE_STATUS_seq + 1) % 2 ^ 32
        let bytes := d.entryBytes e seq
        let d := d.modLife (fun x => { x with
          log := x.log ++ [(x.sector, x.pos, bytes)], pos := x.pos + bytes.length, retried := false, writing := rest })
        showBusy (d.set R.LIFE_STATUS_seq 0 seq)
    else if d.life.retried then
      let d := d.modLife (fun x => { x with writing := rest, retried := false })
      (showBusy (d.setWc R.LIFE_STATUS_write_failed 0 1)).raise E.LIFE_WRITE_FAIL
    else d.modLife (fun x => { nextSector x with retried := true })

/-- LIFE_FLUSH (R515): a write of LIFE_CTL. -/
def execLifeFlush (v : Nat) (d : Dev) : Dev :=
  let d := d.setB R.LIFE_CTL_enable 0 (bit v 0)
  if bit v 1 then d.lifeFlush else d

/-- LIFE_SUMMARY (R513): a whole power-on hour. -/
def execLifeSummary (t : BitVec 64) (d : Dev) : Dev :=
  let d := d.advance t
  if ¬ lapsed d.life.hourAt (3600 * secU) t then d
  else
  let d := (d.modLife (fun x => { x with hourAt := some t })).inc C.LIFE_TOTALS_power_on_hours
  (d.lifeAdd ⟨0x01, d.summaryBody⟩).lifeFlush

/-- R514: thermal cycles of the hottest temperature. -/
def noteCycle (hot : Int) (d : Dev) : Dev :=
  let keep := fun (low : Bool) (x : Int) (d : Dev) => d.modLife (fun l => { l with followLow := low, extreme := some x })
  match d.life.extreme with
  | none => keep true hot d
  | some x =>
    if d.life.followLow then
      if hot > x + 640 then keep false hot (d.inc C.LIFE_TOTALS_thermal_cycles)
      else if hot < x then keep true hot d else d
    else if hot + 640 < x then keep true hot d
    else if hot > x then keep false hot d else d

/-- LIFE_MINUTE (R513, R514): the regions' temperatures. -/
def execLifeMinute (temps : List (BitVec 16)) (t : BitVec 64) (d : Dev) : Dev :=
  let d := d.advance t
  if ¬ lapsed d.life.minuteAt (60 * secU) t then d
  else
  let d := d.modLife (fun x => { x with minuteAt := some t })
  let on := (List.range 16).filter (fun r => d.coreUp (dieOf r) && (temps[r]?).isSome)
  let d := on.foldl (fun d r =>
    let x := temps.getD r 0
    let k := 16 * r + tempBin x.toInt
    let n := stickCount 32 (tget 0 d.life.histogram k) 1
    let d := (d.set R.CLK_REGION_STATUS_temp r x.toNat).modLife (fun l => { l with histogram := tput 0 l.histogram k n.1 })
    if n.2 then d.raise E.COUNTER_SATURATED else d) d
  match on.map (fun r => (temps.getD r 0).toInt) with
  | [] => d
  | x :: xs => noteCycle (xs.foldl (fun a b => if b > a then b else a) x) d

/-- The sat bits of the restored totals that registers show: a count at its maximum keeps its bit (R8). -/
def restoreSat (d : Dev) : Dev :=
  [C.LIFE_TOTALS_power_on_hours, C.LIFE_TOTALS_thermal_cycles, C.LIFE_TIDES_tides].foldl (fun d c =>
    if d.get c.cnt = 2 ^ c.cnt.width - 1 then d.set c.sat 0 (setBit (d.get c.sat) c.satBit true) else d) d

/-- What the Lighthouse finds in the log when it comes up (R511): the sequence number of the newest entry, and the
totals of the newest summary. -/
def restoreLife (old : LifeSt) (d : Dev) : Dev :=
  let log := old.log
  let n := fun (b : List Byte) (off len : Nat) => leNat ((b.drop off).take len)
  let d := d.modLife (fun _ => { log := log, sector := old.sector, pos := old.pos, erased := old.erased })
  let d := match log.getLast? with
    | some e => d.set R.LIFE_STATUS_seq 0 (n e.2.2 6 4)
    | none => d
  match (log.filter (fun e => decide (n e.2.2 2 1 = 0x01))).getLast? with
  | none => d
  | some e =>
    let b := e.2.2
    let d := ((d.set R.LIFE_TOTALS_power_on_hours 0 (n b 16 4)).set R.LIFE_TIDES_tides 0 (n b 20 8)).set
      R.LIFE_TOTALS_thermal_cycles 0 (n b 28 4)
    (restoreSat d).modLife (fun l => { l with
      totals := (List.range 6).foldl (fun m k => tput 0 m k (n b (32 + 4 * k) 4)) [],
      histogram := (List.range 256).foldl (fun m k => tput 0 m k (n b (128 + 4 * k) 4)) [] })

end Sys2Proof.Machine
end

