-- ==== Sys2Proof/Machine/Arbiters.lean ====
section
/-! DEFINITION. The service arbiters (11): grants in WATCH and STEER order, the row accesses that a bank arbiter grants to
drift (05, R158 to R163), the starvation flag, withdrawals and masks.
Instances are numbered as their registers lie: banks 32 * region + cell, then 512 + 4 * region + block, 576 + region,
592 + stack. -/

namespace Sys2Proof.Machine

/-- Die of an arbiter instance. -/
def arbDie (i : Nat) : Nat :=
  if i < 512 then dieOf (i / 32) else if i < 576 then dieOf ((i - 512) / 4) else if i < 592 then dieOf (i - 576)
  else dieOfStack (i - 592)

/-- Requesters of an instance (Table 11.6). -/
def arbRequesters (i : Nat) : List Nat :=
  if i < 512 then List.range 4
  else if i < 576 then (if (i - 512) / 4 < 8 then List.range 9 else [0, 1, 2, 3, 8])
  else if i < 592 then List.range 5
  else List.range 6

/-- The instance exists: a bank arbiter's cell is present (R339). -/
def Dev.arbPresent (d : Dev) (i : Nat) : Bool := if i < 512 then d.cellPresent (i / 32) (i % 32) else true

/-- Requesters in round-robin order, starting after the one last granted. -/
def Dev.arbOrder (d : Dev) (i : Nat) : List Nat :=
  let start := tget 0 d.fabric.lastGrant i
  (arbRequesters i).filter (fun q => decide (q ≥ start)) ++ (arbRequesters i).filter (fun q => decide (q < start))

/-- Priority of a requester (ARB_PRIO). -/
def Dev.arbPrio (d : Dev) (i q : Nat) : Nat := bits (d.get R.ARB_PRIO_prio i) (4 * q) 4

/-- The requester that a free position goes to (R339 to R341). -/
def Dev.arbWinner (d : Dev) (i requesting : Nat) : Option Nat :=
  let asking := (d.arbOrder i).filter (fun q => bit requesting q && !bit (d.get R.ARB_STATUS_masked i) q)
  if i < 512 ∧ asking.contains 0 then some 0
  else if d.get R.ARB_MODE_mode i = 0 then asking.head?
  else asking.foldl (fun b q => match b with
    | none => some q
    | some x => if d.arbPrio i q > d.arbPrio i x then some q else some x) none

/-- A requester's continuous wait so far, in cycles. -/
def Dev.arbWait (d : Dev) (i q : Nat) : Nat := tget 0 d.fabric.waiting (16 * i + q)
def Dev.setWait (d : Dev) (i q n : Nat) : Dev :=
  { d with fabric := { d.fabric with waiting := tput 0 d.fabric.waiting (16 * i + q) n } }

/-- One cycle of waiting: the wait grows; in WATCH mode a request's first cycle counts in `waits`, and `longest`
follows (R340). -/
def waitCycle (i q : Nat) (d : Dev) : Dev :=
  let n := d.arbWait i q + 1
  let d := d.setWait i q n
  if d.get R.ARB_MODE_mode i = 1 then d
  else
    let d := if n = 1 then d.inc C.ARB_WATCH_waits (i * 16 + q) else d
    let old := d.get R.ARB_WATCH_longest (i * 16 + q)
    if n > old then d.inc C.ARB_WATCH_longest (i * 16 + q) (n - old) else d

/-- Advance the round-robin position past a requester. -/
def arbAdvance (i q : Nat) (d : Dev) : Dev :=
  { d with fabric := { d.fabric with lastGrant := tput 0 d.fabric.lastGrant i (q + 1) } }

/-! ### Drift accesses to a scratchpad (R158 to R163) -/

/-- A BOUNCE with a status: the answer of a target that gives no data and takes none. -/
def bounce (p : Packet) (st : Nat) (d : Dev) : Dev := respond p opBounce st [] d

/-- The drift access that waits first at a cell's bank arbiter. -/
def Dev.bankHead (d : Dev) (r c : Nat) : Option BankReq :=
  d.fabric.bank.find? (fun q => decide (q.region = r ∧ q.cell = c))

/-- Drift asks at a cell's bank arbiter. -/
def showBank (r c : Nat) (d : Dev) : Dev :=
  let i := r * 32 + c
  d.set R.ARB_STATUS_pending i (setBit (d.get R.ARB_STATUS_pending i) 1 (d.bankHead r c).isSome)

/-- A drift access joins those that wait for a bank of its cell. -/
def bankEnqueue (q : BankReq) (d : Dev) : Dev :=
  showBank q.region q.cell { d with fabric := { d.fabric with bank := d.fabric.bank ++ [q] } }

/-- A waiting access is replaced by what is left of it; none: it is over. -/
def bankReplace (q : BankReq) (new : Option BankReq) (d : Dev) : Dev :=
  showBank q.region q.cell { d with fabric := { d.fabric with
      bank := d.fabric.bank.flatMap (fun x => if x = q then new.toList else [x]) } }

/-- The first waiting drift access of a cell can have the next bank period (R152, R158). -/
def Dev.bankReady (d : Dev) (r c : Nat) : Bool :=
  match (d.bankHead r c).bind (·.rows.head?) with
  | none => true
  | some row => d.bankFree r c row && !(d.cell r c).reinit.getLsbD (segOf row)

/-- One granted row access of a write; a row of weight class that is covered in part takes a read first (R147). -/
def grantWrite (q : BankReq) (row : Nat) (rest : List Nat) (d : Dev) : Dev :=
  let x := rowPart q.off q.size row
  let part := partialWords d q.region q.cell x.1 x.2
  let e := eccWords q.region q.cell part d
  if ¬ q.half ∧ e.2 then bounce q.packet stUncorrectable (bankReplace q none e.1)
  else if ¬ q.half ∧ part ≠ [] ∧ d.weightSeg q.region q.cell (segOf row) then
    bankReplace q (some { q with half := true }) e.1
  else
    let d := rowWrite q.region q.cell x.1 ((q.packet.data.drop (x.1 - q.off)).take x.2) (if q.half then d else e.1)
    if rest = [] then respond q.packet opWriteAck stOk [] (bankReplace q none d)
    else bankReplace q (some { q with rows := rest, half := false }) d

/-- One granted row access of a read (R162). -/
def grantRead (q : BankReq) (row : Nat) (rest : List Nat) (d : Dev) : Dev :=
  let x := rowPart q.off q.size row
  let e := eccWords q.region q.cell (wordsOf x.1 x.2) d
  if e.2 then bounce q.packet stUncorrectable (bankReplace q none e.1)
  else
    let data := q.data ++ mbytes e.1.mem (spKey q.region q.cell x.1) x.2
    if rest = [] then respond q.packet opReadResp stOk data (bankReplace q none e.1)
    else bankReplace q (some { q with rows := rest, data := data }) e.1

/-- A bank arbiter grants drift one row access (R158): the window is checked in this PX cycle (R163), and what the plan
had on its way to the scratchpad is there before it (R159). -/
def bankGrant (r c : Nat) (d : Dev) : Dev :=
  match d.bankHead r c with
  | none => d
  | some q =>
    let write := decide (q.packet.opcode.toNat = opWrite)
    let d := landWrites r d
    if ¬ d.harbourOk r c q.off q.size q.source write then
      bounce q.packet stHarbour (bankReplace q none (harbourRefuse r c q.off q.source q.packet.src.toNat write d))
    else match q.rows with
      | [] => bankReplace q none d
      | row :: rest => if write then grantWrite q row rest d else grantRead q row rest d

/-- Requests at an instance in a cycle: those that the command names, and drift accesses that wait at a bank. -/
def Dev.arbAsks (d : Dev) (i requesting : Nat) : Nat :=
  if i < 512 then setBit requesting 1 (bit requesting 1 || (d.bankHead (i / 32) (i % 32)).isSome) else requesting

/-- Requests that the free position can serve. -/
def Dev.arbReady (d : Dev) (i asks : Nat) : Nat :=
  if i < 512 then setBit asks 1 (bit asks 1 && d.bankReady (i / 32) (i % 32)) else asks

/-- ARB_GRANT (R340, R341): one free position, with the requests of this cycle. -/
def execArbGrant (i requesting : Nat) (d : Dev) : Dev :=
  let asks := d.arbAsks i requesting
  if ¬ d.arbPresent i then d
  else match d.arbWinner i (d.arbReady i asks) with
    | none => d
    | some w =>
      let d := if d.get R.ARB_MODE_mode i = 0 then d.inc C.ARB_WATCH_grants (i * 16 + w) else d
      let d := (arbAdvance i w d).setWait i w 0
      let d := (arbRequesters i).foldl (fun d q =>
        if q = w ∨ bit (d.get R.ARB_STATUS_masked i) q then d
        else if bit asks q then waitCycle i q d
        else d.setWait i q 0) d
      let left := ((arbRequesters i).filter (fun q => bit asks q && decide (q ≠ w))).foldl
        (fun m q => setBit m q true) 0
      let d := d.set R.ARB_STATUS_pending i left
      if i < 512 ∧ w = 1 ∧ ¬ d.fatal then showBank (i / 32) (i % 32) (bankGrant (i / 32) (i % 32) d) else d

/-- ARB_STARVE_LIMIT (R342). -/
def execArbStarveLimit (i q : Nat) (d : Dev) : Dev :=
  let s := d.get R.ARB_STATUS_starved i
  if d.arbPresent i ∧ (arbRequesters i).contains q ∧ d.arbWait i q ≥ d.get R.ARB_MODE_starve_limit i ∧ ¬ bit s q then
    (d.setWc R.ARB_STATUS_starved i (2 ^ q)).raise E.ARB_STARVED none (some i)
  else d

/-- ARB_WITHDRAW (R343): the position goes unused, the round-robin position advances, and no count changes. -/
def execArbWithdraw (i q : Nat) (d : Dev) : Dev :=
  if d.arbPresent i ∧ (arbRequesters i).contains q then
    let d := (arbAdvance i q d).setWait i q 0
    d.set R.ARB_STATUS_pending i (setBit (d.get R.ARB_STATUS_pending i) q false)
  else d

/-- ARB_MASK (R344): the sideband masks a requester, whose unit is in reset or powered down, or its unit is back. -/
def execArbMask (i q : Nat) (on : Bool) (d : Dev) : Dev :=
  if d.arbPresent i ∧ (arbRequesters i).contains q then
    let d := d.set R.ARB_STATUS_masked i (setBit (d.get R.ARB_STATUS_masked i) q on)
    if on then
      (d.setWait i q 0).set R.ARB_STATUS_pending i (setBit (d.get R.ARB_STATUS_pending i) q false)
    else d
  else d

end Sys2Proof.Machine
end

