-- ==== Sys2Proof/Machine/Clocks.lean ====
section
/-! DEFINITION. Clocks (16): the monitors and the fall to FOSC, rechecks, the gating tree, region frequency, stretching,
throttling, the power cap and the neighbour limits. -/

namespace Sys2Proof.Machine

def Dev.modClk (d : Dev) (f : ClkSt → ClkSt) : Dev := { d with clk := f d.clk }
def Dev.regClk (d : Dev) (r : Nat) : RegClkSt := tget {} d.clk.regs r
def Dev.modRegClk (d : Dev) (r : Nat) (f : RegClkSt → RegClkSt) : Dev :=
  d.modClk (fun c => { c with regs := tput {} c.regs r (f (d.regClk r)) })

/-- A plan holds the tide unit: ARMED, RUNNING or QUIESCED. -/
def Dev.planHeld (d : Dev) : Bool :=
  let s := d.get R.TIDE_STATUS_state
  decide (s = tsArmed ∨ s = tsRunning ∨ s = tsQuiesced)

/-! ### Monitors (R426 to R431) -/

/-- Band of a source in parts per million (Table 16.2). -/
def clkBand (s : Nat) : Nat := if s = 0 then 100000 else if s = 1 then 200000 else if s = 2 then 1000 else 20000

/-- A source has failed. -/
def Dev.clkFailed (d : Dev) (s : Nat) : Bool :=
  if s < 3 then bit (d.get R.CLK_SRC_STATUS_failed) s else bit (d.get R.CLK_SRC_STATUS_dfll_failed) (s - 3)

/-- CLK_SRC_STATUS for a source, failed or not. -/
def showClk (s : Nat) (bad : Bool) (d : Dev) : Dev :=
  if s < 3 then
    let d := d.set R.CLK_SRC_STATUS_failed 0 (setBit (d.get R.CLK_SRC_STATUS_failed) s bad)
    if s = 2 then d.setB R.CLK_SRC_STATUS_px_on_fosc 0 bad else d
  else
    let d := d.set R.CLK_SRC_STATUS_dfll_failed 0 (setBit (d.get R.CLK_SRC_STATUS_dfll_failed) (s - 3) bad)
    d.set R.CLK_SRC_STATUS_failed 0 (setBit (d.get R.CLK_SRC_STATUS_failed) 3 (d.get R.CLK_SRC_STATUS_dfll_failed ≠ 0))

/-- Stop the plan as a plan fault of another block's event, cause 0x10 (R428, R429, R444). -/
def planStops (e : Ev) (d : Dev) : Dev := if d.planHeld then d.planFault e none else d

/-- Count a failure (CLK_MON_COUNTS). -/
def countClk (s : Nat) (d : Dev) : Dev :=
  if s = 0 then d.inc C.CLK_MON_COUNTS_xtal_a else if s = 1 then d.inc C.CLK_MON_COUNTS_xtal_b
  else if s = 2 then d.inc C.CLK_MON_COUNTS_pll_main else d.inc C.CLK_MON_COUNTS_dfll

/-- What follows from the failure of each source (R428 to R430). -/
def clkConsequence (s : Nat) (d : Dev) : Dev :=
  if s = 1 then d.set R.TIME_CALENDAR_synced 0 0
  else if s < 3 then
    let d := (List.range 6).foldl (fun d l => linkDown l dcClock d) d
    let d := quayDown 1 (quayDown 0 d)
    planStops E.CLK_FAIL (onCore 1 enterHoldover d)
  else
    let r := s - 3
    let d := (d.set R.CLK_REGION_STATUS_on_fosc r 1).set R.CLK_REGION_STATUS_f_now r 200
    if d.usedRegions.contains r then planStops E.CLK_FAIL d else d

/-- A source fails (R427). -/
def clkFail (s : Nat) (d : Dev) : Dev :=
  if d.clkFailed s then d
  else
    let d := d.modClk (fun c => { c with outside := tput 0 c.outside s 0 })
    clkConsequence s ((countClk s (showClk s true d)).raise E.CLK_FAIL (if s < 3 then none else some (s - 3)) (some s))

/-- Results of CLK_GATE_STATUS. -/
def crDone : Nat := 0
def crRefused : Nat := 1
def crBusy : Nat := 2
def crFailed : Nat := 3
def clkResult (v : Nat) (d : Dev) : Dev := d.set R.CLK_GATE_STATUS_result 0 v

/-- A recheck of a source: good windows so far; none: no recheck is in progress. -/
def setRecheck (s : Nat) (n : Option Nat) (d : Dev) : Dev :=
  d.modClk (fun c => { c with recheck := tput none c.recheck s n })

/-- A window, or the lack of an edge, under a recheck: the first bad one fails it (R431). -/
def noteRecheck (s : Nat) (good : Bool) (d : Dev) : Dev :=
  match tget none d.clk.recheck s with
  | none => d
  | some n => if good then setRecheck s (some (n + 1)) d else clkResult crFailed (setRecheck s none d)

/-- CLK_MON_WINDOW (R426): a window's deviation from nominal, or from the DFLL target, in parts per million. -/
def execClkMonWindow (s : Nat) (ppm : BitVec 32) (t : BitVec 64) (d : Dev) : Dev :=
  let d := d.advance t
  let good := decide (ppm.toInt.natAbs ≤ clkBand s)
  if d.clkFailed s then noteRecheck s good d
  else if good then d.modClk (fun c => { c with outside := tput 0 c.outside s 0 })
  else if tget 0 d.clk.outside s + 1 ≥ 2 then clkFail s d
  else d.modClk (fun c => { c with outside := tput 0 c.outside s 1 })

/-- CLK_NO_EDGE_TIMEOUT (R426). -/
def execClkNoEdgeTimeout (s : Nat) (t : BitVec 64) (d : Dev) : Dev :=
  let d := d.advance t
  if d.clkFailed s then noteRecheck s false d else clkFail s d

/-- The tide unit is STOPPED or FAULTED (R431). -/
def Dev.tideIdle (d : Dev) : Bool :=
  decide (d.get R.TIDE_STATUS_state = tsStopped ∨ d.get R.TIDE_STATUS_state = tsFaulted)

/-- Start a recheck or a relock of a failed source; one of a source that has not failed changes nothing
(notes/assumptions/34.md). -/
def startRecheck (s : Nat) (d : Dev) : Dev :=
  if ¬ d.tideIdle then clkResult crBusy d
  else if d.clkFailed s then clkResult crDone (setRecheck s (some 0) d)
  else clkResult crDone d

/-- CLK_RECHECK (R431). -/
def execClkRecheck (target : Nat) (t : BitVec 64) (d : Dev) : Dev :=
  let d := d.advance t
  if target < 3 then startRecheck target d else d

/-- CLK_RELOCK (R431). -/
def execClkRelock (r : Nat) (t : BitVec 64) (d : Dev) : Dev :=
  let d := d.advance t
  if r < 16 then startRecheck (3 + r) d else d

/-- The source's consumers return to it; a DFLL starts again at f_min. -/
def returnClk (s : Nat) (d : Dev) : Dev :=
  let d := showClk s false d
  if s < 3 then d.raise E.CLK_RECOVERED none (some s)
  else
    let r := s - 3
    let d := d.set R.CLK_REGION_STATUS_on_fosc r 0
    (d.set R.CLK_REGION_STATUS_f_now r (d.get R.CLK_REGION_f_min r)).raise E.CLK_RECOVERED (some r) (some s)

/-- RECHECK_COMPLETE (R431): after 100 good windows the consumers return. A recheck that failed at a window has ended
there, with result FAILED (`noteRecheck`). -/
def execRecheckComplete (s : Nat) (t : BitVec 64) (d : Dev) : Dev :=
  let d := d.advance t
  match tget none d.clk.recheck s with
  | none => d
  | some n =>
    if n < 100 then d
    else if ¬ d.tideIdle then clkResult crBusy (setRecheck s none d)
    else returnClk s (setRecheck s none d)

/-! ### The gating tree (R433) -/

/-- A node of the tree: region, level, block, cell, unit. -/
structure GateNode where
  region : Nat
  level : Nat
  block : Nat
  cell : Nat
  unit : Nat
  deriving DecidableEq, Repr

/-- Key of a node; what lies below its level does not count. -/
def GateNode.key (n : GateNode) : Nat :=
  (((n.region * 4 + n.level) * 4 + (if n.level ≥ 1 then n.block else 0)) * 8 + (if n.level ≥ 2 then n.cell else 0)) * 16 +
    (if n.level ≥ 3 then n.unit else 0)

/-- The node that CLK_GATE_CMD names (Table 16.7). -/
def gateNode (v : Nat) : GateNode :=
  { region := bits v 0 4, level := bits v 4 3, block := bits v 7 2, cell := bits v 9 3, unit := bits v 12 4 }

/-- The device has the node. -/
def Dev.gateExists (d : Dev) (n : GateNode) : Bool :=
  decide (n.level < 2) || (decide (n.level < 4) && decide (n.cell < blockSize n.region) &&
    bit (d.presentCells n.region) (n.block * blockSize n.region + n.cell) && (decide (n.level = 2) || decide (n.unit ≤ 8)))

/-- A node is on: its region is awake under the tide unit (R434), or a command turned it on. -/
def Dev.gateIsOn (d : Dev) (n : GateNode) : Bool :=
  decide ((d.reg n.region).phase ≠ .dark ∧ (d.reg n.region).phase ≠ .done) || tget false d.clk.gates n.key

/-- A child of the node is on. -/
def Dev.childOn (d : Dev) (n : GateNode) : Bool :=
  if n.level = 0 then (List.range 4).any (fun b => d.gateIsOn { n with level := 1, block := b })
  else if n.level = 1 then (List.range 8).any (fun c => d.gateIsOn { n with level := 2, cell := c })
  else if n.level = 2 then (List.range 9).any (fun u => d.gateIsOn { n with level := 3, unit := u })
  else false

/-- A command on a region that takes part in a plan is BUSY (R433), in the PX cycle of its admission as well
(Table 16.12). -/
def Dev.gateBusy (d : Dev) (n : GateNode) : Bool :=
  (d.planHeld || decide (d.plan.admittedAt = some (cycleOf d.now))) && d.usedRegions.contains n.region

def setGate (n : GateNode) (on : Bool) (d : Dev) : Dev :=
  d.modClk (fun c => { c with gates := tput false c.gates n.key on })

/-- GATE_ON (R433): every ancestor first. A tripped die's regions stay off (R438). -/
def execGateOn (v : Nat) (d : Dev) : Dev :=
  let n := gateNode v
  if ¬ d.gateExists n then d
  else if d.gateBusy n then clkResult crBusy d
  else if d.pwr.tripped.contains (dieOf n.region) then clkResult crRefused d
  else clkResult crDone ((List.range (n.level + 1)).foldl (fun d k => setGate { n with level := k } true d) d)

/-- GATE_OFF (R433). -/
def execGateOff (v : Nat) (d : Dev) : Dev :=
  let n := gateNode v
  if ¬ d.gateExists n then d
  else if d.gateBusy n then clkResult crBusy d
  else if d.childOn n then clkResult crRefused d
  else clkResult crDone (setGate n false d)

/-- A cell is gated dark with its units. -/
def clearCellGates (r c : Nat) (d : Dev) : Dev :=
  let keys := (List.range 2).flatMap (fun l => (List.range 16).map (fun u =>
    ({ region := r, level := 2 + l, block := c / blockSize r, cell := c % blockSize r, unit := u } : GateNode).key))
  d.modClk (fun x => { x with gates := x.gates.filter (fun e => !keys.contains e.1) })

/-- The tide unit takes a region over, or gates it off: what commands turned on no longer counts (R434). -/
def clearGates (r : Nat) (d : Dev) : Dev :=
  d.modClk (fun c => { c with gates := c.gates.filter (fun e => !decide (e.1 / 2048 = r)) })

/-! ### Region frequency (R435, R436, R438 to R440) -/

/-- f_max as R439 has lowered it. -/
def Dev.fMax (d : Dev) (r : Nat) : Nat :=
  Nat.max (d.get R.CLK_REGION_f_min r) (d.get R.CLK_REGION_f_max r - (d.regClk r).capDrop)

/-- The frequency that R435 gives a region before the clamps: in MARGIN mode in steps of 5 MHz, never below f_min. -/
def Dev.fBase (d : Dev) (r : Nat) : Nat :=
  if d.is R.CLK_REGION_mode r then
    Nat.max (d.get R.CLK_REGION_f_min r) (Nat.min (d.regClk r).best (d.fMax r) / 5 * 5)
  else Nat.min (d.get R.CLK_REGION_f_set r) (d.fMax r)

/-- A ceiling, where one is set. -/
def under (c : Option Nat) (f : Nat) : Nat :=
  match c with
  | some x => Nat.min x f
  | none => f

/-- The lowest of a region's own limits, never below f_min (R435, R438 to R440). -/
def Dev.fFree (d : Dev) (r : Nat) : Nat :=
  let c := d.regClk r
  Nat.max (d.get R.CLK_REGION_f_min r) (under c.diff (under c.therm (d.fBase r)))

/-- The frequency that a region's DFLL moves toward. A neighbour clamp holds it at twice the slower region, below f_min
too (Table 16.12). -/
def Dev.fGoal (d : Dev) (r : Nat) : Nat := under (d.regClk r).clamp (d.fFree r)

/-- The status flags of a region's limits. -/
def showLimits (r : Nat) (d : Dev) : Dev :=
  let c := d.regClk r
  ((d.setB R.CLK_REGION_STATUS_clamped r c.clamp.isSome).setB R.CLK_REGION_STATUS_throttled r
    (c.therm.isSome || c.diff.isSome)).setB R.CLK_REGION_STATUS_capped r (decide (c.capDrop > 0))

/-- A region's DFLL runs: its die is out of reset and it is not on FOSC. -/
def Dev.dfllRuns (d : Dev) (r : Nat) : Bool := d.coreUp (dieOf r) && !d.is R.CLK_REGION_STATUS_on_fosc r

/-- The next frequency of a DFLL: at most 5 MHz toward the goal, and none where 100 ns have not passed since the last
change (R436). -/
def Dev.fNext (d : Dev) (r : Nat) (t : BitVec 64) : Nat :=
  let f := d.get R.CLK_REGION_STATUS_f_now r
  let g := d.fGoal r
  if ¬ lapsed (d.regClk r).steppedAt (100 * nsU) t then f
  else if f < g then Nat.min g (f + 5) else Nat.max g (f - 5)

/-- DFLL_STEP (R435, R436): at most 5 MHz toward the goal. `best` is the highest frequency at which the gauge reads at
least margin_min, `margin` its present reading. -/
def execDfllStep (r best margin : Nat) (t : BitVec 64) (d : Dev) : Dev :=
  let d := d.advance t
  if ¬ d.dfllRuns r then d
  else
    let d := (d.modRegClk r (fun c => { c with best := best })).set R.CLK_REGION_STATUS_margin r margin
    let f' := d.fNext r t
    let d := if f' = d.get R.CLK_REGION_STATUS_f_now r then d
      else (d.modRegClk r (fun c => { c with steppedAt := some t })).set R.CLK_REGION_STATUS_f_now r f'
    let tide := d.get R.TIDE_NUMBER_tide
    if d.is R.CLK_REGION_mode r ∧ f' = d.get R.CLK_REGION_f_min r ∧ margin < d.get R.CLK_REGION_margin_min r ∧
        (d.regClk r).floorTide ≠ some tide then
      (d.modRegClk r (fun c => { c with floorTide := some tide })).raise E.DFLL_FLOOR (some r)
    else d

/-- The level by which a dip in progress stretches a die's regions at least (R443): the codes of dip_stretch are the
levels of Table 16.4. -/
def Dev.dipStretch (d : Dev) (die : Nat) : Nat :=
  if (tget none d.pwr.dips die).isSome then d.get R.PWR_CTL_dip_stretch else 0

/-- CLK_REGION_STATUS.stretch: the level of the droop, and at least the dip's (R437, R443). -/
def showStretch (d : Dev) (r : Nat) : Dev :=
  d.set R.CLK_REGION_STATUS_stretch r (if d.coreUp (dieOf r) then Nat.max (d.regClk r).droop (d.dipStretch (dieOf r)) else 0)

/-- Every region shows its stretch. -/
def showStretches (d : Dev) : Dev := (List.range 16).foldl showStretch d

/-- Stretch level of a droop (R437, Table 16.4): `mv` below a setpoint in units of 0.5% of it. -/
def Dev.stretchLevel (d : Dev) (set mv : Nat) : Nat :=
  let at' := fun (level : Nat) => decide ((set - mv) * 200 ≥ level * set ∧ mv < set)
  if at' (d.get R.PWR_STRETCH_level3) then 3 else if at' (d.get R.PWR_STRETCH_level2) then 2
  else if at' (d.get R.PWR_STRETCH_level1) then 1 else 0

/-- DROOP_STRETCH (R437): the gauge reads `mv`; `periods` ended at the stretch in force until now. -/
def execDroopStretch (r mv periods : Nat) (t : BitVec 64) (d : Dev) : Dev :=
  let d := d.advance t
  if ¬ d.coreUp (dieOf r) then d
  else
    let d := if d.get R.CLK_REGION_STATUS_stretch r ≠ 0 then d.incP R.CLK_STRETCH_periods r periods else d
    let level := d.stretchLevel (d.get R.PWR_RAIL_confirmed (dieOf r)) mv
    showStretch (d.modRegClk r (fun c => { c with droop := level })) r

/-- PWR_STRETCH_WRITE (R437): each level is held within its range of Table 16.4 (notes/assumptions/35.md). -/
def execPwrStretchWrite (v : Nat) (d : Dev) : Dev :=
  let a := Nat.max 1 (Nat.min 20 (bits v 0 8))
  let b := Nat.max 1 (Nat.min 20 (bits v 8 8))
  let c := Nat.max 1 (Nat.min 24 (bits v 16 8))
  if a < b ∧ b < c then
    ((d.set R.PWR_STRETCH_level1 0 a).set R.PWR_STRETCH_level2 0 b).set R.PWR_STRETCH_level3 0 c
  else d.raise E.PWR_CONFIG

/-! ### Temperature (R438) -/

def setTemp (r : Nat) (temp : BitVec 16) (d : Dev) : Dev := d.set R.CLK_REGION_STATUS_temp r temp.toNat

/-- THERMAL_LIMIT_EXCEEDED (R438). -/
def execThermalLimitExceeded (r : Nat) (temp : BitVec 16) (t : BitVec 64) (d : Dev) : Dev :=
  let d := setTemp r temp (d.advance t)
  if temp.toInt > (d.get R.PWR_CTL_thermal_limit * 16 : Nat) ∧ (d.regClk r).therm = none ∧ d.coreUp (dieOf r) then
    (showLimits r (d.modRegClk r (fun c =>
      { c with therm := some (d.get R.CLK_REGION_STATUS_f_now r), thermAt := t }))).raise E.THERMAL (some r)
  else d

/-- One timer step of a temperature ceiling: down 10% of the present frequency every 100 µs while too hot, up 10% every
1 ms once cool, and away when it no longer limits. -/
def stepCeiling (ceil : Option Nat) (since t : BitVec 64) (f fmin free : Nat) (hot cool : Bool) : Option Nat × BitVec 64 :=
  match ceil with
  | none => (none, since)
  | some c =>
    if hot then
      if tdiff t since ≥ (100 * usU : Nat) then (some (Nat.max fmin (f - f / 10)), t) else (some c, since)
    else if cool then
      if tdiff t since ≥ (msU : Nat) then (if f + f / 10 ≥ free then (none, t) else (some (f + f / 10), t)) else (some c, since)
    else (some c, since)

/-- Temperature differences of a region to its neighbours on its die (R440), largest. -/
def Dev.tempOver (d : Dev) (r : Nat) : Int :=
  let base := r / 8 * 8
  let i := r % 8
  let near := (List.range 8).filter (fun j => decide ((j / 4 = i / 4 ∧ (j + 1 = i ∨ i + 1 = j)) ∨ (j % 4 = i % 4 ∧ j ≠ i)))
  near.foldl (fun m j =>
    let x := sext 16 (d.get R.CLK_REGION_STATUS_temp r) - sext 16 (d.get R.CLK_REGION_STATUS_temp (base + j))
    if x > m then x else m) 0

/-- THERMAL_STEP (R438, R440). -/
def execThermalStep (r : Nat) (temp : BitVec 16) (t : BitVec 64) (d : Dev) : Dev :=
  let d := setTemp r temp (d.advance t)
  let c := d.regClk r
  let f := d.get R.CLK_REGION_STATUS_f_now r
  let fmin := d.get R.CLK_REGION_f_min r
  let limit : Int := (d.get R.PWR_CTL_thermal_limit * 16 : Nat)
  let th := stepCeiling c.therm c.thermAt t f fmin (under c.diff (d.fBase r)) (temp.toInt > limit) (temp.toInt ≤ limit - 80)
  let excess := d.tempOver r
  let df := stepCeiling c.diff c.diffAt t f fmin (under th.1 (d.fBase r)) (excess > 480) (excess ≤ 400)
  showLimits r (d.modRegClk r (fun c => { c with therm := th.1, thermAt := th.2, diff := df.1, diffAt := df.2 }))

/-- THERMAL_TRIP (R438): every region is gated off until reset of its die's core domain. -/
def execThermalTrip (r : Nat) (temp : BitVec 16) (t : BitVec 64) (d : Dev) : Dev :=
  let d := setTemp r temp (d.advance t)
  if temp.toInt < 1840 ∨ ¬ d.coreUp (dieOf r) ∨ d.pwr.tripped.contains (dieOf r) then d
  else
    let d := { d with pwr := { d.pwr with tripped := [0, 1] } }
    let d := d.modClk (fun c => { c with gates := [] })
    d.raise E.THERMAL_TRIP (some r)

/-! ### Package power (R439) -/

/-- POWER_CAP_STEP (R439): the average of the last ms in units of 0.125 W. -/
def execPowerCapStep (power : Nat) (t : BitVec 64) (d : Dev) : Dev :=
  let d := d.advance t
  let d := (d.set R.PWR_POWER_power 0 power).set R.PWR_POWER_peak 0 (Nat.max power (d.get R.PWR_POWER_peak))
  let cap := d.get R.PWR_CTL_power_cap * 8
  if ¬ lapsed d.pwr.capAt msU t then d
  else
  let d := { d with pwr := { d.pwr with capAt := some t } }
  if power > cap then
    let first := !d.pwr.capping
    let d := (List.range 16).foldl (fun d r => showLimits r (d.modRegClk r (fun c =>
      { c with capDrop := Nat.min (c.capDrop + 25) (d.get R.CLK_REGION_f_max r - d.get R.CLK_REGION_f_min r) })))
      { d with pwr := { d.pwr with capping := true } }
    if first then d.raise E.POWER_CAP else d
  else if power * 100 < cap * 95 then
    let d := (List.range 16).foldl (fun d r => showLimits r (d.modRegClk r (fun c => { c with capDrop := c.capDrop - 25 }))) d
    if (List.range 16).all (fun r => (d.regClk r).capDrop = 0) then { d with pwr := { d.pwr with capping := false } } else d
  else d

/-! ### Neighbour limits (R440) -/

/-- The twenty neighbour pairs. -/
def neighbourPairs : List (Nat × Nat) :=
  [0, 8].flatMap (fun b =>
    ([0, 1, 2, 4, 5, 6].map (fun i => (b + i, b + i + 1))) ++ ([0, 1, 2, 3].map (fun i => (b + i, b + i + 4))))

/-- A pair is beyond the limit of a quantity: 0 frequency, 1 voltage, 2 temperature (Table 16.5). -/
def Dev.pairOver (d : Dev) (volts : List (BitVec 10)) (q : Nat) (p : Nat × Nat) : Bool :=
  let f := fun r => d.get R.CLK_REGION_STATUS_f_now r
  let v := fun r => (volts.getD r 0).toNat
  let k := fun r => sext 16 (d.get R.CLK_REGION_STATUS_temp r)
  if q = 0 then d.dfllRuns p.1 && d.dfllRuns p.2 && decide (f p.1 > 2 * f p.2 ∨ f p.2 > 2 * f p.1)
  else if q = 1 then decide (v p.1 > v p.2 + 60 ∨ v p.2 > v p.1 + 60)
  else decide ((k p.1 - k p.2).natAbs > 480)

/-- EV_NEIGHBOUR_LIMIT for a pair and quantity, again only after 1 ms within the limit. -/
def judgePair (key : Nat) (p : Nat × Nat) (beyond : Bool) (d : Dev) : Dev :=
  let x := tget {} d.clk.pairs key
  let put := fun (y : NeighbourSt) (d : Dev) => d.modClk (fun c => { c with pairs := tput {} c.pairs key y })
  let past := x.okSince.isSome && lapsed x.okSince msU d.now
  if beyond then
    let d := put { raised := true, okSince := none } d
    if x.raised ∧ ¬ past then d else d.raise E.NEIGHBOUR_LIMIT (some p.1) (some key)
  else if x.raised then
    if x.okSince = none then put { x with okSince := some d.now } d else if past then put {} d else d
  else d

/-- Twice the slowest neighbour's frequency; none for a region with no running neighbour. -/
def Dev.neighbourCeiling (d : Dev) (r : Nat) : Option Nat :=
  minOf (neighbourPairs.filterMap (fun p =>
    let j := if p.1 = r then some p.2 else if p.2 = r then some p.1 else none
    match j with
    | some j => if d.dfllRuns j then some (2 * d.get R.CLK_REGION_STATUS_f_now j) else none
    | none => none))

/-- The clamp of a region: set where it is beyond its ceiling, kept while its own limits would take it there. -/
def clampRegion (d : Dev) (r : Nat) : Dev :=
  let c := d.regClk r
  let lim := d.neighbourCeiling r
  let new := match lim with
    | some x =>
      if d.dfllRuns r ∧ (d.get R.CLK_REGION_STATUS_f_now r > x ∨ (c.clamp.isSome ∧ d.fFree r > x)) then some x else none
    | none => none
  showLimits r (d.modRegClk r (fun c => { c with clamp := new }))

/-- A region more than 30 °C hotter than a neighbour starts to throttle. -/
def startDiff (t : BitVec 64) (d : Dev) (r : Nat) : Dev :=
  if d.tempOver r > 480 ∧ (d.regClk r).diff = none ∧ d.coreUp (dieOf r) then
    showLimits r (d.modRegClk r (fun c => { c with diff := some (d.get R.CLK_REGION_STATUS_f_now r), diffAt := t }))
  else d

/-- NEIGHBOUR_CHECK (R440), every 10 µs: the regions' temperatures and local voltages. -/
def execNeighbourCheck (temps : List (BitVec 16)) (volts : List (BitVec 10)) (t : BitVec 64) (d : Dev) : Dev :=
  let d := d.advance t
  if ¬ lapsed d.clk.checkedAt (10 * usU) t then d
  else
  let d := d.modClk (fun c => { c with checkedAt := some t })
  let d := (List.range 16).foldl (fun d r => match temps[r]? with
    | some x => setTemp r x d
    | none => d) d
  let d := (List.range 20).foldl (fun d i => [0, 1, 2].foldl (fun d q =>
    let p := neighbourPairs.getD i (0, 1)
    judgePair (3 * i + q) p (d.coreUp (dieOf p.1) && d.pairOver volts q p) d) d) d
  let d := (List.range 16).foldl clampRegion d
  (List.range 16).foldl (startDiff t) d

/-- The DFLLs of a die start when its core domain leaves reset: at f_min (notes/assumptions/36.md). -/
def startDflls (die : Nat) (d : Dev) : Dev :=
  (List.range 8).foldl (fun d k =>
    let r := 8 * die + k
    let d := d.modRegClk r (fun _ => {})
    if d.is R.CLK_REGION_STATUS_on_fosc r then d
    else showLimits r (d.set R.CLK_REGION_STATUS_f_now r (d.get R.CLK_REGION_f_min r))) d

end Sys2Proof.Machine
end

