-- ==== Sys2Proof/Machine/Host.lean ====
section
/-! DEFINITION. The CXL host port (15): reset of domain HP, the link, host-managed device memory and its snoop filter,
CXL.cache completions, and the DOE mailboxes' discovery and CDAT. -/

namespace Sys2Proof.Machine

def Dev.modHost (d : Dev) (f : HostSt → HostSt) : Dev := { d with host := f d.host }

/-! ### The snoop filter (R406) -/

/-- Lines of 64 bytes that the filter tracks. -/
def snoopLimit : Nat := 1048576

/-- Line (memory key) of a die address. -/
def hostLine (die a : Nat) : Nat := hbmKey die (a / 64 * 64)

/-- HOST_SNOOP.held. -/
def showSnoop (d : Dev) : Dev := d.set R.HOST_SNOOP_held 0 d.host.snoop.length

/-- Send back-invalidate snoops for lines that have none outstanding. -/
def snoopLines (ls : List Nat) (d : Dev) : Dev :=
  let new := ls.filter (fun l => !d.host.snoopOut.contains l)
  d.modHost (fun h => { h with snoopOut := h.snoopOut ++ new, snoopsSent := h.snoopsSent ++ new })

/-- Tracked lines among the bytes [a, a + n) of a die. -/
def Dev.trackedIn (d : Dev) (die a n : Nat) : List Nat :=
  d.host.snoop.filter (fun l => decide (hbmKey die a < l + 64 ∧ l < hbmKey die (a + n)))

/-- A device access to bytes that `ls` names happens once no line of them is tracked; until then the agent sends the
back-invalidate snoops and the access waits (R406). -/
def afterSnoop (ls : Dev → List Nat) (f : Dev → Dev) (d : Dev) : Dev :=
  match ls d with
  | [] => f d
  | l :: rest => snoopLines (l :: rest) d

/-- Tracked lines that a run's next block reads (PUSH). -/
def Dev.pushLines (d : Dev) (i : Nat) : List Nat :=
  match d.run i with
  | none => []
  | some r =>
    let pos := if r.header = [] then 0 else 2048 + r.cipher.length
    if r.cmd.op ≠ fcPush then []
    else match d.hbmAt (r.cmd.address + pos) with
      | some (die, a) => d.trackedIn die a (if r.header = [] then 2048 else 65536)
      | none => []

/-- Tracked lines that a boundary reads: waiting intake entries and their prompts. -/
def Dev.intakeLines (d : Dev) : List Nat :=
  if d.host.snoop = [] then []
  else (List.range 16).flatMap (fun i =>
    let n := d.intakeSize i
    let h := d.get R.SVC_INTAKE_head i % n
    let waiting := (d.get R.SVC_INTAKE_tail i % n + n - h) % n
    if ¬ d.is R.SVC_INTAKE_enable i then []
    else match d.hbmAt (d.get R.SVC_INTAKE_base i) with
      | some (1, a) => (List.range waiting).flatMap (fun k =>
          let e := a + 256 * ((h + k) % n)
          let q := d.intakeEntry i e
          d.trackedIn 1 e 256 ++ (match d.promptAt q with
            | some p => d.trackedIn 1 p (4 * q.promptLen)
            | none => []))
      | _ => [])

/-- Tracked lines among `n` bytes at a hall address of this device. -/
def Dev.hallLines (d : Dev) (addr n : Nat) : List Nat :=
  match d.hbmAt addr with
  | some (die, a) => d.trackedIn die a n
  | none => []

/-- Admit a line to the filter. -/
def trackLine (l : Nat) (d : Dev) : Dev :=
  if d.host.snoop.contains l then d else showSnoop (d.modHost (fun h => { h with snoop := h.snoop ++ [l] }))

/-- The data of a line returns to the host, or status UNCORRECTABLE and none (R171). -/
def answerRead (l : Nat) (d : Dev) : Dev :=
  let die := l / 2 ^ 39
  let a := l % 2 ^ 39
  let x := hbmRead byDrift none die a 64 d
  let data := if x.2 then [] else mbytes x.1.mem l 64
  x.1.modHost (fun h => { h with readData := h.readData ++ [data] })

/-- A cached read: the line enters the filter, whose oldest entry goes first when it is full (R406). -/
def cachedRead (l : Nat) (d : Dev) : Dev :=
  if d.host.snoop.contains l ∨ d.host.snoop.length < snoopLimit then answerRead l (trackLine l d)
  else snoopLines (d.host.snoop.take 1) (d.modHost (fun h => { h with waitReads := h.waitReads ++ [l] }))

/-- Packets whose lines are no longer tracked may go on; `ls` names the lines of a packet. -/
def freePackets (ls : Dev → Packet → List Nat) (d : Dev) : Dev :=
  let go := d.host.waitPkts.filter (fun p => decide (ls d p = []))
  d.modHost (fun h => { h with waitPkts := h.waitPkts.filter (fun p => !go.contains p), ready := h.ready ++ go })

/-- Tracked lines that a drift packet's access reaches. -/
def Dev.packetLines (d : Dev) (p : Packet) : List Nat := d.hallLines p.addr.toNat (8 * p.words.toNat)

/-- BI_SNOOP_RESPONSE (R406): the host's latest write of the line is applied, the line leaves the filter, and what
waited for it goes on. -/
def execBiSnoopResponse (die a : Nat) (dirty : Option (List Byte)) (t : BitVec 64) (d : Dev) : Dev :=
  let d := d.advance t
  let l := hostLine die a
  if ¬ d.host.snoopOut.contains l then d
  else
    let d := match dirty with
      | some bs => hbmWrite die (a / 64 * 64) (bs.take 64) d
      | none => d
    let drop := fun (xs : List Nat) => xs.filter (fun x => !decide (x = l))
    let d := showSnoop (d.modHost (fun h => { h with snoop := drop h.snoop, snoopOut := drop h.snoopOut }))
    let d := match d.host.waitReads with
      | [] => d
      | r :: rest => cachedRead r (d.modHost (fun h => { h with waitReads := rest }))
    freePackets (fun d p => d.packetLines p) d

/-! ### The link (R404, R411 to R413) -/

/-- A CXL.cache request ends LINK_LOST (R413): a spill keeps its page in HBM, a staging leaves its frame free, a
slow-tier buffer stays unverified. -/
def cacheLost (use : CxlUse) (d : Dev) : Dev :=
  match use with
  | .slowTier _ => d
  | .kvStage s q => modSvc (fun v => { v with
      stages := v.stages.filter (fun x => !decide (x.1 = s.toNat ∧ x.2.1 = q.toNat)) }) d
  | .kvSpill s q => modSvc (fun v => { v with
      spills := v.spills.filter (fun x => !decide (x.1 = s.toNat ∧ x.2.1 = q.toNat)) }) d

/-- A CXL.cache request completes. -/
def noteCache (use : CxlUse) (off : Nat) (lost : Bool) (data : List Byte) (d : Dev) : Dev :=
  d.modHost (fun h => { h with cxl := h.cxl ++ [{ use := use, off := off, lost := lost, data := data }] })

/-- The request is outstanding. -/
def Dev.cacheOpen (d : Dev) : CxlUse → Bool
  | .slowTier m => (tget none d.ferry.slow m.toNat).isSome
  | .kvStage s q => d.svc.stages.any (fun x => decide (x.1 = s.toNat ∧ x.2.1 = q.toNat))
  | .kvSpill s q => d.svc.spills.any (fun x => decide (x.1 = s.toNat ∧ x.2.1 = q.toNat))

/-- CXL_CACHE_COMPLETION (R413): a 64-byte read or write of the device to host memory. -/
def execCxlCacheCompletion (use : CxlUse) (off : Nat) (lost : Bool) (data : List Byte) (d : Dev) : Dev :=
  if ¬ d.cacheOpen use then d
  else
    let d := noteCache use off lost data d
    if lost then cacheLost use d else d

/-- The link leaves the active state (R411, R413). -/
def hostDown (d : Dev) : Dev :=
  if ¬ d.is R.HOST_STATUS_link_up then d
  else
    let d := ((d.set R.HOST_STATUS_link_up 0 0).set R.HOST_STATUS_width 0 0).set R.HOST_STATUS_rate 0 0
    let d := (d.inc C.HOST_COUNTS_link_downs).raise E.HOST_LINK_DOWN
    let d := d.svc.stages.foldl (fun d x => noteCache (.kvStage (BitVec.ofNat 8 x.1) (BitVec.ofNat 24 x.2.1)) 0 true [] d) d
    let d := d.svc.spills.foldl (fun d x => noteCache (.kvSpill (BitVec.ofNat 8 x.1) (BitVec.ofNat 24 x.2.1)) 0 true [] d) d
    let d := modSvc (fun v => { v with stages := [], spills := [] }) d
    let d := showSnoop (d.modHost (fun h => { h with snoop := [], snoopOut := [], waitReads := [] }))
    freePackets (fun d p => d.packetLines p) d

/-- HOST_LINK_DOWN (R411). -/
def execHostLinkDown (t : BitVec 64) (d : Dev) : Dev := hostDown (d.advance t)

/-- Send the vectors that are pending and no longer masked. -/
def sendPending (d : Dev) : Dev :=
  ((List.range 64).filter (fun v => bit d.host.pba.toNat v)).foldl (fun d v =>
    if bit (tget (2 ^ 32) d.host.msix (2 * v + 1)) 32 then d
    else (d.modHost (fun h => { h with pba := h.pba &&& ~~~(1#64 <<< v) })).sendVector v) d

/-- HOST_LINK_UP (R402, R411): x16 or x8, at 64 or 32 GT/s. -/
def execHostLinkUp (wide fast : Bool) (t : BitVec 64) (d : Dev) : Dev :=
  let d := d.advance t
  if d.host.held ∨ d.is R.HOST_STATUS_link_up then d
  else
    let d := ((d.set R.HOST_STATUS_link_up 0 1).set R.HOST_STATUS_width 0 (if wide then 16 else 8)).setB R.HOST_STATUS_rate 0 fast
    (sendPending d).raise E.HOST_LINK_UP

/-- Registers of domain HP at their reset values. -/
def resetHp (d : Dev) : Dev :=
  let d := d.clearReg R.HOST_STATUS_link_up
  let d := (List.range 4).foldl (fun d n => d.clearReg R.HOST_HDM_base n) d
  let d := (d.clearReg R.HOST_SNOOP_held).clearReg R.HOST_COUNTS_link_downs
  showPending (d.modHost (fun h => { h with msix := [], pba := 0, doe := [], snoop := [], snoopOut := [], waitReads := [] }))

/-- PERST (R404, R412): domain HP is reset and held, and every output ring is disabled. -/
def execPerst (t : BitVec 64) (d : Dev) : Dev :=
  let d := hostDown (d.advance t)
  let d := (List.range 16).foldl (fun d i => d.setRw R.SVC_OUT_enable i 0) d
  (resetHp d).modHost (fun h => { h with held := true, perst := true })

/-- PERST_RELEASE (R404). Domain HP stays down while the device is DORMANT (Table 16.9). -/
def execPerstRelease (t : BitVec 64) (d : Dev) : Dev :=
  let d := d.advance t
  d.modHost (fun h => { h with perst := false, held := decide (d.get R.PWR_STATE_state = 3 ∧ d.get R.SEC_BOOT_stage = 0) })

/-- Domain HP without power (Table 16.9), and brought up in boot stage 1 (Table 17.4). -/
def hpPowerDown (d : Dev) : Dev := (resetHp (hostDown d)).modHost (fun h => { h with held := true })
def hpPowerUp (d : Dev) : Dev := d.modHost (fun h => { h with held := h.perst })

/-! ### Host-managed device memory (R405 to R407) -/

/-- Die and area of an HDM decoder (Table 15.2). -/
def hdmArea (n : Nat) : Nat × Nat := (n / 2, if n % 2 = 0 then areaHost else areaFerry)

/-- Size of a decoder in 256 MiB units: its area rounded down (R405). -/
def Dev.hdmSize (d : Dev) (n : Nat) : Nat := (d.area (hdmArea n).1 (hdmArea n).2).2 / 0x10000000

/-- HDM_DECODER_COMMIT (R405). -/
def execHdmDecoderCommit (n base : Nat) (d : Dev) : Dev :=
  if d.hdmSize n = 0 ∨ d.host.held ∨ ¬ d.is R.HOST_STATUS_link_up then d
  else
    ((d.set R.HOST_HDM_size n (d.hdmSize n)).set R.HOST_HDM_base n (base / 0x10000000)).set R.HOST_HDM_committed n 1

/-- Die and die address of `n` bytes at a host physical address; none outside every committed decoder. -/
def Dev.hdmAt (d : Dev) (a n : Nat) : Option (Nat × Nat) :=
  ((List.range 4).find? (fun k =>
    let b := d.get R.HOST_HDM_base k * 0x10000000
    d.is R.HOST_HDM_committed k && decide (b ≤ a ∧ a + n ≤ b + d.hdmSize k * 0x10000000))).map (fun k =>
      ((hdmArea k).1, (d.area (hdmArea k).1 (hdmArea k).2).1 + (a - d.get R.HOST_HDM_base k * 0x10000000)))

/-- HOST_MEM_WRITE (R405, R407). -/
def execHostMemWrite (a : Nat) (data : List Byte) (poisoned : Bool) (d : Dev) : Dev :=
  if ¬ d.is R.HOST_STATUS_link_up then d
  else match d.hdmAt a data.length with
    | none => d
    | some (die, x) =>
      if poisoned then (d.inc C.HOST_COUNTS_poisoned).raise E.HOST_POISON
      else hbmWrite die x data d

/-- HOST_MEM_READ (R405, R406): the line of 64 bytes; a cached one enters the snoop filter. -/
def execHostMemRead (a : Nat) (cached : Bool) (us : List HbmUpset) (d : Dev) : Dev :=
  let d := takeHbmUpsets us d
  if ¬ d.is R.HOST_STATUS_link_up then d
  else match d.hdmAt (a / 64 * 64) 64 with
    | none => d
    | some (die, x) => if cached then cachedRead (hostLine die x) d else answerRead (hbmKey die x) d

/-! ### Data object exchange (R410) -/

/-- Put an answer into a mailbox. -/
def doeAnswer (mailbox : Nat) (bs : List Byte) (d : Dev) : Dev :=
  d.modHost (fun h => { h with doe := h.doe ++ [(mailbox, bs)] })

/-- Protocols of a mailbox: vendor ID and data object type. Discovery is the PCI-SIG's type 0 and table access CXL's
type 2 (notes/assumptions/33.md). -/
def Dev.doeTypes (d : Dev) (mailbox : Nat) : List (Nat × Nat) :=
  if mailbox = 0 then [(0x0001, 0), (0x1E98, 2)] else [(0x0001, 0), (d.fuses.vendor, 1), (d.fuses.vendor, 2)]

/-- DOE_DISCOVERY (R410). -/
def execDoeDiscovery (mailbox index : Nat) (d : Dev) : Dev :=
  if ¬ d.is R.HOST_STATUS_link_up then d
  else
    let l := d.doeTypes mailbox
    let e := l.getD index (0xFFFF, 0)
    let next := if index + 1 < l.length then index + 1 else 0
    doeAnswer mailbox (leBytes 2 e.1 ++ leBytes 1 e.2 ++ leBytes 1 next) d

/-- What the CDAT reports of a decoder: its number, read latency in ns, and read and write bandwidth in GB/s. The
packing is the model's own (notes/assumptions/33.md). -/
def cdatEntry (n : Nat) : List Byte := leBytes 2 n ++ leBytes 2 600 ++ leBytes 2 120 ++ leBytes 2 120

/-- CDAT_READ (R410): entry n is decoder n's. -/
def execCdatRead (n : Nat) (d : Dev) : Dev :=
  if ¬ d.is R.HOST_STATUS_link_up ∨ n ≥ 4 then d else doeAnswer 0 (cdatEntry n) d

end Sys2Proof.Machine
end

