-- ==== Sys2Proof/Machine/Isthmus.lean ====
section
/-! DEFINITION. The Isthmus (09): entries and their delivery in order, replay and retraining, degraded width, and the
beacon sideband. -/

namespace Sys2Proof.Machine

/-! ### Entries (R271, R273) -/

/-- `last` of a tag: the last entry of a drift packet or handoff page. -/
def IstRun.last (r : IstRun) : Bool := decide (r.first + 1 = r.total) && decide (r.cls ≠ icPlan ∧ r.cls ≠ icFerry)

/-- Address step from one entry of a transfer to the next: entries of a page or of Ferry data follow one another in
memory, those of a drift packet bear the packet's address. -/
def IstRun.step (r : IstRun) : Nat := if r.cls = icKv ∨ r.cls = icFerry then 64 else 0

/-- The tag of a run's first entry (Table 9.1). -/
def IstRun.tag (r : IstRun) : List Byte :=
  leBytes 1 r.cls ++ leBytes 1 (r.region + 16 * r.channel + 128 * flag r.last) ++ leBytes 2 r.tide ++
  leBytes 8 (r.addr + r.step * r.first) ++ leBytes 4 (r.seq + BitVec.ofNat 32 r.first).toNat

/-- The 64 bytes of data of a run's first entry. -/
def IstRun.data (r : IstRun) (d : Dev) : List Byte :=
  let part := fun (l : List Byte) => ((l.drop (64 * r.first)).take 64) ++
    leBytes (64 - ((l.drop (64 * r.first)).take 64).length) 0
  match r.body with
  | .crossing src ch => match (d.chan src ch).flying.find? (fun f => f.ist) with
    | some f => leBytes 64 f.data.toNat
    | none => leBytes 64 0
  | .planOut _ f => part (leBytes 240 f.data.toNat)
  | .planIn _ _ data => part (leBytes 240 data.toNat)
  | .page _ _ src _ => mbytes d.mem (hbmKey 0 (src + 64 * r.first)) 64
  | .ferry _ _ bytes => part bytes
  | .mirror _ dieS src _ => mbytes d.mem (hbmKey dieS (src + 64 * r.first)) 64
  | .drift _ _ flits =>
    match flits[r.first / 4]? with
    | some f => ((leBytes 256 f.data.toNat).drop (64 * (r.first % 4))).take 64
    | none => leBytes 64 0

/-- Move the oldest entry that crosses the Isthmus of a channel into the channel. -/
def deliverCrossing (r ch : Nat) (d : Dev) : Dev :=
  let c := d.chan r ch
  match c.flying.find? (fun f => f.ist) with
  | none => d
  | some f =>
    let apart := sdiff16 (BitVec.ofNat 16 f.tide) (BitVec.ofNat 16 (d.get R.TIDE_NUMBER_tide))
    if apart < -32 ∨ apart > 32 then
      (d.modChan r ch (fun c => { c with flying := c.flying.erase f })).raise E.CW_PLAN_HEADER
    else d.modChan r ch (fun c => { c with flying := c.flying.erase f, fifo := c.fifo ++ [f.data] })

/-- The first entry of a run reaches its destination; what takes several entries happens with its last. -/
def deliverEntry (r : IstRun) (d : Dev) : Dev :=
  let done := decide (r.first + 1 = r.total)
  let off := 64 * r.first
  match r.body with
  | .crossing src ch => deliverCrossing src ch d
  | .planOut l f => if done then d.modLink l (fun x => { x with planQueue := x.planQueue ++ [f] }) else d
  | .planIn index j data => if done then landFlit index j data d else d
  | .page _ _ src dst => hbmMove 0 (src + off) 64 1 (dst + off) d
  | .ferry _ a bytes => hbmWrite 0 (a + off) ((bytes.drop off).take 64) d
  | .mirror _ dieS src dst => hbmMove dieS (src + off) 64 (1 - dieS) (dst + off) d
  | .drift via vc flits =>
    if done then d.modLink via (fun x => { x with transit := tput [] x.transit vc (tget [] x.transit vc ++ flits) }) else d

/-- IST_ENTRY_ARRIVAL (R273): the oldest entry sent in a direction reaches its destination. -/
def execIstEntryArrival (toEstuary : Bool) (t : BitVec 64) (d : Dev) : Dev :=
  let d := (d.advance t).istSync
  let x := d.istDir toEstuary
  if ¬ d.isthmusUp then d
  else match x.sent with
    | [] => d
    | r :: rest =>
      let left := if r.count ≤ 1 then rest else r.drop 1 :: rest
      deliverEntry r (d.setIstDir toEstuary { x with sent := left, replays := 0 })

/-! ### Retry and retraining (R275 to R277) -/

/-- A retrain begins (R276). -/
def beginRetrain (d : Dev) : Dev :=
  let d := d.istSync
  let d := { d with ist := { d.ist with
      toE := { d.ist.toE with replays := 0 }, toH := { d.ist.toH with replays := 0 } } }
  (((d.set R.IST_STATUS_state 0 isTraining).inc C.IST_COUNTS_retrains).lifeTotal totRetrains).raise E.IST_RETRAIN

/-- IST_CRC_FAIL (R275): a flit with UCIe sequence number `flit` fails CRC. It is replayed, unless it has been replayed
replay_limit times in succession. -/
def execIstCrcFail (toEstuary : Bool) (flit : BitVec 8) (t : BitVec 64) (d : Dev) : Dev :=
  let d := d.advance t
  if ¬ d.isthmusUp then d
  else
    let x := d.istDir toEstuary
    let n := if x.flit = flit then x.replays else 0
    let due := match d.ist.crcAt with
      | none => true
      | some t0 => decide (tdiff d.now t0 ≥ (secU : Nat))
    let d := { d with ist := { d.ist with crcAt := if due then some d.now else d.ist.crcAt } }
    let d := (d.setIstDir toEstuary { x with flit := flit, replays := n + 1 }).inc C.IST_COUNTS_crc_errors
    let d := if due then d.raise E.IST_CRC else d
    if n ≥ d.get R.IST_CTL_replay_limit then beginRetrain d else d

/-- Modules up, and what they offer (R277). -/
def setModules (up : Nat) (d : Dev) : Dev :=
  let m := popCount up 8
  let d := d.istSync
  let d := { d with ist := { d.ist with width := m } }
  ((d.set R.IST_STATUS_modules 0 up).set R.IST_RESERVE_capacity 0 (3 * m)).set R.IST_STATUS_state 0
    (if m = 8 then isUp else isDegraded)

/-- The retrain repaired lanes (R276). -/
def noteRepairs (repaired : List LaneRepair) (d : Dev) : Dev :=
  (repaired.foldl (fun d x => d.lifeLane (0x100 + x.module.val) x.lane.toNat x.toEstuary) d).inc
    C.IST_COUNTS_lane_repairs 0 repaired.length

/-- IST_RETRAIN_DONE (R276, R277). A retrain that brings no module up is a fall to 6 or fewer. One that follows such a
retrain and brings up 7 has fallen to 7 from the width at which the Isthmus last carried flits. -/
def execIstRetrainDone (up : Nat) (repaired : List LaneRepair) (t : BitVec 64) (d : Dev) : Dev :=
  let d := d.advance t
  if d.get R.IST_STATUS_state ≠ isTraining then d
  else
    let d := noteRepairs repaired d
    let before := popCount (d.get R.IST_STATUS_modules) 8
    if up = 0 then
      let n := d.ist.fails + 1
      let d := { d with ist := { d.ist with fails := n } }
      let d := (d.set R.IST_STATUS_modules 0 0).set R.IST_RESERVE_capacity 0 0
      let d := if before > 6 then d.raise E.IST_BUDGET_BREACH else d
      if n ≥ d.get R.IST_CTL_retrain_max then (d.set R.IST_STATUS_state 0 isDown).raise E.IST_DOWN
      else beginRetrain d
    else
      let width := d.ist.width
      let now := popCount up 8
      let d := setModules up { d with ist := { d.ist with fails := 0 } }
      if now = 7 ∧ width > 7 then d.raise E.IST_DEGRADED
      else if now ≤ 6 ∧ before > 6 then d.raise E.IST_BUDGET_BREACH
      else d

/-! ### The beacon sideband (R278 to R280) -/

/-- The 256 beacon lines of a direction as its sender samples them (R278): line `l` (Table 1.4) that the sender's region
`s` drives to region `r` of the other die is bit 32 s + 4 r + l (notes/assumptions/110.md). -/
def Dev.beaconStates (d : Dev) (toEstuary : Bool) : BitVec 256 :=
  let base := if toEstuary then 0 else 8
  BitVec.ofNat 256 ((List.range 8).foldl (fun n s => n + d.beaconLines (base + s) * 0x11111111 * 2 ^ (32 * s)) 0)

/-- A sideband frame at its receiver (R279): lost frames count in the sequence that is awaited (log 20). -/
def sideFrame (x : SidebandSt) (crcOk : Bool) (seq : BitVec 16) (states : BitVec 256) (time : BitVec 32) :
    SidebandSt × Bool :=
  if crcOk ∧ (¬ x.locked ∨ seq = x.last + 1 + BitVec.ofNat 16 x.losses) then
    ({ last := seq, losses := 0, locked := true, states := states, time := time }, true)
  else ({ x with losses := x.losses + 1, locked := x.locked && decide (x.losses + 1 < 64) }, false)

/-- How far slew_max lets the Headland copy slew in a time, in units. -/
def slewRoom (ppm : Nat) (units : Int) : Nat := ppm * units.toNat / 1000000

/-- The Headland copy of hall time (R280) at a good frame: `drift` is how far it moved against Estuary's time since the
last one, `sent` the frame's time. IST_SB.offset shows its difference from the frame's time with the delay added; then
it steps there, or slews. -/
def headlandTime (sent : BitVec 32) (drift : BitVec 16) (d : Dev) : Dev :=
  let copy := d.ist.copy + drift.toInt
  let aim := (sent + BitVec.ofNat 32 (d.get R.IST_SB_delay) - BitVec.ofNat 32 d.now.toNat).toInt
  let off := copy - aim
  let far := off.natAbs > 64
  let was := (sext 16 (d.get R.IST_SB_offset)).natAbs > 64
  let d := d.set R.IST_SB_offset 0 (wrap 16 off)
  let d := if far ∧ ¬ was then d.raise E.IST_TIME else d
  let st := d.get R.TIDE_STATUS_state
  if far ∧ (st = tsStopped ∨ st = tsFaulted) then { d with ist := { d.ist with copy := aim, copyAt := d.now } }
  else
    let n := Nat.min off.natAbs (slewRoom d.time.slewMax (tdiff d.now d.ist.copyAt))
    let copyAt := if n = off.natAbs then d.now
      else d.ist.copyAt + BitVec.ofNat 64 (n * 1000000 / Nat.max 1 d.time.slewMax)
    { d with ist := { d.ist with copy := copy - (if off < 0 then -(n : Int) else n), copyAt := copyAt } }

/-- SIDEBAND_FRAME (R278 to R280): a frame of 4 ns with the sender's beacon states, `sent` (the low 32 bits of its hall
time at the launch edge) and `seq`. The frame with which a receiver that had lost the sideband relocks is its training:
`delay` is the delay measured there, which Headland uses. -/
def execSidebandFrame (toEstuary crcOk : Bool) (seq : BitVec 16) (sent : BitVec 32) (drift delay : BitVec 16)
    (t : BitVec 64) (d : Dev) : Dev :=
  let d := d.advance t
  let x := if toEstuary then d.ist.sideE else d.ist.sideH
  let y := sideFrame x crcOk seq (d.beaconStates toEstuary) sent
  let d := { d with ist := if toEstuary then { d.ist with sideE := y.1 } else { d.ist with sideH := y.1 } }
  let d := d.setB R.IST_STATUS_sb_locked 0 (d.ist.sideE.locked && d.ist.sideH.locked)
  if y.2 then
    if toEstuary then d
    else headlandTime sent drift (if x.locked then d else d.set R.IST_SB_delay 0 delay.toNat)
  else
    let d := d.inc C.IST_COUNTS_sb_frames_lost
    if y.1.losses = 4 then d.raise E.IST_SIDEBAND
    else if y.1.losses = 64 then d.raise E.IST_SIDEBAND_LOST
    else d

end Sys2Proof.Machine
end

