-- ==== Sys2Proof/Machine/Reset.lean ====
section
/-! DEFINITION. Reset of a die's core domain (R444, R521, R522) and what a core domain loses with it. -/

namespace Sys2Proof.Machine

/-- Die whose core domain holds instance `i` of a register word; none for domains LH and HP (Table 20.2). -/
def RegWord.die (w : RegWord) (i : Nat) : Option Nat :=
  let inner := (w.dims.drop 1).foldl (fun n x => n * x.1) 1
  match w.dom with
  | .lh => none
  | .hp => none
  | .coreH => some 0
  | .coreE => some 1
  | .byRegion => some (dieOf (i / inner))
  | .byLink => some (dieOfLink (i / inner))
  | .byStack => some (dieOfStack (i / inner))
  | .byDie => some (i / inner)
  | .byArb => some (arbDie (i / inner))

/-- Die of the register field that a key of `Dev.regs` names. -/
def keyDie (k : Nat) : Option Nat :=
  match regTable.find? (fun w => w.word = k / 64 / 65536) with
  | some w => w.die (k / 64 % 65536)
  | none => none

/-- The update in progress ends FAILED (R467): the event names the instance that was next. -/
def failUpdate (d : Dev) : Dev :=
  match d.sec.upd with
  | none => d
  | some x => (({ d with sec := { d.sec with upd := none } }).set R.SEC_UPDATE_STATUS_state 0 4).raise E.UPDATE_FAILED none
      x.left.head?

/-- What Headland's engines lose. -/
def loseHeadland (d : Dev) : Dev := { d with ist := {} }

/-- What Estuary's engines lose (R445, R474). -/
def loseEstuary (d : Dev) : Dev :=
  { d with
    tide := {}, plan := {}, fabric := {}, ferry := {}, time := {}, launch := {}, svc := {}, quay := {}, evt := {},
    sec := { d.sec with keys := [], tenants := [], nonce := [] },
    host := { d.host with waitPkts := [], ready := [] } }

/-- The core domain of a die is reset and held (R444, R521), which also ends what a FATAL event stopped (R500): its registers return to their reset values and its units
forget. The contents of HBM stay. -/
def coreReset (die : Nat) (d : Dev) : Dev :=
  let d := failUpdate d
  let d := { d with
    fatal := false,
    regs := d.regs.filter (fun e => !decide (keyDie e.1 = some die)),
    regions := d.regions.filter (fun e => !decide (dieOf e.1 = die)),
    links := (List.range 6).foldl (fun m l =>
      if dieOfLink l = die then tput {} m l { hosted := (tget {} m l).hosted } else m) d.links,
    fabric := { d.fabric with bank := d.fabric.bank.filter (fun q => decide (dieOf q.region ≠ die)) },
    pwr := { d.pwr with
      tripped := d.pwr.tripped.filter (fun x => !decide (x = die)),
      refresh := d.pwr.refresh.filter (fun s => !decide (dieOfStack s = die)) },
    clk := { d.clk with
      regs := d.clk.regs.filter (fun e => !decide (dieOf e.1 = die)),
      gates := d.clk.gates.filter (fun e => !decide (dieOf (e.1 / 2048) = die)) },
    sec := { d.sec with
      toBoot := d.sec.toBoot.filter (fun x => !decide (x = die)),
      admitFree := die :: d.sec.admitFree.filter (fun x => !decide (x = die)) } }
  let d := if die = 0 then loseHeadland d else loseEstuary d
  let d := (List.range 8).foldl (fun d k =>
    let r := 8 * die + k
    showLimits r ((d.set R.CLK_REGION_STATUS_f_now r 0).set R.CLK_REGION_STATUS_stretch r 0)) d
  if die = 0 then d.set R.DEV_STATUS_core_h 0 0 else d.set R.DEV_STATUS_core_e 0 0

/-- PWR_STATE.state changes (R448). -/
def setPower (s : Nat) (d : Dev) : Dev :=
  if d.get R.PWR_STATE_state = s then d else (d.set R.PWR_STATE_state 0 s).raise E.PWR_STATE

/-- The write of a BOOT package that PWR_GOOD interrupts leaves no image in configuration memory (Table 17.9); the
model's configuration memory is space 0xF of `Dev.mem`. -/
def spoilBoot (d : Dev) : Dev :=
  match d.sec.upd with
  | some x => if x.component = 0 ∧ x.since.isSome then
      { d with mem := d.mem.filter (fun c => !decide (memKey 15 0 ≤ c.1 ∧ c.1 < memKey 15 0x2000000)) } else d
  | none => d

/-- The device is DORMANT: regions, HBM and ports without power, HBM's contents lost (Table 16.9). What the
configuration memory holds stays. -/
def goDormant (d : Dev) : Dev :=
  let d := coreReset 1 (coreReset 0 (hpPowerDown d))
  let d := { d with mem := d.mem.filter (fun c => decide (c.1 ≥ memKey 15 0)), hbmErr := [] }
  ({ d with pwr := { d.pwr with boot := false, byCommand := false, quiesceStep := 0, refresh := [], dips := [], avs := [] } }).set
    R.SEC_BOOT_stage 0 0

end Sys2Proof.Machine
end

