-- ==== Sys2Proof/Machine/Power.lean ====
section
/-! DEFINITION. Supplies and power (16): setpoints, dips, resets, the power states, the quiesce sequence, and HBM
self-refresh. -/

namespace Sys2Proof.Machine

def Dev.modPwr (d : Dev) (f : PwrSt → PwrSt) : Dev := { d with pwr := f d.pwr }

/-- Codes of PWR_STATE.state (Table 16.9). -/
def psServe : Nat := 0
def psIdle : Nat := 1
def psPark : Nat := 2
def psDormant : Nat := 3

def Dev.powerState (d : Dev) : Nat := d.get R.PWR_STATE_state

/-! ### Setpoints (R441, R421) -/

/-- A setpoint as PWR_RAIL stores it: within 650 to 850 mV, in steps of 5 mV, rounded down to a step
(notes/assumptions/37.md). -/
def railValue (v : Nat) : Nat := Nat.max 650 (Nat.min 850 v) / 5 * 5

/-- PWR_RAIL_WRITE (R441): a new setpoint starts a Voltage write. -/
def execPwrRailWrite (die v : Nat) (t : BitVec 64) (d : Dev) : Dev :=
  let d := d.advance t
  let mv := railValue (bits v 0 10)
  (d.set R.PWR_RAIL_setpoint die mv).modPwr (fun p => { p with avs := tput none p.avs die (some mv) })

/-- AVS_CONFIRM (R441). -/
def execAvsConfirm (die : Nat) (t : BitVec 64) (d : Dev) : Dev :=
  let d := d.advance t
  match tget none d.pwr.avs die with
  | some mv => (d.set R.PWR_RAIL_confirmed die mv).modPwr (fun p => { p with avs := tput none p.avs die none })
  | none => d

/-- AVS_FAULT (R421): the last confirmed setpoint stays. -/
def execAvsFault (die : Nat) (t : BitVec 64) (d : Dev) : Dev :=
  let d := d.advance t
  match tget none d.pwr.avs die with
  | some _ => (d.modPwr (fun p => { p with avs := tput none p.avs die none })).raise E.AVS_FAULT none (some die)
  | none => d

/-! ### Supply monitors (R442 to R444) -/

/-- The rail is below `pct` percent of the confirmed setpoint. -/
def Dev.railBelow (d : Dev) (die mv pct : Nat) : Bool := decide (mv * 100 < d.get R.PWR_RAIL_confirmed die * pct)

/-- The rail is above the warning's clear level, 5% below the setpoint. -/
def Dev.railClear (d : Dev) (die mv : Nat) : Bool := decide (mv * 100 > d.get R.PWR_RAIL_confirmed die * 95)

/-- A dip of a rail. -/
def setDip (die : Nat) (x : Option DipSt) (d : Dev) : Dev :=
  showStretches (d.modPwr (fun p => { p with dips := tput none p.dips die x }))

/-- DIP_BEGIN (R443): the rail fell at `fell` and has stayed below the warning threshold for the filter of 50 ns. -/
def execDipBegin (die mv : Nat) (fell t : BitVec 64) (d : Dev) : Dev :=
  let d := (d.advance t).set R.PWR_RAIL_measured die mv
  if d.railBelow die mv 94 ∧ (tget none d.pwr.dips die).isNone ∧ due (some fell) (50 * nsU) t then
    setDip die (some { since := fell, low := mv }) d
  else d

/-- DIP_END (R443): the warning clears. A dip that reached the reset level is not recorded. -/
def execDipEnd (die low mv : Nat) (t : BitVec 64) (d : Dev) : Dev :=
  let d := (d.advance t).set R.PWR_RAIL_measured die mv
  match tget none d.pwr.dips die with
  | none => d
  | some x =>
    if ¬ d.railClear die mv then d
    else if x.reset then setDip die none d
    else
      let low := Nat.min low x.low
      let ns := (tdiff t x.since).toNat / nsU
      let d := setDip die none d
      let d := (d.set R.PWR_DIP_min_mv die low).set R.PWR_DIP_duration die (Nat.min (2 ^ 22 - 1) ns)
      let d := ((d.inc C.PWR_DIP_dips die).lifeTotal totDips).raise E.SUPPLY_DIP none (some die)
      d.lifeAdd ⟨0x02, leBytes 1 die ++ leBytes 2 low ++ leBytes 4 ns⟩

/-- SUPPLY_RESET (R444): the die's core domain is reset and held; the other die stops its plan. -/
def execSupplyReset (die mv : Nat) (t : BitVec 64) (d : Dev) : Dev :=
  let d := (d.advance t).set R.PWR_RAIL_measured die mv
  if ¬ d.railBelow die mv 88 ∨ ¬ d.coreUp die then d
  else
    let held := d.planHeld
    let dip := (tget none d.pwr.dips die).getD { since := t, low := mv }
    let d := (setDip die (some { dip with reset := true }) d).inc C.PWR_DIP_resets die
    let d := (coreReset die d).raise E.SUPPLY_RESET none (some die)
    let d := { d with fatal := false }
    let d := if die = 0 then (if held then d.planFault E.SUPPLY_RESET none else d) else d.stopPlan
    ((d.lifeTotal totResets).lifeAdd ⟨0x03, leBytes 1 die⟩).lifeFlush

/-! ### DORMANT (R446 to R448, R536) -/

/-- A life-log entry that is being written when PWR_GOOD is lost fails its CRC: its place is used and the log keeps its
last completed entry (Tables 16.12, 19.9). -/
def tearEntry (d : Dev) : Dev :=
  match d.life.writing with
  | [] => d
  | e :: rest =>
    if d.life.erased then
      let n := entryLength e.kind
      showBusy (d.modLife (fun x =>
        let x := fitSector n x
        { x with pos := x.pos + n, writing := rest, retried := false }))
    else d

/-- Enter DORMANT where no time is left for an event (R446). A deassertion that was observed while the device was
DORMANT counts for R448; one that brings the device into DORMANT is observed from then on. -/
def loseGood (d : Dev) : Dev :=
  let d := tearEntry (spoilBoot d)
  if d.powerState = psDormant then
    (if d.pwr.boot then goDormant d else d).modPwr (fun p => { p with wakes := true, lowSince := none })
  else ((goDormant d).set R.PWR_STATE_state 0 psDormant).modPwr (fun p =>
    { p with wakes := true, lowSince := some d.now })

/-- PWR_GOOD_LOSS (R446). -/
def execPwrGoodLoss (t : BitVec 64) (d : Dev) : Dev := loseGood ((d.advance t).set R.PWR_STATE_pwr_good 0 0)

/-- RAIL_BELOW_90_PERCENT (R536): treated as a deasserted PWR_GOOD, whatever the level of the pin. -/
def execRailBelow90Percent (t : BitVec 64) (d : Dev) : Dev := loseGood (d.advance t)

/-- PWR_GOOD_ASSERT (R448): the device wakes and boot stage 1 begins; its rails come up at their setpoints. -/
def execPwrGoodAssert (t : BitVec 64) (d : Dev) : Dev :=
  let d := (d.advance t).set R.PWR_STATE_pwr_good 0 1
  let long := lapsed d.pwr.lowSince usU t
  let d := d.modPwr (fun p => { p with lowSince := none, wakes := p.wakes && long })
  if d.powerState = psDormant ∧ d.pwr.wakes ∧ ¬ d.pwr.boot then
    let d := d.modPwr (fun p => { p with wakes := false, boot := true, avs := [] })
    let d := [0, 1].foldl (fun d i => d.set R.PWR_RAIL_confirmed i (d.get R.PWR_RAIL_setpoint i)) d
    hpPowerUp (d.set R.SEC_BOOT_stage 0 1)
  else d

/-- A refused PWR_CMD. -/
def refusePower (d : Dev) : Dev := d.setWc R.PWR_STATE_refused 0 1

/-- All stacks go into self-refresh and the Ferry starts nothing (R449). -/
def enterPark (d : Dev) : Dev :=
  if d.powerState = psPark then d else
  let d := { d with ferry := { d.ferry with stopped := true } }
  setPower psPark (d.modPwr (fun p => { p with refresh := List.range 8, parkedAt := d.now }))

/-- The re-hash interval is measured without the time spent in PARK (R449). -/
def leavePark (d : Dev) : Dev :=
  let away := d.now - d.pwr.parkedAt
  let d := d.modPwr (fun p => { p with refresh := [], byCommand := false })
  { d with ferry := { d.ferry with rehashAt := d.ferry.rehashAt + away } }

/-- PWR_CMD_PARK (R448). -/
def execPwrCmdPark (t : BitVec 64) (d : Dev) : Dev :=
  let d := d.advance t
  if d.powerState = psIdle then (enterPark d).modPwr (fun p => { p with byCommand := true }) else refusePower d

/-- PWR_CMD_IDLE (R448): refused while QUIESCE_N is asserted (Table 16.12). -/
def execPwrCmdIdle (t : BitVec 64) (d : Dev) : Dev :=
  let d := d.advance t
  if d.powerState = psPark ∧ d.pwr.byCommand ∧ ¬ d.pwr.quiesceN then
    setPower psIdle (releaseFerry (leavePark d))
  else refusePower d

/-- PWR_CMD_DORMANT (R448): the event is recorded before the core domains are reset. -/
def execPwrCmdDormant (t : BitVec 64) (d : Dev) : Dev :=
  let d := d.advance t
  if d.powerState = psIdle ∨ d.powerState = psPark then
    (goDormant (setPower psDormant d)).modPwr (fun p => { p with wakes := false })
  else refusePower d

/-- SERVE while the tide unit holds a plan, IDLE otherwise (Table 16.9). -/
def settlePower (d : Dev) : Dev :=
  if d.powerState = psServe ∧ ¬ d.planHeld then setPower psIdle d
  else if d.powerState = psIdle ∧ d.planHeld then setPower psServe d
  else d

/-! ### The quiesce sequence (R451, R452) -/

/-- Steps 1 to 4 begin (Table 16.11). -/
def beginQuiesce (d : Dev) : Dev :=
  let d := (d.modPwr (fun p => { p with quiesceStep := 1 })).lifeTotal totQuiesces
  -- between end(k) and start(k+1) no tide is in progress, and no further one starts (R59)
  let d := { d with tide := { d.tide with quiesce := true } }
  let d := if d.get R.TIDE_STATUS_state = tsRunning ∧ d.tide.ended.isSome then d.set R.TIDE_STATUS_state 0 tsQuiesced else d
  let d := (modSvc (fun v => { v with quiesce := true }) d).raise E.QUIESCE
  let d := if d.get R.SVC_STATUS_state = svServing then d.set R.SVC_STATUS_state 0 svQuiesced else d
  quiesceFerry d

/-- QUIESCE_ASSERT (R451): in DORMANT or during boot the pin is recorded, and applied after boot (Table 16.12). -/
def execQuiesceAssert (t : BitVec 64) (d : Dev) : Dev :=
  let d := (d.advance t).set R.PWR_STATE_quiesce 0 1
  if d.pwr.quiesceN then d
  else
    let d := d.modPwr (fun p => { p with quiesceN := true })
    if d.powerState = psDormant ∨ d.pwr.quiesceStep ≠ 0 then d else beginQuiesce d

/-- The tide, the boundary and the Ferry have finished (steps 2 to 4). -/
def Dev.quiet (d : Dev) : Bool :=
  decide (d.get R.TIDE_STATUS_state ≠ tsRunning) && d.svc.due.isNone &&
    (List.range 128).all (fun m => decide (d.modelState m ≠ msEvicting))

/-- Step 5 begins: the quiesce entry, flushed to configuration memory. -/
def flushQuiesce (d : Dev) : Dev :=
  if d.pwr.quiesceStep = 1 ∧ d.quiet then
    ((d.modPwr (fun p => { p with quiesceStep := 2 })).lifeAdd
      ⟨0x04, leBytes 8 d.now.toNat ++ leBytes 1 (d.get R.TIDE_STATUS_state)⟩).lifeFlush
  else d

/-- The Ferry resumes at the next step boundary (R452); at once where no step is in force that would end at one. -/
def settleFerry (d : Dev) : Dev :=
  let st := d.get R.SVC_STATUS_state
  if d.ferry.resumes ∧ ¬ d.pwr.quiesceN ∧ st ≠ svServing ∧ st ≠ svSwitching then
    releaseFerry { d with ferry := { d.ferry with resumes := false } }
  else d

/-- What a plan, serving and the Ferry do on release (R59, R60, R188, R452). -/
def resumeAll (t : BitVec 64) (d : Dev) : Dev :=
  let d := { d with tide := { d.tide with quiesce := false } }
  let d := modSvc (fun v => { v with quiesce := false }) d
  let d := if d.get R.SVC_STATUS_state = svQuiesced then d.set R.SVC_STATUS_state 0 svServing else d
  let d := settleFerry { d with ferry := { d.ferry with resumes := true } }
  let st := d.get R.TIDE_STATUS_state
  let k := d.get R.TIDE_NUMBER_tide
  if st = tsQuiesced then
    -- the next tide starts at once under R36: not before its mark
    let d := d.set R.TIDE_STATUS_state 0 tsRunning
    if tdiff t (d.markOf (k + 1)) ≥ 0 ∧ d.svc.due = none then startTide (k + 1) t d else d
  else if st = tsArmed then (acceptLaunch (d.get R.TIDE_LAUNCH_launch_tide) d).1
  else d

/-- The device leaves the quiesce (R452). -/
def endQuiesce (t : BitVec 64) (d : Dev) : Dev :=
  let parked := decide (d.powerState = psPark)
  let held := d.planHeld
  let d := (if parked then leavePark d else d).modPwr (fun p => { p with quiesceStep := 0 })
  let d := if parked then setPower (if held then psServe else psIdle) d else d
  (resumeAll t d).raise E.QUIESCE_RELEASED

/-- PARK_ENTRY (R451, step 6): the flush is complete. Where QUIESCE_N was released meanwhile, PARK is not entered and
R452 applies (Table 16.12). -/
def execParkEntry (t : BitVec 64) (d : Dev) : Dev :=
  let d := flushQuiesce (d.advance t)
  if d.pwr.quiesceStep = 2 ∧ d.life.queue = [] ∧ d.life.writing = [] then
    if d.pwr.quiesceN then enterPark (d.modPwr (fun p => { p with quiesceStep := 3 })) else endQuiesce t d
  else d

/-- QUIESCE_RELEASE (R452). -/
def execQuiesceRelease (t : BitVec 64) (d : Dev) : Dev :=
  let d := (d.advance t).set R.PWR_STATE_quiesce 0 0
  if ¬ d.pwr.quiesceN then d
  else
    let d := d.modPwr (fun p => { p with quiesceN := false })
    if d.pwr.quiesceStep = 3 then endQuiesce t d else d

/-! ### HBM in PARK (R449) -/

/-- HBM_SELF_REFRESH_TIMEOUT (R449): 100 µs without a request. -/
def execHbmSelfRefreshTimeout (s : Nat) (t : BitVec 64) (d : Dev) : Dev :=
  let d := d.advance t
  if d.powerState = psPark ∧ ¬ d.pwr.refresh.contains s ∧ tdiff t (tget 0 d.pwr.lastReq s) ≥ (100 * usU : Nat) then
    d.modPwr (fun p => { p with refresh := p.refresh ++ [s] })
  else d

end Sys2Proof.Machine
end

