-- ==== Sys2Proof/Machine/Boot.lean ====
section
/-! DEFINITION. Signed objects, configuration records, the hall table, the boot stages and recovery (13, 17). -/

namespace Sys2Proof.Machine

def Dev.modSec (d : Dev) (f : SecSt → SecSt) : Dev := { d with sec := f d.sec }

/-! ### Signed objects (R457) -/

/-- Bytes of an object, by offset and count. -/
abbrev ObjBytes := Nat → Nat → List Byte

/-- An object that lies in memory, and one in hand. -/
def objAt (m : List Host.Cell) (key : Nat) : ObjBytes := fun off n => mbytes m (key + off) n
def objOf (l : List Byte) : ObjBytes := fun off n => (l.drop off).take n

def ObjBytes.num (o : ObjBytes) (off n : Nat) : Nat := leNat (o off n)

/-- Payload length, and the payload. -/
def ObjBytes.length (o : ObjBytes) : Nat := o.num 0x10 8
def ObjBytes.payload (o : ObjBytes) : List Byte := o 0x10000 o.length

/-- The digest of the owner key fused in OTP (SEC_OWNER). -/
def Dev.ownerDigest (d : Dev) : List Byte := d.fuses.owner.flatMap (fun w => leBytes 8 w)

/-- An owner key is fused. -/
def Dev.owned (d : Dev) : Bool := d.fuses.owner.any (fun w => decide (w ≠ 0))

/-- An object of the given kind and component is accepted (R457). -/
def Dev.accepts (d : Dev) (o : ObjBytes) (kind component : Nat) : Bool :=
  decide (o.num 0 4 = 0x5349474E) && decide (o.num 4 2 = 1) && decide (o.num 6 1 = kind) &&
  decide (o.num 7 1 = component) && decide (o.length ≤ 33554432) && decide (o.num 8 4 ≥ d.fuses.svn.getD component 0) &&
  Config.verify Config.vendorKey (o 0 0x40) (o 0x40 29792) &&
  (!d.owned || (Config.verify d.sec.ownerKey (o 0 0x40) (o 0x74A0 29792) &&
    decide (shake256 d.sec.ownerKey 32 = d.ownerDigest))) &&
  decide (shake256 o.payload 32 = o 0x18 32)

/-! ### Configuration records (R455, R456) -/

/-- Key of a byte of configuration memory: the model's space 0xF of `Dev.mem`. -/
def norKey (off : Nat) : Nat := memKey 15 off

/-- One record: type, payload, and whether its digest holds. -/
structure Record where
  kind : Nat
  payload : List Byte
  good : Bool
  deriving DecidableEq, Repr

/-- The records from an offset on: they end with the area, or with a header of zeros (notes/assumptions/38.md). -/
def recordsFrom (m : List Host.Cell) : Nat → Nat → List Record
  | 0, _ => []
  | fuel + 1, off =>
    let head := mbytes m (norKey off) 16
    let n := leNat ((head.drop 4).take 4)
    if leNat head = 0 ∨ off + 48 + n > 0x4000000 then []
    else
      let payload := mbytes m (norKey (off + 16)) n
      { kind := leNat (head.take 2), payload := payload,
        good := decide (shake256 (head ++ payload) 32 = mbytes m (norKey (off + 16 + n)) 32) } ::
        recordsFrom m fuel (off + 48 + n)

def Dev.allRecords (d : Dev) : List Record := recordsFrom d.mem 699051 0x2000000

/-- Bytes of the records before an index. -/
def recordBytesTo (d : Dev) (rs : List Record) : List Byte :=
  mbytes d.mem (norKey 0x2000000) ((rs.map (fun r => 48 + r.payload.length)).foldl (· + ·) 0)

/-- The owner key of record type 6. -/
def ownerKeyOf (rs : List Record) : List Byte :=
  match rs.find? (fun r => r.kind = 6 && r.good) with
  | some r => r.payload
  | none => []

/-- On an owned device the set is accepted only with the owner's signature in its last record (R457). -/
def Dev.recordsAccepted (d : Dev) (rs : List Record) : Bool :=
  !d.owned || (match rs.getLast? with
    | some r => decide (r.kind = 0xFFFF) && decide (shake256 (ownerKeyOf rs) 32 = d.ownerDigest) &&
        Config.verify (ownerKeyOf rs) (shake256 (recordBytesTo d rs.dropLast) 32) r.payload
    | none => false)

/-- The Keeper reads the records: it keeps the good ones of known types, and reports each other (R456). -/
def readRecords (d : Dev) : Dev :=
  let rs := d.allRecords
  if d.recordsAccepted rs then
    let bad := rs.filter (fun r => !(r.good && decide ((1 ≤ r.kind ∧ r.kind ≤ 8) ∨ r.kind = 0xFFFF)))
    let d := d.modSec (fun s => { s with
      records := (rs.filter (fun r => r.good && decide (1 ≤ r.kind ∧ r.kind ≤ 8))).map (fun r => (r.kind, r.payload)),
      ownerKey := ownerKeyOf rs, recordsDigest := shake256 (recordBytesTo d rs) 32 })
    bad.foldl (fun d _ => d.raise E.CONFIG_RECORD) d
  else d.modSec (fun s => { s with records := [], ownerKey := ownerKeyOf rs, recordsDigest := [] })

/-- Word `i` of a record's payload. The payload of types 1 to 5 but 4 is the register words that it sets, in index
order (notes/assumptions/38.md). -/
def recordWord (p : List Byte) (i : Nat) : Nat := leNat ((p.drop (8 * i)).take 8)

/-! ### The hall table (R372 to R374) -/

/-- Ring sizes, and the valid entries by table index. -/
structure HallTable where
  hall : Nat
  sizes : List Nat
  entries : List (Nat × Nat)
  deriving DecidableEq, Repr

/-- A hall table record. -/
def hallTable (p : List Byte) : Option HallTable :=
  if leNat (p.take 4) ≠ 0x48414C4C then none
  else
    let at' := fun off => leNat ((p.drop off).take 1)
    some { hall := at' 4, sizes := [at' 5, at' 6, at' 7],
           entries := (List.range 65536).filterMap (fun i =>
             let e := leNat ((p.drop (16 + 2 * i)).take 2)
             if bit e 15 then some (i, e % 32768) else none) }

/-- Coordinate of an entry in a dimension. -/
def entryCoord (e dim : Nat) : Nat := bits e (5 * dim) 5

/-- Two of a list are equal. -/
def hasTwins : List Nat → Bool
  | [] => false
  | x :: l => l.contains x || hasTwins l

/-- A table is usable (R374). -/
def HallTable.usable (t : HallTable) (own : Nat) : Bool :=
  t.sizes.all (fun n => decide (1 ≤ n ∧ n ≤ 32)) &&
  t.entries.any (fun e => decide (e.1 = own)) &&
  t.entries.all (fun e => [0, 1, 2].all (fun i => decide (entryCoord e.2 i < t.sizes.getD i 0))) &&
  !hasTwins (t.entries.map (·.2))

/-- Device of the entry at coordinates. -/
def HallTable.deviceAt (t : HallTable) (c : Nat) : Nat :=
  match t.entries.find? (fun e => decide (e.2 = c)) with
  | some e => t.hall * 131072 + e.1 * 2
  | none => 0

/-- The coordinates next to an entry in a dimension. -/
def neighbourOf (e dim n : Nat) (up : Bool) : Nat :=
  let c := entryCoord e dim
  let c' := if up then (c + 1) % n else (c + n - 1) % n
  e - c * 32 ^ dim + c' * 32 ^ dim

/-- CW_PEER_EXPECT of the links of a dimension, for dies in `dies`. -/
def expectPeers (t : HallTable) (own : Nat) (dies : List Nat) (dim : Nat) (d : Dev) : Dev :=
  let n := t.sizes.getD dim 1
  if n < 2 then d
  else [0, 1].foldl (fun d s =>
    let l := 2 * dim + s
    if dies.contains (dieOfLink l) then
      ((d.set R.CW_PEER_EXPECT_device l (t.deviceAt (neighbourOf own dim n (decide (s = 0))))).set R.CW_PEER_EXPECT_link l
        (2 * dim + (1 - s))).set R.CW_PEER_EXPECT_check l 1
    else d) d

/-- The Keeper loads the hall table (R373, R374). -/
def loadHall (dies : List Nat) (d : Dev) : Dev :=
  let addr := d.get R.DEV_ADDR_address
  let own := addr / 2 % 65536
  let tables := (d.sec.records.filter (fun r => r.1 = 4)).filterMap (fun r => hallTable r.2)
  match tables.find? (fun t => t.hall = addr / 131072) with
  | some t =>
    if t.usable own then
      let e := match t.entries.find? (fun e => decide (e.1 = own)) with
        | some e => e.2
        | none => 0
      let d := if dies.contains 1 then
          let d := { d with fabric := { d.fabric with hall := t.entries.map (fun (x : Nat × Nat) =>
            (t.hall * 131072 + x.1 * 2, entryCoord x.2 0, entryCoord x.2 1, entryCoord x.2 2)) } }
          (((((d.set R.DRIFT_ROUTE_x 0 (entryCoord e 0)).set R.DRIFT_ROUTE_y 0 (entryCoord e 1)).set R.DRIFT_ROUTE_z 0
            (entryCoord e 2)).set R.DRIFT_ROUTE_nx 0 (t.sizes.getD 0 0)).set R.DRIFT_ROUTE_ny 0 (t.sizes.getD 1 0)).set
            R.DRIFT_ROUTE_nz 0 (t.sizes.getD 2 0)
        else d
      [0, 1, 2].foldl (fun d dim => expectPeers t e dies dim d) d
    else d.raise E.HALL_TABLE
  | none => d.raise E.HALL_TABLE

/-- A link's ring size is at least 2, so its fence may open (R373, R374). -/
def Dev.mayUnfence (d : Dev) (l : Nat) : Bool := d.is R.CW_PEER_EXPECT_check l && d.is R.DEV_ADDR_valid

/-! ### Stages 4 to 8 (Table 17.4) -/

/-- The Keeper applies the records to the dies that boot (Table 17.2). -/
def applyRecord (dies : List Nat) (wake : Bool) (d : Dev) (r : Nat × List Byte) : Dev :=
  let w := recordWord r.2
  if r.1 = 1 then
    dies.foldl (fun d die => (List.range 7).foldl (fun d a => setArea die a (w (8 * die + a)) d) d) d
  else if r.1 = 3 ∧ dies.contains 1 then
    let d := execTimeParentWrite (w 0) d
    ((((d.set R.TIME_CTL_slew_max 0 (bits (w 1) R.TIME_CTL_slew_max.lo R.TIME_CTL_slew_max.width)).set
      R.TIME_CTL_step_threshold 0 (bits (w 1) R.TIME_CTL_step_threshold.lo R.TIME_CTL_step_threshold.width)).set
      R.TIME_CTL_exchange 0 (bits (w 1) R.TIME_CTL_exchange.lo R.TIME_CTL_exchange.width)).set
      R.TIME_CTL_loss_count 0 (bits (w 1) R.TIME_CTL_loss_count.lo R.TIME_CTL_loss_count.width)).set
      R.TIME_CTL_host_wait 0 (bits (w 1) R.TIME_CTL_host_wait.lo R.TIME_CTL_host_wait.width)
  else if r.1 = 5 ∧ wake then
    let v := w 0 / 2 * 2 + d.get R.DEV_FUNC_MODE_boot_src
    let fs := [R.DEV_FUNC_MODE_link_train, R.DEV_FUNC_MODE_time_servo, R.DEV_FUNC_MODE_weight_load,
      R.DEV_FUNC_MODE_eviction, R.DEV_FUNC_MODE_launch_relay, R.DEV_FUNC_MODE_drift_retry, R.DEV_FUNC_MODE_scrub_refetch,
      R.DEV_FUNC_MODE_admission, R.DEV_FUNC_MODE_budget_refill]
    let d := fs.foldl (fun d f => d.set f 0 (bits v f.lo 1)) d
    d.set R.DEV_FUNC_MODE_ACTIVE_active 0 v
  else d

/-- Stage 4: the records, then the hall table, then the fences, which R371 and R374 may hold. -/
def stageKeeper (dies : List Nat) (wake : Bool) (d : Dev) : Dev :=
  let d := loadHall dies (d.sec.records.foldl (applyRecord dies wake) d)
  let fences := d.sec.records.filter (fun r => r.1 = 2)
  ((List.range 6).filter (fun l => dies.contains (dieOfLink l))).foldl (fun d l =>
    fences.foldl (fun d r => if bit (recordWord r.2 l) 0 ∨ ¬ d.mayUnfence l then d else d.set R.CW_FENCE_fence l 0) d) d

/-- Every scratchpad of a die is zeroed with valid check bits (R157). -/
def zeroScratch (die : Nat) (d : Dev) : Dev :=
  let d := { d with mem := d.mem.filter (fun c => !decide (c.1 / 2 ^ 40 = 1 + die)) }
  (List.range 8).foldl (fun d k => (((d.reg (8 * die + k)).cells.map (·.1))).foldl (fun d c =>
    d.modCell (8 * die + k) c (fun x => { x with spErr := [] })) d) d

/-- Zero an area of a die (R445). -/
def zeroArea (die a : Nat) (d : Dev) : Dev := let x := d.area die a; zeroHbm die x.1 x.2 d

/-- Stage 5: scratchpads; with Estuary, the areas that a lost residency table governed (R445); with Headland alone, its
shard copies are bad (R444). -/
def stageHbm (dies : List Nat) (d : Dev) : Dev :=
  let d := dies.foldl (fun d die => zeroScratch die d) d
  if dies.contains 1 then
    [0, 1].foldl (fun d die => [areaWeight, areaKv, areaPlan, areaFerry].foldl (fun d a => zeroArea die a d) d) d
  else
    (d.ferry.shards.filter (fun e => bit e.2.good 0)).foldl (fun d e => markBad (e.1 / 2 ^ 32) (e.1 % 2 ^ 32) 0 d) d

/-- Stage 6: the Isthmus, the links that are not fenced, the Quay ports. -/
def stageLinks (dies : List Nat) (d : Dev) : Dev :=
  let d := if d.coreUp 0 ∧ d.coreUp 1 then setModules 255 { d with ist := {} } else d
  let d := ((List.range 6).filter (fun l => dies.contains (dieOfLink l))).foldl (fun d l =>
    if d.is R.CW_FENCE_fence l then d.set R.CW_STATUS_state l lsFenced
    else seekTraining l (d.set R.CW_STATUS_state l lsDown)) d
  if dies.contains 1 ∧ d.quayPresent then (d.set R.QUAY_PORT_enable 0 1).set R.QUAY_PORT_enable 1 1 else d

/-- Stage 7: the time unit starts under TIME_PARENT. -/
def stageTime (dies : List Nat) (d : Dev) : Dev := if dies.contains 1 then chooseSource true (latchTimeCtl d) else d

/-- Stage 8: the lock, the event, and IDLE when the whole device booted; a quiesce recorded meanwhile begins
(Table 16.12). -/
def stageDone (dies : List Nat) (wake : Bool) (d : Dev) : Dev :=
  let d := (d.set R.SEC_BOOT_stage 0 8).set R.DEV_STATUS_boot_lock 0 1
  let d := d.modSec (fun s => { s with toBoot := s.toBoot.filter (fun x => !dies.contains x) })
  let d := if d.is R.DEV_ADDR_valid then d else d.raise E.STRAP_PARITY
  let d := d.raise E.BOOT_DONE
  let d := if wake then setPower psIdle (d.modPwr (fun p => { p with boot := false })) else d
  if d.pwr.quiesceN then
    (if d.pwr.quiesceStep = 0 then beginQuiesce d
     else { modSvc (fun v => { v with quiesce := true }) d with tide := { d.tide with quiesce := true } })
  else d

/-- Stages 4 to 8 for some dies. -/
def bootOn (dies : List Nat) (wake : Bool) (d : Dev) : Dev :=
  stageDone dies wake (stageTime dies (stageLinks dies (stageHbm dies (stageKeeper dies wake d))))

/-- Stages 4 to 8 from an image: what it measures as, and its version. -/
def bootImage (o : ObjBytes) (recovered : Bool) (d : Dev) : Dev :=
  let wake := d.pwr.boot
  let d := d.modSec (fun s => { s with imageDigest := shake256 o.payload 32, recvOpen := false, recv := [] })
  let d := ((d.set R.SEC_SVN_active 0 (o.num 8 4)).set R.SEC_SVN_active 1 (o.num 8 4)).setB R.SEC_BOOT_recovered 0 recovered
  bootOn d.sec.toBoot wake (readRecords d)

/-- RECOVERY_WAIT (R460). -/
def waitRecovery (failed : Bool) (d : Dev) : Dev :=
  let d := (d.set R.SEC_BOOT_stage 0 14).modSec (fun s => { s with recoverAt := d.now, recv := [], recvOpen := false })
  let d := if failed then ((d.set R.SEC_BOOT_failed_stage 0 3).setWc R.EVT_STATUS_boot_alert 0 1).updateAlert else d
  d.raise E.RECOVERY_WAIT

/-- Stages 2 and 3: the boot image of configuration memory, or recovery. -/
def bootNor (d : Dev) : Dev :=
  let o := objAt d.mem (norKey 0)
  if d.accepts o 0 0 then bootImage o false d else waitRecovery true d

/-- The boot takes its source by DEV_FUNC_MODE.boot_src, and DEV_FUNC_MODE_ACTIVE bit 0 shows the source taken (R23,
Tables 1.6 and 1.8). -/
def takeBootSource (d : Dev) : Dev :=
  let old := d.get R.DEV_FUNC_MODE_ACTIVE_active
  if bit old 0 = d.is R.DEV_FUNC_MODE_boot_src then d
  else (d.set R.DEV_FUNC_MODE_ACTIVE_active 0 (setBit old 0 (d.is R.DEV_FUNC_MODE_boot_src))).raise E.MODE_CHANGED none (some 0)

/-- Stages 2 to 8 (R458, R460). -/
def bootStages (d : Dev) : Dev :=
  let d := takeBootSource d
  if d.is R.DEV_FUNC_MODE_boot_src then waitRecovery false d else bootNor d

/-- BOOT (R458): the device has been woken and both core domains have left reset (R536). -/
def execBoot (t : BitVec 64) (d : Dev) : Dev :=
  let d := d.advance t
  if d.pwr.boot ∧ d.get R.SEC_BOOT_stage = 1 ∧ d.coreUp 0 ∧ d.coreUp 1 then bootStages d else d

/-- A die's core domain leaves reset: the dip that brought the reset is over, its DFLLs start, the die has yet to boot,
and on Estuary the meter's mirror is due from now. -/
def leaveReset (die : Nat) (d : Dev) : Dev :=
  let d := if (tget none d.pwr.dips die).isSome then setDip die none d else d
  if die = 0 then startDflls 0 ((d.set R.DEV_STATUS_core_h 0 1).modSec (fun s => { s with toBoot := s.toBoot ++ [0] }))
  else
    let d := startDflls 1 ((d.set R.DEV_STATUS_core_e 0 1).modSec (fun s => { s with toBoot := s.toBoot ++ [1] }))
    { d with mirrorAt := d.now }

/-- A die released after a reset of its own boots alone (R462): Headland needs Estuary booted. -/
def bootAlone (die : Nat) (d : Dev) : Dev :=
  if d.pwr.boot then d
  else if die = 0 then (if d.coreUp 1 ∧ ¬ d.sec.toBoot.contains 1 then bootOn [0] false d else d)
  else bootStages d

/-- CORE_RESET_RELEASE (R444, R536): the rail has been above the warning clear level for 1 ms; the domain leaves reset,
and after a reset of a die alone it boots alone. -/
def execCoreResetRelease (die mv : Nat) (t : BitVec 64) (d : Dev) : Dev :=
  let d := (d.advance t).set R.PWR_RAIL_measured die mv
  if d.coreUp die ∨ ¬ d.railClear die mv ∨ (d.powerState = psDormant ∧ ¬ d.pwr.boot) then d
  else bootAlone die (leaveReset die d)

/-! ### Recovery (R461) -/

/-- Answers to a recovery object. -/
def rcAccepted : Nat := 0
def rcOutOfOrder : Nat := 1
def rcTooLong : Nat := 2
def rcRejected : Nat := 3

/-- RECOVERY_OBJECT (R461). -/
def execRecoveryObject (off : Nat) (data : List Byte) (t : BitVec 64) (d : Dev) : Dev :=
  let d := d.advance t
  if d.get R.SEC_BOOT_stage ≠ 14 ∨ d.host.held then d
  else
    let have' := d.sec.recv.length
    let answer := fun (c : Nat) (d : Dev) => doeAnswer 1 (leBytes 4 c) d
    if off ≠ have' then answer rcOutOfOrder d
    else if data.length > 1048576 ∨ have' + data.length > 0x10000 + 33554432 then answer rcTooLong d
    else if data = [] then
      let o := objOf d.sec.recv
      if d.accepts o 0 0 then bootImage o true (answer rcAccepted d)
      else answer rcRejected (d.modSec (fun s => { s with recv := [], recvOpen := false, recoverAt := t }))
    else answer rcAccepted (d.modSec (fun s => { s with recv := s.recv ++ data, recvOpen := true }))

/-- RECOVERY_WAIT_EXPIRY (R461): no transfer has begun, so the image of configuration memory is tried again. -/
def execRecoveryWaitExpiry (t : BitVec 64) (d : Dev) : Dev :=
  let d := d.advance t
  if d.get R.SEC_BOOT_stage = 14 ∧ ¬ d.sec.recvOpen ∧
      tdiff t d.sec.recoverAt ≥ (d.get R.SEC_CTL_recovery_wait * secU : Nat) then bootNor d
  else d

/-! ### Power-on reset of domain LH (R370, R371) -/

/-- The straps: address bits as Table 13.3 gives them, parity, and the sampled straps. -/
def sampleStraps (v : Nat) (d : Dev) : Dev :=
  let addr := bits v 0 3 * 131072 + bits v 3 5 * 4096 + bits v 8 5 * 128 + bits v 13 4 * 8 + bits v 17 2 * 2
  ((d.set R.DEV_ADDR_address 0 addr).setB R.DEV_ADDR_valid 0 (decide (popCount v 20 % 2 = 1))).set R.DEV_ADDR_straps 0 v

/-- LH_POWER_ON_RESET: every domain is reset, the straps are sampled, the fuses are read, and the life log is found. -/
def execLhPowerOnReset (straps : Nat) (d : Dev) : Dev :=
  let fresh := { Dev.reset with
    fuses := d.fuses, free := d.free, mem := d.mem.filter (fun c => decide (c.1 ≥ memKey 15 0)) }
  let fresh := sampleStraps straps fresh
  let fresh := (List.range 7).foldl (fun x c => x.set R.SEC_SVN_fused c (d.fuses.svn.getD c 0)) fresh
  restoreLife d.life fresh

end Sys2Proof.Machine
end

