-- ==== Sys2Proof/Machine/Mgmt.lean ====
section
/-! DEFINITION. Management requests and the Keeper (R17 to R19, R199). -/

namespace Sys2Proof.Machine

/-- Bytes of a free value. -/
def drawBytes (n : Nat) (d : Dev) : List Byte × Dev := (leBytes n d.draw.1, d.draw.2)

/-- Die of a model's mask that holds a verified copy of a shard. -/
def Dev.goodDie (d : Dev) (m s : Nat) : Option Nat := (d.diesOf m).find? (fun i => bit (d.shard m s).good i)

/-- Header bytes 0x000 to 0x04F of a shard that leaves under R199 (Table 6.3). -/
def relayHeader (d : Dev) (m s : Nat) (iv : List Byte) : List Byte :=
  leBytes 4 0x53485244 ++ leBytes 2 1 ++ leBytes 1 1 ++ leBytes 1 0 ++ leBytes 8 (d.get R.FERRY_MODEL_model_id m) ++
  leBytes 4 s ++ leBytes 4 (d.get R.FERRY_MODEL_shard_count m) ++ leBytes 8 (d.shard m s).length ++ iv ++
  leBytes 4 (d.get R.FERRY_MODEL_generation m) ++ (d.shard m s).digest

/-- A neighbour asks for a shard (R199): its plaintext goes out under the STORED key with a fresh iv, or the request is
refused. -/
def giveShard (p : Packet) (m s : Nat) (d : Dev) : Dev :=
  match d.goodDie m s, tget none d.sec.keys (d.get R.FERRY_MODEL_key_index m) with
  | some die, some key =>
    if (d.shard m s).direct then respond p opBounce stRefused [] d
    else
      let iv := (drawBytes 12 d).1
      let d := (drawBytes 12 d).2
      let head := relayHeader d m s iv
      let n := (d.shard m s).length
      let a := d.extent m die + (d.shard m s).offset
      let x := hbmRead byFerry none die a n d
      let d := x.1
      if x.2 then respond p opBounce stRefused [] d
      else
        let k := storedKey key (d.get R.FERRY_MODEL_model_id m) s (d.get R.FERRY_MODEL_generation m)
        let c := xorBytes (mbytes d.mem (hbmKey die a) n) (Config.gcmStream k iv 0 n)
        let h := head ++ Config.gcmTag k iv head c ++ leBytes 1952 0
        relayBytes [p.src.toNat] 0 (h ++ c) (respond p opMgmtResp stOk [] d)
  | _, _ => respond p opBounce stRefused [] d

/-- The Keeper answers a management request under its firmware's policy: what it says is a free value. -/
def keeperAnswer (p : Packet) (asks : Option (Nat × Nat)) (d : Dev) : Dev :=
  match asks with
  | some (m, s) => giveShard p m s d
  | none =>
    let n := d.draw.1 % 117
    let x := drawBytes (8 * n) d.draw.2
    respond p opMgmtResp stOk x.1 x.2

/-- A management request reaches the Keeper: in hot restart it waits (R19). -/
def takeMgmt (p : Packet) (asks : Option (Nat × Nat)) (d : Dev) : Dev :=
  if d.fabric.keeperRestart then { d with fabric := { d.fabric with mgmt := d.fabric.mgmt ++ [(p, asks)] } }
  else keeperAnswer p asks d

/-- The Keeper is ready: waiting requests are answered in arrival order (R19). -/
def keeperReady (d : Dev) : Dev :=
  let waiting := d.fabric.mgmt
  waiting.foldl (fun d w => keeperAnswer w.1 w.2 d)
    { d with fabric := { d.fabric with mgmt := [], keeperRestart := false } }

/-- KEEPER_RESTART_DONE (R19). -/
def execKeeperRestartDone (d : Dev) : Dev := if d.fabric.keeperRestart then keeperReady d else d

/-- The bytes of HBM that a stream of the admitted plan reads or writes hold a die address. -/
def Dev.streamHolds (d : Dev) (die a : Nat) : Bool :=
  d.plan.landings.any (fun x => decide (x.kind ≠ 0 ∧ dieOf x.region = die ∧ x.hbm % 2 ^ 39 ≤ a ∧
    a < x.hbm % 2 ^ 39 + x.bytes))

/-- A staging buffer of the slow tier, which holds decrypted weights (R202), holds an Estuary die address. -/
def Dev.stagingHolds (d : Dev) (die a : Nat) : Bool :=
  die = 1 && d.ferry.slow.any (fun e => match e.2 with
    | some x => [x.base0, x.base1].any (fun b => decide (b ≤ a ∧ a < b + x.size))
    | none => false)

/-- Addresses that the Keeper may not reach (R17): scratchpads, plan memory, landing buffers, and HBM that holds plans,
weights, KV or activations. The key store has no address. -/
def Dev.keeperBarred (d : Dev) (a : Nat) : Bool :=
  let space := bits a 40 4
  if space = 0 then
    let die := bits a 39 1
    let off := bits a 0 39
    let area := d.areaAt die off 1
    decide (area = areaPlan ∨ area = areaWeight ∨ area = areaKv) || d.streamHolds die off ||
      d.stagingHolds die off
  else decide (space = 1 ∨ space = 2 ∨ space = 3 ∨ space = 6)

/-- KEEPER_ACCESS (R17): an access to protected memory is refused and raises EV_KEEPER_ACCESS. -/
def execKeeperAccess (a : Nat) (d : Dev) : Dev :=
  if d.keeperBarred a then d.raise E.KEEPER_ACCESS else d

end Sys2Proof.Machine
end

