-- ==== Sys2Proof/Machine/Security.lean ====
section
/-! DEFINITION. Attestation, debug unlock, updates while running, model keys, and regions and cells out of service (17). -/

namespace Sys2Proof.Machine

/-! ### Attestation (R469 to R472) -/

/-- What the attestation key is derived from: the device's secret, which the model names by its serial, and the digests
in use (R469). -/
def Dev.attestSeed (d : Dev) : List Byte := leBytes 8 d.fuses.serial ++ d.sec.imageDigest ++ d.sec.recordsDigest

/-- A certificate with its length. -/
def certEntry (c : List Byte) : List Byte := leBytes 4 c.length ++ c

/-- The vendor certificate of record type 7. -/
def Dev.vendorCert (d : Dev) : List Byte :=
  match d.sec.records.find? (fun r => r.1 = 7) with
  | some r => r.2
  | none => []

/-- GET_CERTS (Table 17.7): the vendor, KEM and attestation certificates. -/
def execGetCerts (d : Dev) : Dev :=
  if d.host.held then d
  else doeAnswer 1 (certEntry d.vendorCert ++ certEntry (Config.certificate 0 (leBytes 8 d.fuses.serial)) ++
    certEntry (Config.certificate 1 d.attestSeed)) d

/-- Payload digest of a component's active version: 32 bytes. -/
def Dev.activeDigest (d : Dev) (c : Nat) : List Byte :=
  let x := tget [] d.sec.active c
  if x = [] then leBytes 32 0 else x

/-- The quote of R472. Registers go in as words of 8 bytes, `unlocked` as one byte, versions as 4 bytes
(notes/assumptions/39.md). -/
def Dev.quoteOf (d : Dev) (nonce : List Byte) : List Byte :=
  nonce ++ leBytes 8 (d.regOf R.DEV_ADDR_address) ++ leBytes 8 d.now.toNat ++ leBytes 1 (d.get R.SEC_DEBUG_unlocked) ++
  d.ownerDigest ++ d.sec.imageDigest ++ d.sec.recordsDigest ++
  [1, 2, 3, 4, 5].flatMap (fun c => d.activeDigest c ++ leBytes 4 (d.get R.SEC_SVN_active c)) ++
  (List.range 7).flatMap (fun c => leBytes 4 (d.get R.SEC_SVN_fused c))

/-- QUOTE (Table 17.7, R472). -/
def execQuote (nonce : List Byte) (d : Dev) : Dev :=
  if d.host.held then d
  else
    let q := d.quoteOf nonce
    doeAnswer 1 (q ++ Config.sign 0 d.attestSeed q) (d.modSec (fun s => { s with nonce := nonce }))

/-! ### Debug unlock (R476) -/

/-- The token's payload: DEV_ADDR in 3 bytes, then the nonce of the last QUOTE (notes/assumptions/39.md). -/
def Dev.tokenOk (d : Dev) (token : List Byte) : Bool :=
  let o := objOf token
  d.accepts o 1 0xFE && !decide (d.sec.nonce = []) &&
    decide (o.payload = leBytes 3 (d.get R.DEV_ADDR_address) ++ d.sec.nonce)

/-- The key store loses every entry (R474). -/
def clearKeys (d : Dev) : Dev := (d.modSec (fun s => { s with keys := [], tenants := [] })).set R.SEC_KEY_VALID_valid 0 0

/-- Residency entries that are not EMPTY or REGISTERED become REGISTERED (R476). -/
def dropModels (d : Dev) : Dev :=
  (List.range 128).foldl (fun d m =>
    if d.modelState m = msEmpty ∨ d.modelState m = msRegistered then d
    else (forgetModel m (discardKept m d)).set R.FERRY_MODEL_state m msRegistered) d

/-- What R476 does before the unlocked bit is set. -/
def lockDown (d : Dev) : Dev :=
  let d := planStops E.DEBUG_UNLOCKED (failUpdate d)
  let d := zeroScratch 1 (zeroScratch 0 (clearKeys d))
  let d := [0, 1].foldl (fun d die => [areaWeight, areaKv, areaPlan].foldl (fun d a => zeroArea die a d) d) d
  let d := abortRuns (fun _ => true) false d
  modSvc (fun v => { v with endAll := true }) ((dropModels d).raise E.DEBUG_UNLOCKED)

/-- DEBUG_UNLOCK (R476). -/
def execDebugUnlock (token : List Byte) (t : BitVec 64) (d : Dev) : Dev :=
  let d := d.advance t
  if d.host.held then d
  else if d.tokenOk token then doeAnswer 1 (leBytes 4 0) ((lockDown d).set R.SEC_DEBUG_unlocked 0 1)
  else doeAnswer 1 (leBytes 4 3) d

/-! ### Security versions (R463) -/

/-- SVN_ADVANCE: the fused version rises to that of the active version, and never falls. -/
def execSvnAdvance (c : Nat) (d : Dev) : Dev :=
  if c > 6 then d
  else
    let v := Nat.max (d.fuses.svn.getD c 0) (d.get R.SEC_SVN_active c)
    ({ d with fuses := { d.fuses with svn := d.fuses.svn.set c v } }).set R.SEC_SVN_fused c v

/-! ### Updates (R464 to R467) -/

def upIdle : Nat := 0
def upChecking : Nat := 1
def upPending : Nat := 2
def upDone : Nat := 3
def upFailed : Nat := 4
def upRejected : Nat := 5

def Dev.modUpd (d : Dev) (f : UpdSt → UpdSt) : Dev := d.modSec (fun s => { s with upd := s.upd.map f })

/-- The package at a hall address in area SYSTEM, as far as it lies there. -/
def Dev.packageAt (d : Dev) (addr : Nat) : List Byte :=
  match d.hbmAt addr with
  | some (die, a) =>
    let n := 0x10000 + Nat.min 33554432 (mnum d.mem (hbmKey die (a + 0x10)) 8)
    if addr % 65536 = 0 ∧ d.areaAt die a 0x10000 = areaSystem ∧ d.areaAt die a n = areaSystem then
      mbytes d.mem (hbmKey die a) n
    else []
  | none => []

/-- UPDATE_STAGE (R464): the package is copied and its check begins; ignored while one is in progress. -/
def execUpdateStage (t : BitVec 64) (d : Dev) : Dev :=
  let d := d.advance t
  if d.sec.upd.isSome then d
  else
    let bytes := d.packageAt (d.get R.SEC_UPDATE_ADDR_addr)
    let c := (objOf bytes).num 7 1
    ((d.modSec (fun s => { s with upd := some { bytes := bytes, component := c } })).set R.SEC_UPDATE_STATUS_state 0
      upChecking).set R.SEC_UPDATE_STATUS_done_mask 0 0

/-- Instances that a component has (Table 17.5); a component without instances activates once, as 0. -/
def instancesOf (c mask : Nat) : List Nat :=
  if c = 2 ∨ c = 3 then (List.range 8).filter (fun i => bit mask i)
  else if c = 5 then (List.range 16).filter (fun i => bit mask i)
  else [0]

/-- The package ends; its version is active (R467). -/
def finishUpdate (x : UpdSt) (d : Dev) : Dev :=
  let o := objOf x.bytes
  let d := d.modSec (fun s => { s with upd := none })
  let d := if x.component = 0 then d
    else (d.modSec (fun s => { s with active := tput [] s.active x.component (o 0x18 32) })).set R.SEC_SVN_active x.component
      (o.num 8 4)
  (d.set R.SEC_UPDATE_STATUS_state 0 upDone).raise E.UPDATE_DONE

/-- An instance is activated (R465). -/
def finishInst (i : Nat) (d : Dev) : Dev :=
  match d.sec.upd with
  | none => d
  | some x =>
    let left := x.left.filter (fun j => !decide (j = i))
    let d := d.modUpd (fun u => { u with left := left, since := none })
    let d := if x.component = 2 ∨ x.component = 3 ∨ x.component = 5 then
        d.set R.SEC_UPDATE_STATUS_done_mask 0 (setBit (d.get R.SEC_UPDATE_STATUS_done_mask) i true)
      else d
    if left = [] then finishUpdate x d else d

/-- UPDATE_CHECK_DONE (R464): PENDING, or REJECTED under R457 or for a component that Table 17.5 does not name. -/
def execUpdateCheckDone (t : BitVec 64) (d : Dev) : Dev :=
  let d := d.advance t
  match d.sec.upd with
  | none => d
  | some x =>
    if d.get R.SEC_UPDATE_STATUS_state ≠ upChecking then d
    else
      let o := objOf x.bytes
      let d := d.set R.SEC_UPDATE_STATUS_component 0 x.component
      if x.component ≤ 6 ∧ d.accepts o 1 x.component then
        let left := instancesOf x.component (o.num 0xC 4)
        let d := (d.modUpd (fun u => { u with left := left })).set R.SEC_UPDATE_STATUS_state 0 upPending
        if left = [] then finishUpdate x d else d
      else (d.modSec (fun s => { s with upd := none })).set R.SEC_UPDATE_STATUS_state 0 upRejected

/-- A DONE interval of at least 2 µs: from the region's last clock edge of the tide to the next tide's mark. -/
def Dev.longDone (d : Dev) (r : Nat) : Bool :=
  decide ((d.reg r).phase = .done) &&
    decide (tdiff (d.markOf (d.get R.TIDE_NUMBER_tide + 1)) (d.reg r).edge ≥ (2 * usU : Nat))

/-- The quiet point of an instance (Table 17.5); HBM_TRAIN waits for the release of QUIESCE_N (Table 17.9). -/
def Dev.quietPoint (d : Dev) (x : UpdSt) (i : Nat) : Bool :=
  match x.component with
  | 2 =>
    if i < 6 then !d.reserves i
    else (List.range 64).all (fun t => decide (d.get R.QUAY_TARGET_port t ≠ i - 6 ∨ d.get R.QUAY_TARGET_state t ≠ qsReady))
  | 3 => decide (d.get R.HB_RESERVE_slots i = 0 ∧ d.powerState ≠ psPark ∧ ¬ d.pwr.quiesceN)
  | 4 => d.svc.due.isSome || decide (d.get R.SVC_STATUS_state = svOff ∨ d.get R.SVC_STATUS_state = svIdle)
  | 5 =>
    decide (x.lastTide ≠ some (d.get R.TIDE_NUMBER_tide)) &&
      (decide (d.get R.TIDE_STATUS_state = tsStopped) || !d.inService i || d.longDone i)
  | _ => true

/-- Activation of an instance at its quiet point (Table 17.5). -/
def activateInst (x : UpdSt) (i : Nat) (d : Dev) : Dev :=
  let begin' := fun (d : Dev) => d.modUpd (fun u => { u with since := some d.now })
  match x.component with
  | 1 => begin' { d with fabric := { d.fabric with keeperRestart := true } }
  | 2 => finishInst i (if i < 6 then linkDown i dcHost d else quayDown (i - 6) d)
  | 3 => begin' d
  | 4 => finishInst i d
  | 5 => finishInst i (d.modUpd (fun u => { u with lastTide := some (d.get R.TIDE_NUMBER_tide) }))
  | _ => begin' d

/-- UPDATE_ACTIVATE (R465, R467): the next instance, at its quiet point. -/
def execUpdateActivate (fails : Bool) (t : BitVec 64) (d : Dev) : Dev :=
  let d := d.advance t
  match d.sec.upd with
  | none => d
  | some x =>
    match x.left with
    | [] => d
    | i :: _ =>
      if d.get R.SEC_UPDATE_STATUS_state ≠ upPending ∨ x.since.isSome ∨ ¬ d.quietPoint x i then d
      else if fails then failUpdate d
      else activateInst x i d

/-- The activation of a component is in progress. -/
def Dev.activating (d : Dev) (p : UpdSt → Bool) : Option UpdSt :=
  match d.sec.upd with
  | some x => if x.since.isSome && p x then some x else none
  | none => none

/-- KEEPER_READY (R466). -/
def execKeeperReady (t : BitVec 64) (d : Dev) : Dev :=
  let d := d.advance t
  match d.activating (fun x => decide (x.component = 1)) with
  | some _ => finishInst 0 (keeperReady d)
  | none => d

/-- KEEPER_READY_TIMEOUT (R466): the previous firmware is restarted, and the update ends FAILED. -/
def execKeeperReadyTimeout (t : BitVec 64) (d : Dev) : Dev :=
  let d := d.advance t
  match d.activating (fun x => decide (x.component = 1)) with
  | some x => if tdiff t (x.since.getD 0) ≥ (2 * secU : Nat) then failUpdate d else d
  | none => d

/-- STACK_RETRAIN_DONE (Table 17.5). -/
def execStackRetrainDone (s : Nat) (t : BitVec 64) (d : Dev) : Dev :=
  let d := d.advance t
  match d.activating (fun x => decide (x.component = 3 ∧ x.left.head? = some s)) with
  | some _ => finishInst s d
  | none => d

/-- First byte of configuration memory that a component's payload is written to, and the room there (Table 17.1). -/
def norArea (c : Nat) : Nat := if c = 0 then 0 else 0x2000000

/-- CONFIG_WRITE_DONE (R464, R467): the payload is in configuration memory, or the version there stays. -/
def execConfigWriteDone (ok : Bool) (t : BitVec 64) (d : Dev) : Dev :=
  let d := d.advance t
  match d.activating (fun x => decide (x.component = 0 ∨ x.component = 6)) with
  | some x =>
    if ¬ ok then failUpdate d
    else
      let base := norKey (norArea x.component)
      let clean := d.mem.filter (fun c => !decide (base ≤ c.1 ∧ c.1 < base + 0x2000000))
      finishInst 0 { d with mem := mwrite clean base (objOf x.bytes).payload }
  | none => d

/-! ### Model keys (R473, R474) -/

/-- Answer of SEC_KEY_CMD. -/
def keyResult (v : Nat) (d : Dev) : Dev := d.set R.SEC_KEY_STATUS_result 0 v

/-- An install blob of 1,628 bytes in area SYSTEM of this device (R473). -/
def Dev.keyBlob (d : Dev) : Option (List Byte) :=
  match d.hbmAt (d.get R.SEC_KEY_ADDR_addr) with
  | some (die, a) => if d.areaAt die a 1628 = areaSystem then some (mbytes d.mem (hbmKey die a) 1628) else none
  | none => none

/-- KEY_INSTALL (R473). A blob that does not lie in area SYSTEM installs nothing and reports TAG
(notes/assumptions/40.md). -/
def execKeyInstall (v : Nat) (d : Dev) : Dev :=
  let e := bits v 2 6
  let tenant := bits v 8 8
  if bit (d.get R.SEC_KEY_VALID_valid) e then keyResult 2 d
  else match d.keyBlob with
    | none => keyResult 1 d
    | some b =>
      let part := fun (off n : Nat) => (b.drop off).take n
      let k := Config.kemDecap d.fuses.serial (part 0 1568)
      let aad := leBytes 1 e ++ leBytes 1 tenant ++ leBytes 3 (d.get R.DEV_ADDR_address)
      let c := part 1580 32
      if Config.gcmTag k (part 1568 12) aad c ≠ part 1612 16 then keyResult 1 d
      else
        let key := xorBytes c (Config.gcmStream k (part 1568 12) 0 32)
        let d := d.modSec (fun s => { s with
          keys := tput none s.keys e (some key), tenants := tput 0 s.tenants e tenant })
        keyResult 0 (d.set R.SEC_KEY_VALID_valid 0 (setBit (d.get R.SEC_KEY_VALID_valid) e true))

/-- KEY_CLEAR (R473). -/
def execKeyClear (v : Nat) (d : Dev) : Dev :=
  let e := bits v 2 6
  let d := d.modSec (fun s => { s with keys := tput none s.keys e none, tenants := tput 0 s.tenants e 0 })
  keyResult 0 (d.set R.SEC_KEY_VALID_valid 0 (setBit (d.get R.SEC_KEY_VALID_valid) e false))

/-! ### Regions and cells out of service (R468) -/

/-- SERVICE_WRITE: DEV_REGION_SERVICE, or DEV_CELL_SERVICE of a region. -/
def execServiceWrite (region : Option Nat) (v : Nat) (d : Dev) : Dev :=
  match region with
  | none => d.set R.DEV_REGION_SERVICE_in_service 0 v
  | some r => d.set R.DEV_CELL_SERVICE_in_service r v

/-- Regions, and present cells as 16 + index, out of service that the admitted plan does not use. -/
def Dev.outOfService (d : Dev) : List Nat :=
  (List.range 16).flatMap (fun r =>
    let used := d.usedRegions.contains r
    (if d.inService r || used then [] else [r]) ++
    ((cellsOf r).filter (fun c => bit (d.presentCells r) c && !bit (d.get R.DEV_CELL_SERVICE_in_service r) c &&
      !(used && bit (d.get R.SEQ_TARGET_target r) c))).map (fun c => 16 + cellIx r c))

/-- After a release or an admission, what is out of service is gated dark and raises EV_REGION_SERVICE (R468). -/
def gateService (d : Dev) : Dev :=
  let now := d.outOfService
  let new := now.filter (fun x => !d.sec.dark.contains x)
  let d := d.modSec (fun s => { s with dark := now })
  new.foldl (fun d x =>
    if x < 16 then (clearGates x d).raise E.REGION_SERVICE (some x) none
    else (clearCellGates ((x - 16) / 32) ((x - 16) % 32) d).raise E.REGION_SERVICE (some ((x - 16) / 32))
      (some ((x - 16) % 32))) d

end Sys2Proof.Machine
end

