-- ==== Sys2Proof/Machine/Occasions.lean ====
section
/-! DEFINITION. Commands that reach across the blocks of the device: tide marks and ends, admission, function modes,
reset of both dies, and what follows every command of the plan and of the links. -/

namespace Sys2Proof.Machine

/-- What follows a command that may have changed the plan, the links or drift: the links' stores, launch sends that
failed, the first step of a launched serving plan, the Quay ports, the Ferry's return, the power state, and the quiesce
sequence. -/
def after (d : Dev) : Dev :=
  flushQuiesce (settlePower (settleFerry (settleQuay (svcStarted (settleLaunch (settleLinks d))))))

/-- A command of the device with what follows it. -/
def settled (f : Dev → Dev) (s : State) : Answer := lift (fun d => after (f d)) s

/-- A command of Estuary's core domain, and one of a die's core domain. -/
def estuary (f : Dev → Dev) (s : State) : Answer := settled (onCore 1 f) s
def onDie (die : Nat) (f : Dev → Dev) (s : State) : Answer := settled (onCore die f) s

/-- A command of the plan or of drift (R500). -/
def active (die : Nat) (f : Dev → Dev) (s : State) : Answer :=
  settled (onCore die (unlessFatal f)) s

/-! ### Tides -/

/-- Number of the tide whose mark is at `t`, where one is (R30). -/
def Dev.markAt (d : Dev) (t : BitVec 64) : Option Nat :=
  let p := d.get R.TIDE_PERIOD_period
  let x := tdiff t (BitVec.ofNat 64 (d.get R.TIDE_ORIGIN_origin))
  if p ≠ 0 ∧ x ≥ 0 ∧ x.toNat % p = 0 then some (x.toNat / p % 2 ^ 48) else none

/-- Serving at a tide mark (R234): the controller starts, or runs a boundary while it is IDLE. -/
def markServing (t : BitVec 64) (d : Dev) : Dev :=
  if d.powerState = psPark then d
  else
    let d := if d.get R.SVC_STATUS_state = svOff ∧ d.is R.SVC_CTL_enable then d.set R.SVC_STATUS_state 0 svIdle else d
    if d.get R.SVC_STATUS_state = svIdle then afterSnoop (fun d => d.intakeLines) (idleBoundary t) d else d

/-- TIDE_MARK (R30, R303, R234). -/
def execTideMark (t : BitVec 64) (d : Dev) : Dev :=
  let d := d.advance t
  match d.markAt t with
  | none => d
  | some k =>
    let st := d.get R.TIDE_STATUS_state
    let d := if st = tsStopped ∨ st = tsArmed then d.set R.TIDE_NUMBER_tide 0 k else d
    let d := ((List.range 6).filter (fun l => d.linkUp l)).foldl (fun d l =>
      d.modLink l (fun x => { x with syncDue := true })) d
    markServing t d

/-- TIDE_END (R36): the end of the tide, and of a serving step whose last tide it was (R209). -/
def execTideEnd (t : BitVec 64) (d : Dev) : Dev :=
  let d := d.advance t
  if ¬ d.tideEnds then d
  else
    let k := d.get R.TIDE_NUMBER_tide
    let d := endTide t d
    if d.get R.TIDE_STATUS_state = tsFaulted then d else noteStepEnd k t d

/-- REGION_WAKE, with the gating that it takes over (R434). -/
def wakeRegion (r : Nat) (t : BitVec 64) (d : Dev) : Dev :=
  let d' := execRegionWake r t d
  if (d'.reg r).phase = .wake ∧ (d.reg r).phase ≠ .wake then clearGates r d' else d'

/-! ### Counters -/

/-- Every field of a register word at its reset value. -/
def clearWord (f : Fld) (i : Nat) (d : Dev) : Dev := d.clearReg f i

/-- What 1 in the clear field of a register word resets (R8 and the owning chapters); `w` its number, `i` its
instance. -/
def clearCounters (w i : Nat) (d : Dev) : Dev :=
  if w = 11 then (d.clearReg R.TIDE_COUNTS_clear).set R.TIDE_LAG_lag_peak 0 0
  else if w = 18 then d.clearReg R.SEQ_COUNTS_clear i
  else if w = 23 then (d.clearReg R.SEQ_ARITH_clear i).clearReg R.SEQ_ARITH_FIRST_pc i
  else if w = 27 then ((d.clearReg R.SP_COUNTS_clear i).clearReg R.SP_SLIP_FIRST_pc i).clearReg R.SP_HARBOUR_LAST_device i
  else if w = 34 then (d.clearReg R.HB_ECC_COUNTS_clear i).clearReg R.HB_ECC_LAST_address i
  else if w = 43 then d.clearReg R.FERRY_COUNTS_clear
  else if w = 55 then d.clearReg R.SVC_COUNTS_clear
  else if w = 89 then d.clearReg R.IST_COUNTS_clear
  else if w = 100 then (d.clearReg R.CW_COUNTS_clear i).clearReg R.CW_DISCARD_plan_discarded i
  else if w = 108 then
    ((d.clearReg R.DRIFT_COUNTS_clear).clearReg R.DRIFT_COUNTS2_stale).set R.DRIFT_TAGS_peak 0 (d.get R.DRIFT_TAGS_outstanding)
  else if w = 111 then
    ((List.range 16).foldl (fun d q => d.clearReg R.ARB_WATCH_grants (i * 16 + q)) d).set R.ARB_STATUS_starved i 0
  else if w = 135 then d.clearReg R.TIME_COUNTS_clear
  else if w = 149 then d.clearReg R.HOST_COUNTS_clear
  else if w = 153 then d.clearReg R.QUAY_COUNTS_clear i
  else if w = 159 then d.clearReg R.CLK_MON_COUNTS_clear
  else if w = 171 then d.clearReg R.PWR_DIP_clear i
  else if w = 172 then d.set R.PWR_POWER_peak 0 0
  else if w = 186 then d.clearReg R.SEC_COUNTS_clear
  else if w = 203 then ((d.clearReg R.EVT_COUNTS_clear).clearReg R.EVT_LAST_SEVERE_time).clearReg R.EVT_LAST_SEVERE_code
  else if w = 208 then d.clearReg R.EVT_ROUTER_clear i
  else d

/-! ### Admission -/

/-- After an admission: the fields that it wrote are locked (R523), and what is out of service is gated dark (R468). -/
def afterAdmission (d : Dev) : Dev :=
  gateService (if d.admitted then d.modSec (fun s => { s with admitFree := [] }) else d)

/-- A segment of some cell is under reinitialisation (R152). -/
def Dev.reinitPending (d : Dev) : Bool := d.regions.any (fun u => u.2.cells.any (fun c => c.2.reinit ≠ 0))

/-- ADMIT_COMPLETE (R379, R400, R235): the host's admission, or the serving controller's, once no segment is under
reinitialisation (R152). -/
def finishAdmission (isthmus : Nat) (t : BitVec 64) (d : Dev) : Dev :=
  let d := d.advance t
  if d.get R.DEV_ADMIT_STATUS_state ≠ asLoading ∨ d.reinitPending then d
  else match d.svc.loading with
    | some image =>
      afterAdmission (svcAdmitted (takeHeld (admitPlan image (d.get R.DEV_ADMIT_MAP_map) isthmus d)))
    | none => afterAdmission (takeHeld (admitPlan (d.get R.DEV_ADMIT_IMAGE_image) (d.get R.DEV_ADMIT_MAP_map) isthmus d))

/-- ADMIT_RELEASE (R63, R468). -/
def releaseAdmission (d : Dev) : Dev := gateService (execAdmitRelease d)

/-! ### Function modes (R22 to R24) -/

/-- Fields of DEV_FUNC_MODE by function. -/
def modeField (fn : Nat) : Fld :=
  match fn with
  | 0 => R.DEV_FUNC_MODE_boot_src
  | 1 => R.DEV_FUNC_MODE_link_train
  | 2 => R.DEV_FUNC_MODE_time_servo
  | 3 => R.DEV_FUNC_MODE_weight_load
  | 4 => R.DEV_FUNC_MODE_eviction
  | 5 => R.DEV_FUNC_MODE_launch_relay
  | 6 => R.DEV_FUNC_MODE_drift_retry
  | 7 => R.DEV_FUNC_MODE_scrub_refetch
  | 8 => R.DEV_FUNC_MODE_admission
  | _ => R.DEV_FUNC_MODE_budget_refill

/-- DEV_FUNC_MODE_WRITE (R23, R24): the last value written waits for each function's quiet point. -/
def execDevFuncModeWrite (v : Nat) (d : Dev) : Dev :=
  (List.range 10).foldl (fun d fn => d.set (modeField fn) 0 (bits v fn 1)) d

/-- No training and no spare switch is in progress on a link. -/
def Dev.linkQuiet (d : Dev) (l : Nat) : Bool :=
  let x := d.link l
  x.trainAt.isNone && x.wait.isNone && decide (x.txPend = [] ∧ x.rxPend = [])

/-- The quiet point of a function (Table 1.6): a servo update and a step boundary are the quiet points of their own
times; drift retry has its mode noted in each request. -/
def Dev.modeQuiet (d : Dev) (fn : Nat) : Bool :=
  match fn with
  | 0 => decide (d.get R.SEC_BOOT_stage = 1)
  | 1 => (List.range 6).all (fun l => decide ((d.link l).hosted = d.is R.DEV_FUNC_MODE_link_train))
  | 2 => decide (d.time.updateAt = some d.now)
  | 8 => decide (d.svc.boundaryAt = some d.now)
  | 9 => decide (d.svc.boundaryAt = some d.now)
  | 3 => d.ferry.runs.all (fun e => match e.2 with
      | some r => decide (r.cmd.op = fcEvict ∨ r.cmd.op = fcRehash)
      | none => true)
  | 4 => (List.range 128).all (fun m => decide (d.modelState m ≠ msEvicting))
  | 5 => d.launch.tide.isNone || d.launch.reported
  | 7 => d.ferry.runs.all (fun e => match e.2 with
      | some r => decide (d.modelState r.cmd.model ≠ msRepairing)
      | none => true)
  | _ => true

/-- Each link with no training or spare switch in progress takes the mode last written (Table 1.6). -/
def modeLinks (d : Dev) : Dev :=
  ((List.range 6).filter d.linkQuiet).foldl (fun d l =>
    d.modLink l (fun x => { x with hosted := d.is R.DEV_FUNC_MODE_link_train })) d

/-- MODE_CHANGE_EFFECT (R23). The mode of link training changes link by link; DEV_FUNC_MODE_ACTIVE shows it once it has
changed on every link. -/
def execModeChangeEffect (fn : Nat) (d : Dev) : Dev :=
  let d := if fn = 1 then modeLinks d else d
  let want := d.get (modeField fn)
  let old := d.get R.DEV_FUNC_MODE_ACTIVE_active
  if flag (bit old fn) = want ∨ ¬ d.modeQuiet fn then d
  else
    let d := d.set R.DEV_FUNC_MODE_ACTIVE_active 0 (setBit old fn (decide (want = 1)))
    let d := if fn = 2 then d.modTime (fun x => { x with adjSince := d.now }) else d
    let d := if fn = 9 then modSvc (fun v => { v with refillAt := d.now, refills := 0 }) d else d
    d.raise E.MODE_CHANGED none (some fn)

/-! ### Reset of both dies -/

/-- RESET_CORES (R500): both core domains are reset, and leave reset by CORE_RESET_RELEASE. -/
def execResetCores (t : BitVec 64) (d : Dev) : Dev := coreReset 1 (coreReset 0 (d.advance t))

/-! ### The host's lines -/

/-- Tracked lines that the next unit of a plan stream reaches (R406). -/
def Dev.streamLines (d : Dev) (r id unit : Nat) : List Nat :=
  match d.landing r id with
  | none => []
  | some l =>
    let j := if l.kind = 2 then dueTide l (d.get R.TIDE_NUMBER_tide) else some (d.get R.TIDE_NUMBER_tide)
    match j with
    | none => []
    | some j =>
      let n := d.landedUnits l j
      d.trackedIn (dieOf r) (d.streamAt l + unit * n) unit

/-- The stacks of a host access wake. -/
def wakeHost (a n : Nat) (d : Dev) : Dev :=
  match d.hdmAt a n with
  | some (die, x) => wakeFor die x n d
  | none => d

/-- A plan's or the Ferry's patrol pauses in PARK (R449). -/
def unlessParked (f : Dev → Dev) (d : Dev) : Dev := if d.powerState = psPark then d else f d

end Sys2Proof.Machine
end

