-- ==== Sys2Proof/Machine/Registers.lean ====
section
/-! DEFINITION. Reading and writing the registers (20): where an offset lies, what the two views show, access types,
halves, locks, and every register whose write does more than store (Table 0.4, R508, R509, R519 to R527). -/

namespace Sys2Proof.Machine

/-! ### Where an offset lies (R519, Table 20.6) -/

/-- Number of the instance at a distance from a register's first one. -/
def ixAt : List (Nat × Nat) → Nat → Option Nat
  | [], 0 => some 0
  | [], _ + 1 => none
  | (n, s) :: l, x =>
    if x / s < n then (ixAt l (x % s)).map (fun k => x / s * (l.foldl (fun n x => n * x.1) 1) + k) else none

/-- Cell that an instance of a per-cell register names: region and cell. -/
def cellOfWord (w i : Nat) : Option (Nat × Nat) :=
  if w = 22 then some (i / 128, i / 4 % 32)
  else if 26 ≤ w ∧ w ≤ 31 then some (i / 32, i % 32)
  else if w = 32 then some (i / 256, i / 8 % 32)
  else if 111 ≤ w ∧ w ≤ 113 ∧ i < 512 then some (i / 32, i % 32)
  else if w = 114 ∧ i < 8192 then some (i / 512, i / 16 % 32)
  else none

/-- An index that some grade of the Swial has (R519). -/
def occupied (w i : Nat) : Bool :=
  match cellOfWord w i with
  | some (r, c) => decide (c < cellCount r)
  | none => true

/-- The register word at an offset of BAR0, and its instance; none where no register lies. -/
def regAt (off : Nat) : Option (RegWord × Nat) :=
  regTable.findSome? (fun w =>
    if w.base ≤ off then
      match ixAt w.dims (off - w.base) with
      | some i => if occupied w.word i then some (w, i) else none
      | none => none
    else none)

/-- Registers of an engine that the fuses leave out (R28): of an absent cell, and on grade C those of the Quay ports. -/
def Dev.absentReg (d : Dev) (w i : Nat) : Bool :=
  match cellOfWord w i with
  | some (r, c) => !d.cellPresent r c
  | none => !d.quayPresent && decide ((150 ≤ w ∧ w ≤ 157) ∨ (124 ≤ w ∧ w ≤ 126))

/-- Region of an absent engine's event. -/
def absentEvent (w i : Nat) (d : Dev) : Dev :=
  match cellOfWord w i with
  | some (r, c) => d.raise E.ABSENT_ENGINE (some r) (some c)
  | none => d.raise E.ABSENT_ENGINE

/-- The register's domain is held in reset: it reads zero and ignores writes (R522). -/
def Dev.regHeld (d : Dev) (w : RegWord) (i : Nat) : Bool :=
  match w.die i with
  | some die => !d.coreUp die
  | none => decide (w.dom = .hp) && d.host.held

/-! ### What a register reads (R526, R528) -/

/-- ENGINE_PRESENT[0] (R529). -/
def Dev.enginePresent (d : Dev) : Nat := if d.quayPresent then 0x7FFFFFFFF else 0x7FFFFFF3F

/-- Fields that the device forms at the read: fuses, service, and what another unit holds. -/
def Dev.formed (d : Dev) (f : Fld) (i : Nat) : Option Nat :=
  if f.word = 213 then some (if f = R.DEV_ID_vendor then d.fuses.vendor % 2 ^ 16
    else if f = R.DEV_ID_device then d.fuses.device % 2 ^ 16
    else if f = R.DEV_ID_family then 1
    else if f = R.DEV_ID_member then 9
    else if f = R.DEV_ID_grade then d.fuses.grade.val
    else d.fuses.stepping % 256)
  else if f.word = 214 then some (d.fuses.serial % 2 ^ 64)
  else if f.word = 216 then some (bits d.enginePresent f.lo f.width)
  else if f.word = 217 then some (if i < 4 then d.presentCells (2 * i) + d.presentCells (2 * i + 1) * 2 ^ 32
    else [0, 1, 2, 3].foldl (fun n k => n + d.presentCells (4 * i - 8 + k) * 2 ^ (16 * k)) 0)
  else if f.word = 177 then some (d.fuses.owner.getD i 0 % 2 ^ 64)
  else if f = R.SEQ_TARGET_present then some (d.presentCells i)
  else if f = R.SEQ_LEAD_CELL_cell then some ((d.leadCell i).getD 0)
  else if f.word = 187 ∧ f.lo = 0 then
    -- a region whose DFLL has failed reads as out of service (R468)
    some (let n := d.get f i; n - Nat.land n (d.get R.CLK_SRC_STATUS_dfll_failed))
  else if f.word = 188 then some (Nat.land (d.get f i) (d.presentCells i))
  else if f = R.SVC_KV_POOL_free then some (d.framesFree i % 2 ^ 24)
  else if f = R.SVC_KV_POOL_frames then some (((d.poolFrames i).2 - (d.poolFrames i).1) % 2 ^ 24)
  else if f = R.TIME_CALENDAR_seconds then some d.calSeconds
  else if f = R.TIME_CALENDAR_fraction then some d.calFraction
  else if f = R.TIME_STATUS_restricted then some (flag d.restricted)
  else if f = R.QUAY_TARGET_local_qpn then some (0x100 + i)
  else if f = R.HOST_HDM_size then some (d.hdmSize i % 2 ^ f.width)
  else none

/-- What a field reads: a wo field reads zero (Table 0.4). -/
def Dev.readField (d : Dev) (bar2 : Bool) (r : FieldRow) (i : Nat) : Nat :=
  if r.access = .wo ∨ (bar2 ∧ r.hidden) then 0
  else match d.formed r.fld i with
    | some v => v
    | none => d.get r.fld i

/-- All 64 bits of a register through BAR0, or through BAR2 (R526). -/
def Dev.readReg (d : Dev) (bar2 : Bool) (w : RegWord) (i : Nat) : Nat :=
  if (bar2 ∧ ¬ w.bar2) ∨ d.regHeld w i ∨ d.absentReg w.word i then 0
  else (w.fields.map (fun r => d.readField bar2 r i * 2 ^ r.fld.lo)).foldl (· + ·) 0

/-- First bytes of the MSI-X table and of the pending bits in BAR0 (Table 20.6). -/
def msixBase : Nat := 0x1008000
def pbaBase : Nat := 0x1009000

/-- Word of the MSI-X table at an offset. -/
def msixAt (off : Nat) : Option Nat :=
  if msixBase ≤ off ∧ off < msixBase + 1024 ∧ off % 8 = 0 then some ((off - msixBase) / 8) else none

/-- A word of the MSI-X table; a vector is masked at reset. -/
def Dev.msixWord (d : Dev) (k : Nat) : Nat := tget (if k % 2 = 1 then 2 ^ 32 else 0) d.host.msix k

/-- All 64 bits at an offset of a view that is a multiple of 8. -/
def Dev.readAt (d : Dev) (bar2 : Bool) (off : Nat) : Nat :=
  match regAt off with
  | some (w, i) => d.readReg bar2 w i
  | none =>
    if bar2 ∨ d.host.held then 0
    else match msixAt off with
      | some k => d.msixWord k
      | none => if off = pbaBase then d.host.pba.toNat else 0

/-! ### Refused accesses (R475, R520, R527) -/

/-- EV_ACCESS_REFUSED at most once a second: its place in `FabricSt.lastOnce`. -/
def accessSlot : Nat := 3

/-- A refused access is counted; through BAR2 and drift it also raises the event. SEC_COUNTS and the fabric stand in
Estuary's core domain. -/
def countRefused (d : Dev) : Dev := onCore 1 (fun d => d.inc C.SEC_COUNTS_refused) d
def refuseAccess (d : Dev) : Dev := onCore 1 (raiseOncePerSecond accessSlot E.ACCESS_REFUSED none) (countRefused d)

/-! ### What a write carries (R509) -/

/-- A field lies in the half that is written. -/
def inPart (p : RegPart) (f : Fld) : Bool :=
  match p with
  | .full => true
  | .low => decide (f.lo + f.width ≤ 32)
  | .high => decide (32 ≤ f.lo)

/-- 64 bits with the written half replaced. -/
def mergeHalf (p : RegPart) (old v : Nat) : Nat :=
  match p with
  | .full => v % 2 ^ 64
  | .low => old / 2 ^ 32 * 2 ^ 32 + v % 2 ^ 32
  | .high => v % 2 ^ 32 * 2 ^ 32 + old % 2 ^ 32

/-- A stored field's value under a write by the requester with place `q` (R524, R525): as it is where the device
changed it in this PX cycle, or a requester later in the order of R524 wrote it. -/
def Dev.standing (d : Dev) (f : Fld) (i q x : Nat) : Nat :=
  if d.madeNow f i ≠ 0 ∨ d.wroteNow f i > q + 1 then d.get f i else x

/-- The register's fields as the write leaves them to act: a stored field keeps the bits of the other half and what
stands against the write, a wc bit that the device set in this PX cycle is not cleared (R4), and a wo, ws or wc field
that the half does not contain is zero. The high half's bits come as the low 32 of `v`. -/
def Dev.imageOf (d : Dev) (w : RegWord) (i : Nat) (p : RegPart) (q v : Nat) : Nat :=
  let m := mergeHalf p (d.wordOf w i) v
  (w.fields.map (fun r =>
    let x := bits m r.fld.lo r.fld.width
    match r.access with
    | .ro => 0
    | .rw => d.standing r.fld i q x * 2 ^ r.fld.lo
    | .lkBoot => d.standing r.fld i q x * 2 ^ r.fld.lo
    | .lkAdmit => d.standing r.fld i q x * 2 ^ r.fld.lo
    | .wc => if inPart p r.fld then Nat.xor x (Nat.land x (d.madeNow r.fld i)) * 2 ^ r.fld.lo else 0
    | _ => if inPart p r.fld then x * 2 ^ r.fld.lo else 0)).foldl (· + ·) 0

/-- The write marks the stored fields that it reaches, and the ws bits to which it writes 1, as written in this PX
cycle. -/
def noteWrites (w : RegWord) (i : Nat) (p : RegPart) (q img : Nat) (d : Dev) : Dev :=
  w.fields.foldl (fun d r =>
    match r.access with
    | .rw => if inPart p r.fld then d.noteWrite r.fld i q else d
    | .lkBoot => if inPart p r.fld then d.noteWrite r.fld i q else d
    | .lkAdmit => if inPart p r.fld then d.noteWrite r.fld i q else d
    | .ws => if bits img r.fld.lo r.fld.width = 0 then d else d.noteWrite r.fld i q
    | _ => d) d

/-- The half contains a field that a write acts on. -/
def actsIn (w : RegWord) (p : RegPart) : Bool :=
  w.fields.any (fun r => match r.access with
    | .ro => false
    | .rw => true
    | .lkBoot => true
    | .lkAdmit => true
    | _ => inPart p r.fld)

/-! ### Stored fields -/

/-- Fields for which the owning chapter says what a write outside the range stores: lowest and highest value. -/
def storedRanges : List (Fld × Nat × Nat) := [
  (R.TIDE_HOLD_LIMIT_limit, 16384, 3145728), (R.HB_SCRUB_period, 1, 168), (R.FERRY_RING_CTL_size, 0, 6),
  (R.SVC_CTL_admit_max, 1, 255), (R.SVC_CTL_switch_lead, 1, 255), (R.SVC_BUDGET_CTL_refill_period, 1, 65535),
  (R.SVC_BUDGET_CTL_hold_limit, 1, 255), (R.IST_CTL_replay_limit, 1, 15), (R.IST_CTL_retrain_max, 1, 15),
  (R.CW_CTL_down_time, 1, 16383), (R.CW_CTL_ack_timeout, 10, 1000), (R.DRIFT_CTL_req_timeout, 100, 65535),
  (R.ARB_MODE_starve_limit, 16, 65535), (R.TIME_CTL_slew_max, 1, 255), (R.DEV_LAUNCH_CTL_launch_wait, 10, 65535),
  (R.DEV_LAUNCH_CTL_host_wait, 1, 16383), (R.PWR_CTL_power_cap, 400, 1600)]

/-- The value that a field stores. -/
def storedValue (f : Fld) (v : Nat) : Nat :=
  match storedRanges.find? (fun x => decide (x.1 = f)) with
  | some (_, lo, hi) => Nat.max lo (Nat.min hi v)
  | none => v

/-- The lock of an lk field does not hold (R523). -/
def Dev.unlocked (d : Dev) (w : RegWord) (i : Nat) (a : Access) : Bool :=
  let die := (w.die i).getD 1
  match a with
  | .lkBoot => !d.bootLocked die
  | .lkAdmit => !d.admitLocked die
  | _ => true

/-- One field of a write acts by its access type (Table 0.4). -/
def writeField (w : RegWord) (i img : Nat) (r : FieldRow) (d : Dev) : Dev :=
  let v := bits img r.fld.lo r.fld.width
  let old := d.get r.fld i
  match r.access with
  | .ro => d
  | .wo => d
  | .wc => d.set r.fld i (Nat.xor old (Nat.land old v))
  | .ws => d.set r.fld i (Nat.lor old v)
  | a => if d.unlocked w i a then d.set r.fld i (storedValue r.fld v) else d

/-- Every field of a write acts by its access type. -/
def writeFields (w : RegWord) (i img : Nat) (d : Dev) : Dev :=
  w.fields.foldl (fun d r => writeField w i img r d) d

/-! ### Registers with more to a write -/

/-- CLK_REGION: the fields are stored in order, each as the nearest value within its range at that point (R435). -/
def writeClkRegion (r img : Nat) (d : Dev) : Dev :=
  let near := fun (lo hi v : Nat) => Nat.max lo (Nat.min hi v)
  let part := fun (f : Fld) => bits img f.lo f.width
  let fmin := near 350 800 (part R.CLK_REGION_f_min)
  let fmax := near fmin 800 (part R.CLK_REGION_f_max)
  let fset := near fmin fmax (part R.CLK_REGION_f_set)
  showLimits r (((((d.set R.CLK_REGION_mode r (part R.CLK_REGION_mode)).set R.CLK_REGION_f_min r fmin).set
    R.CLK_REGION_f_max r fmax).set R.CLK_REGION_f_set r fset).set R.CLK_REGION_margin_min r (part R.CLK_REGION_margin_min))

/-- FERRY_MODEL[m] (Table 6.11): word 0 in EMPTY, words 1, 2 and 5 in EMPTY and REGISTERED. -/
def writeModel (w : RegWord) (m img : Nat) (d : Dev) : Dev :=
  let s := d.modelState m
  if s = msEmpty ∨ (s = msRegistered ∧ w.word ≠ 45) then writeFields w m img d else d

/-- SVC_BUDGET[c] word 1 (Table 8.7): a write to tenant while the customer has an occupied slot is ignored. -/
def writeTenant (w : RegWord) (c : Nat) (p : RegPart) (img : Nat) (d : Dev) : Dev :=
  let busy := (List.range 256).any (fun s => match d.slot s with
    | some x => decide (x.req.customer = c)
    | none => false)
  let old := d.get R.SVC_BUDGET_tenant c
  let v := bits img R.SVC_BUDGET_tenant.lo R.SVC_BUDGET_tenant.width
  if busy ∧ inPart p R.SVC_BUDGET_tenant then (writeFields w c (img - v * 2 ^ R.SVC_BUDGET_tenant.lo + old * 2 ^ R.SVC_BUDGET_tenant.lo) d).raise
    E.SVC_CONFIG none (some c)
  else writeFields w c img d

/-- SVC_LOG_TAIL (R238): entries that the host consumes leave room. -/
def writeLogTail (w : RegWord) (img : Nat) (d : Dev) : Dev :=
  let old := d.get R.SVC_LOG_TAIL_tail
  let d := writeFields w 0 img d
  if d.get R.SVC_LOG_TAIL_tail = old then d else modSvc (fun v => { v with logFull := false }) d

/-- ARB_PRIO: fields beyond the instance's requesters are rz (Table 11.9). -/
def writePrio (i img : Nat) (d : Dev) : Dev :=
  d.set R.ARB_PRIO_prio i ((arbRequesters i).foldl (fun n q => n + bits img (4 * q) 4 * 2 ^ (4 * q)) 0)

/-- TIME_PTP[q], word 1: enable starts the port listening for its grandmaster, or stops it (R360). -/
def writePtp (w : RegWord) (q img : Nat) (d : Dev) : Dev :=
  let was := d.is R.TIME_PTP_enable q
  let d := writeFields w q img d
  if d.is R.TIME_PTP_enable q = was then d
  else (d.modPtp q (fun x => { seq := x.seq, sent := x.sent })).set R.TIME_PTP_state q (if was then ptIdle else ptListen)

/-- TIME_PULSE[p], ctl (R365): 1 in arm sets the bit and arms the pulse. -/
def writePulse (w : RegWord) (p img : Nat) (t : BitVec 64) (d : Dev) : Dev :=
  let d := writeFields w p img d
  if bit img R.TIME_PULSE_arm.lo then execPulseArm p t d else d

/-- Words of the device's, host's and power blocks whose write is a command (Tables 1.6, 13.11, 16.13, 17.10, 19.11). -/
def writeSystem (n i img : Nat) (t : BitVec 64) : Option (Dev → Dev) :=
  let act := fun (w : Nat) => bits img 0 w
  match n with
  | 0 => some (execDevFuncModeWrite img)
  | 140 => some (fun d => if act 2 = 1 then execAdmit t d else if act 2 = 2 then releaseAdmission d else d)
  | 143 => some (fun d => if act 2 = 1 then execLaunchStart (bits img 2 48) t d
      else if act 2 = 2 then execLaunchSend (bits img 2 15) t d else d)
  | 160 => some (fun d => if act 2 = 1 then execClkRecheck (bits img 2 5) t d
      else if act 2 = 2 then execClkRelock (bits img 2 5) t d else d)
  | 161 => some (if bit img 16 then execGateOn img else execGateOff img)
  | 163 => some (writeClkRegion i img)
  | 167 => some (execPwrStretchWrite img)
  | 169 => some (fun d => if act 2 = 1 then execPwrCmdPark t d else if act 2 = 2 then execPwrCmdIdle t d
      else if act 2 = 3 then execPwrCmdDormant t d else d)
  | 170 => some (execPwrRailWrite i img t)
  | 176 => some (fun d => if act 2 = 1 then execSvnAdvance (bits img 2 3) d else d)
  | 179 => some (fun d => if act 1 = 1 then execUpdateStage t d else d)
  | 182 => some (fun d => if act 2 = 1 then execKeyInstall img d else if act 2 = 2 then execKeyClear img d else d)
  | 187 => some (execServiceWrite none img)
  | 188 => some (fun d => execServiceWrite (some i) (Nat.land img (d.presentCells i)) d)
  | 198 => some (execEvtRingBaseWrite img)
  | 202 => some (execEvtStatusClear img)
  | 206 => some (fun d => if act 2 = 1 then execResetCores t d else d)
  | 209 => some (execLifeFlush img)
  | _ => none

/-- Words of the plan, memory, serving, link and time blocks whose write is a command or has conditions. -/
def writeEngine (w : RegWord) (i : Nat) (p : RegPart) (img : Nat) (t : BitVec 64) : Option (Dev → Dev) :=
  let act := fun (lo n : Nat) => bits img lo n
  match w.word with
  | 2 => some (execTideCtlWrite img)
  | 3 => some (execTideConfigWrite false img)
  | 4 => some (execTideConfigWrite true img)
  | 21 => some (execSeqLoopCountWrite (i / 16) (i % 16) img)
  | 26 => some (execSegClassWrite (i / 32) (i % 32) img)
  | 32 => some (execHarbourWrite (i / 256) (i / 8 % 32) (i % 8) img)
  | 33 => some (execHbAreaWrite (i / 8) (i % 8) img)
  | 40 => some (execFerryRingTailWrite img)
  | 44 => some (fun d => if act 7 3 = 1 then execModelRegister (act 0 7) d else if act 7 3 = 2 then execModelLoad (act 0 7) t d
      else if act 7 3 = 3 then execModelUnregister (act 0 7) d else d)
  | 45 => some (writeModel w i img)
  | 46 => some (writeModel w i img)
  | 47 => some (writeModel w i img)
  | 50 => some (writeModel w i img)
  | 57 => some (fun d => if act 4 2 = 1 then execAdmitAccept (act 0 4) d
      else if act 4 2 = 2 then execAdmitReject (act 0 4) d else d)
  | 66 => some (writeLogTail w img)
  | 67 => some (execSvcPlanWrite i 0 img)
  | 68 => some (execSvcPlanWrite i 1 img)
  | 69 => some (execSvcPlanWrite i 2 img)
  | 76 => some (execBudgetAdjust (act 0 12) (act 12 48))
  | 79 => some (execSvcOutEnableWrite i img)
  | 83 => some (writeTenant w i p img)
  | 85 => some (fun d => showLow i (writeFields w i img d))
  | 93 => some (execFenceWrite i img t)
  | 105 => some (fun d => if act 0 3 = 1 then execCwCmdTrain i t d else if act 0 3 = 2 then execCwCmdSpare i t d
      else if act 0 3 = 3 then execCwCmdDrop i (act 3 4) t d else if act 0 3 = 4 then execCwCmdDown i t d else d)
  | 112 => some (writePrio i img)
  | 117 => some (execTimeParentWrite img)
  | 121 => some (execTimeAdjWrite img t)
  | 122 => some (fun d => if d.get R.TIDE_STATUS_state = tsStopped then writeFields w i img d else d)
  | 123 => some (fun d => if d.madeNow R.TIME_UTC_utc_offset 0 ≠ 0 ∨ ¬ inPart p R.TIME_UTC_utc_offset then d
      else (writeFields w i img d).set R.TIME_UTC_from_ptp 0 0)
  | 125 => some (writePtp w i img)
  | 132 => some (writePulse w i img t)
  | 154 => some (if bit img R.QUAY_TARGET_enable.lo then execQuayTargetEnable i img t else execQuayTargetDisable i img)
  | 155 => some (fun d => if d.is R.QUAY_TARGET_enable i then d else writeFields w i img d)
  | 156 => some (fun d => if d.is R.QUAY_TARGET_enable i then d else writeFields w i img d)
  | 166 => some (fun d => showStretches (writeFields w i img d))
  | 200 => some (fun d => let d := writeFields w i img d; d.setB R.EVT_STATUS_full 0 d.ringFull)
  | _ => none

/-- The register has a clear field (R8). -/
def RegWord.clears (w : RegWord) : Bool := w.fields.any (fun r => decide (r.access = .wo ∧ r.fld.lo = 63))

/-- A write to an occupied register through BAR0 by the requester with place `q` in the order of R524 (R3). -/
def writeReg (w : RegWord) (i : Nat) (p : RegPart) (q v : Nat) (t : BitVec 64) (d : Dev) : Dev :=
  if d.absentReg w.word i then absentEvent w.word i d
  else if d.regHeld w i ∨ ¬ actsIn w p then d
  else
    let img := d.imageOf w i p q v
    let d := noteWrites w i p q img d
    let d := if w.clears ∧ bit img 63 then clearCounters w.word i d else d
    match writeSystem w.word i img t with
    | some f => f d
    | none => match writeEngine w i p img t with
      | some f => f d
      | none => writeFields w i img d

/-- A write to the MSI-X table (R409): a vector that is unmasked while pending is sent. -/
def writeMsix (k : Nat) (p : RegPart) (v : Nat) (d : Dev) : Dev :=
  if d.host.held then d
  else
    let x := mergeHalf p (d.msixWord k) v
    let x := if k % 2 = 1 then x % 2 ^ 33 else x
    sendPending (d.modHost (fun h => { h with msix := tput (if k % 2 = 1 then 2 ^ 32 else 0) h.msix k x }))

/-- A write through BAR2 acts only on the fields that Table 20.4 names (R526, R527). -/
def writeBar2 (off : Nat) (p : RegPart) (q v : Nat) (t : BitVec 64) (d : Dev) : Dev :=
  match regAt off with
  | some (w, i) =>
    if w.fields.any (fun r => r.bar2w) then writeReg w i p q v t d
    else if ¬ w.bar2 then refuseAccess d
    else if d.absentReg w.word i then absentEvent w.word i d
    else d
  | none => if (msixAt off).isSome ∨ off = pbaBase then refuseAccess d else d

/-- A write through BAR0. -/
def writeBar0 (off : Nat) (p : RegPart) (q v : Nat) (t : BitVec 64) (d : Dev) : Dev :=
  match regAt off with
  | some (w, i) => writeReg w i p q v t d
  | none => match msixAt off with
    | some k => writeMsix k p v d
    | none => d

/-- The access that a part and an offset make is naturally aligned (R520): all 64 bits at a multiple of 8, the low half
at one, the high half four bytes on. -/
def partAligned (p : RegPart) (off : Nat) : Bool :=
  match p with
  | .high => decide (off % 8 = 4)
  | _ => decide (off % 8 = 0)

/-! ### The commands of this chapter -/

/-- Place of a requester in the order of R524: BAR0, BAR2, the Keeper, drift sources in ascending device address. -/
def writerPlace (s : RegSource) : Nat :=
  match s with
  | .bar0 => 0
  | .bar2 => 1
  | .keeper => 2
  | .drift a => 3 + a.toNat

/-- REGISTER_WRITE (R3, R509, R520, R526, Table 17.8). -/
def execRegisterWrite (src : RegSource) (off : Nat) (p : RegPart) (v : Nat) (t : BitVec 64) (d : Dev) : Dev :=
  let d := d.advance t
  if ¬ partAligned p off then countRefused d
  else
    let off := off / 8 * 8
    match src with
    | .bar0 => writeBar0 off p (writerPlace src) v t d
    | .keeper => writeBar0 off p (writerPlace src) v t d
    | .bar2 => writeBar2 off p (writerPlace src) v t d
    | .drift _ => if d.is R.SEC_CTL_remote_bar2 then writeBar2 off p (writerPlace src) v t d else refuseAccess d

/-- BAR2_REFUSED (R527): an access to a register outside Table 20.4. -/
def execBar2Refused (off : Nat) (t : BitVec 64) (d : Dev) : Dev :=
  let d := d.advance t
  match regAt (off / 8 * 8) with
  | some (w, _) => if w.bar2 then d else refuseAccess d
  | none => if (msixAt (off / 8 * 8)).isSome ∨ off / 8 * 8 = pbaBase then refuseAccess d else d

/-- MISALIGNED_ACCESS (R520): any size but 4 or 8 bytes, or an address that is not a multiple of it. -/
def execMisalignedAccess (off size : Nat) (t : BitVec 64) (d : Dev) : Dev :=
  let d := d.advance t
  if (size = 4 ∨ size = 8) ∧ off % size = 0 then d else countRefused d

/-- ABSENT_ENGINE_ACCESS (R28). -/
def execAbsentEngineAccess (off : Nat) (_write : Bool) (d : Dev) : Dev :=
  match regAt (off / 8 * 8) with
  | some (w, i) => if d.absentReg w.word i then absentEvent w.word i d else d
  | none => d

/-- COUNTER_CLEAR (R8): 1 in the clear field of the register at an offset. -/
def execCounterClear (off : Nat) (d : Dev) : Dev :=
  match regAt off with
  | some (w, i) =>
    if d.absentReg w.word i then absentEvent w.word i d
    else if d.regHeld w i ∨ ¬ w.clears then d
    else clearCounters w.word i d
  | none => d

/-- Requesters of HALF_READ: 0 BAR0, 1 BAR2, 2 the Keeper, 2^21 + a the drift source at device address a. -/
def readsBar2 (requester : Nat) : Bool := decide (requester = 1 ∨ requester ≥ 2 ^ 21)

/-- Data returned to the host. -/
def answerHost (requester v : Nat) (d : Dev) : Dev :=
  if requester ≤ 1 then d.modHost (fun h => { h with readData := h.readData ++ [leBytes 4 v] }) else d

/-- HALF_READ (R508): a 32-bit read. The low half takes a snapshot of the high half for its requester; that requester's
next read of the same register's high half returns the snapshot. -/
def execHalfRead (requester off : Nat) (d : Dev) : Dev :=
  let base := off / 8 * 8
  let x := d.readAt (readsBar2 requester) base
  let mine := fun (s : HalfSnap) => decide (s.requester = requester ∧ s.offset = base)
  let rest := d.evt.snaps.filter (fun s => !mine s)
  let d := match regAt base with
    | some (w, i) =>
      if readsBar2 requester ∧ ¬ w.bar2 then refuseAccess d
      else if d.absentReg w.word i then absentEvent w.word i d
      else if w.word = 128 then d.modTime (fun x => { x with unread := false }) else d
    | none => if readsBar2 requester ∧ ((msixAt base).isSome ∨ base = pbaBase) then refuseAccess d else d
  if off % 8 = 0 then
    answerHost requester (x % 2 ^ 32) { d with evt := { d.evt with snaps := rest ++ [⟨requester, base, x / 2 ^ 32⟩] } }
  else if off % 8 = 4 then
    let hi := match d.evt.snaps.find? mine with
      | some s => s.high
      | none => x / 2 ^ 32
    answerHost requester hi { d with evt := { d.evt with snaps := rest } }
  else countRefused d

end Sys2Proof.Machine
end

