-- ==== Sys2Proof/Machine/Drift.lean ====
section
/-! DEFINITION. Drift packets at their target and back at their requester, and at a device on their way (11): access
rights (R475, Table 17.8), answers (R323), matching of responses (R333), forwarding (R322, R325 to R330), timeouts (R334). -/

namespace Sys2Proof.Machine

/-! ### Arrival -/

/-- Everything that R322 asks of a packet that has been put together. -/
def packetOk (p : Packet) : Bool :=
  let n := p.data.length
  match opRow p.opcode.toNat with
  | none => false
  | some (vc, lo, hi) =>
    decide (p.vc.toNat = vc ∧ lo ≤ n ∧ n ≤ hi) &&
      (if p.opcode.toNat = opRead then decide (1 ≤ p.words.toNat ∧ p.words.toNat ≤ 116) else decide (8 * p.words.toNat = n))

/-- A packet that breaks R322 is discarded. -/
def malformed (d : Dev) : Dev := raiseOncePerSecond 0 E.DRIFT_MALFORMED none (d.inc C.DRIFT_COUNTS2_malformed)

/-- A packet waits for its target unit; one that waits already keeps its place. -/
def enqueueSelf (p : Packet) (d : Dev) : Dev :=
  if d.fabric.selfQ.contains p then d else { d with fabric := { d.fabric with selfQ := d.fabric.selfQ ++ [p] } }

/-- A packet leaves the queue of those that wait for their target unit. -/
def unqueue (p : Packet) (d : Dev) : Dev := { d with fabric := { d.fabric with selfQ := d.fabric.selfQ.erase p } }

/-- A packet of opcode `op` reaches this device, its destination. -/
def receive (op : Nat) (p : Packet) (f : Packet → Dev → Dev) (t : BitVec 64) (d : Dev) : Dev :=
  let d := d.advance t
  if p.opcode.toNat ≠ op ∨ p.dest.toNat ≠ d.get R.DEV_ADDR_address then d
  else
    let d := unqueue p d
    if packetOk p then drainRequests (f p d) else malformed d

/-! ### Targets (R28, R168, R369, R475) -/

/-- What a drift access reaches. -/
inductive DriftTarget where
  | range | refused | absent
  /-- The target's die is held in reset: nothing answers, and R334 ends the request. -/
  | silent
  | hbm (die a : Nat)
  | sp (r c off : Nat)
  | regs (off : Nat)
  deriving DecidableEq, Repr

/-- A scratchpad address of space 0x1 or 0x2 (Table 13.2): region, cell, byte; none for an index that no grade has. -/
def spPlace (space off : Nat) : Option (Nat × Nat × Nat) :=
  if off ≥ 2 ^ 30 then none
  else if space = 1 then some (bits off 27 3, 8 * bits off 25 2 + bits off 22 3, bits off 0 22)
  else if bit off 24 ∨ bit off 21 then none
  else some (8 + bits off 27 3, 4 * bits off 25 2 + bits off 22 2, bits off 0 21)

/-- An offset of the register map whose index no grade has (R519). -/
def noSuchIndex (off : Nat) : Bool :=
  regTable.any (fun w => decide (w.base ≤ off) && (match ixAt w.dims (off - w.base) with
    | some i => !occupied w.word i
    | none => false))

/-- Register offsets of an access of `n` bytes. -/
def regOffsets (off n : Nat) : List Nat := (List.range ((n + 7) / 8)).map (fun k => off + 8 * k)

/-- Where a drift access of `n` bytes at a hall address goes (Table 17.8). An address of another device, or an access
that reaches past the end of its target, is out of range. -/
def Dev.driftTarget (d : Dev) (addr n : Nat) : DriftTarget :=
  let space := bits addr 40 4
  let off := bits addr 0 40
  if hallDev addr ≠ d.get R.DEV_ADDR_address then .range
  else if space = 0 then
    let die := off / 2 ^ 39
    let a := off % 2 ^ 39
    if a + n > hbmSize die then .range
    else if ¬ d.coreUp die then .silent
    else if d.areaAt die a n = areaHost ∨ d.areaAt die a n = areaFerry then .hbm die a
    else .refused
  else if space = 1 ∨ space = 2 then
    match spPlace space off with
    | none => .range
    | some (r, c, b) =>
      if b + n > spSize r then .range
      else if ¬ d.cellPresent r c then .absent
      else if ¬ d.coreUp (dieOf r) then .silent
      else .sp r c b
  else if space = 5 then
    if off + n > 33554432 ∨ (regOffsets off n).any noSuchIndex then .range
    else if (regOffsets off n).any (fun o => match regAt o with
      | some (w, i) => d.absentReg w.word i
      | none => false) then .absent
    else .regs off
  else if space = 3 ∨ space = 4 ∨ space = 6 then .refused
  else .range

/-- Source code of a packet's harbour rights (R160, Table 5.8): for this device's own, by the requester that issued it. -/
def Dev.sourceOf (d : Dev) (p : Packet) : Nat :=
  if p.src.toNat ≠ d.get R.DEV_ADDR_address then srcOther
  else match d.fabric.reqs.find? (fun r => decide (r.packet = p)) with
    | some r => if r.requester = rqFerry then srcFerry else if r.requester = rqHost then srcHost else srcThis
    | none => srcThis

/-- A drift access of `n` bytes to a scratchpad waits for its bank's grants (R158). -/
def spRequest (p : Packet) (r c off n : Nat) (d : Dev) : Dev :=
  bankEnqueue { packet := p, source := d.sourceOf p, region := r, cell := c, off := off, size := n, rows := rowsOf off n } d

/-- A packet whose access reaches lines that the host may cache waits for their snoops (R406). -/
def afterLines (p : Packet) (n : Nat) (f : Dev → Dev) (d : Dev) : Dev :=
  match d.hallLines p.addr.toNat n with
  | [] => f d
  | l :: rest => snoopLines (l :: rest) (d.modHost (fun h => { h with waitPkts := h.waitPkts ++ [p] }))

/-- What one register word of a BAR2 read by drift shows; an access outside Table 20.4 is refused (R527). -/
def readDriftReg (off : Nat) (d : Dev) : Dev × Nat :=
  if off % 8 ≠ 0 then (countRefused d, 0)
  else match regAt off with
    | some (w, i) => if w.bar2 then (d, d.readReg true w i) else (refuseAccess d, 0)
    | none => (if (msixAt off).isSome ∨ off = pbaBase then refuseAccess d else d, 0)

/-! ### Requests at the target -/

/-- READ (R162, R168, R321, R475). -/
def takeRead (p : Packet) (d : Dev) : Dev :=
  let n := 8 * p.words.toNat
  match d.driftTarget p.addr.toNat n with
  | .range => bounce p stRange d
  | .refused => bounce p stRefused (refuseAccess d)
  | .absent => bounce p stAbsent d
  | .silent => d
  | .hbm die a => afterLines p n (fun d =>
      let x := hbmRead byDrift none die a n (wakeFor die a n d)
      if x.2 then bounce p stUncorrectable x.1 else respond p opReadResp stOk (mbytes x.1.mem (hbmKey die a) n) x.1) d
  | .sp r c off => spRequest p r c off n d
  | .regs off =>
    let x := (regOffsets off n).foldl (fun (acc : Dev × List Byte) o =>
      let y := readDriftReg o acc.1
      (y.1, acc.2 ++ leBytes 8 y.2)) (d, [])
    respond p opReadResp stOk x.2 x.1

/-- WRITE (R161, R168, R321, R475). -/
def takeWrite (p : Packet) (d : Dev) : Dev :=
  let n := p.data.length
  match d.driftTarget p.addr.toNat n with
  | .range => bounce p stRange d
  | .refused => bounce p stRefused (refuseAccess d)
  | .absent => bounce p stAbsent d
  | .silent => d
  | .hbm die a => afterLines p n (fun d =>
      respond p opWriteAck stOk [] (hbmWrite die a p.data (wakeFor die a n d))) d
  | .sp r c off => spRequest p r c off n d
  | .regs off =>
    if ¬ d.is R.SEC_CTL_remote_bar2 then bounce p stRefused (refuseAccess d)
    else if off % 8 ≠ 0 then respond p opWriteAck stOk [] (countRefused d)
    else respond p opWriteAck stOk [] ((List.range (n / 8)).foldl (fun d k =>
      writeBar2 (off + 8 * k) .full (writerPlace (.drift p.src)) (leNat ((p.data.drop (8 * k)).take 8)) d.now d) d)

/-- Bytes of a shard that a RECV has received. -/
def FerryRun.received (r : FerryRun) : Nat := r.header.length + r.cipher.length + r.rx.length

/-- The RECV that waits for a relay packet: its source and position, and for the packet that begins the shard header
also its model and shard (R182, Table 6.3). -/
def Dev.recvRun (d : Dev) (p : Packet) : Option Nat :=
  (List.range 8).find? (fun i => match d.run i with
    | some r => decide (r.cmd.op = fcRecv ∧ r.cmd.source = p.src.toNat ∧ r.received = p.addr.toNat ∧
        (r.received = 0 → leNat ((p.data.drop 8).take 8) = d.get R.FERRY_MODEL_model_id r.cmd.model ∧
          leNat ((p.data.drop 16).take 4) = r.cmd.shard))
    | none => false)

/-- A posted RECV, not yet started, that a relay packet is for: its source, and for the packet that begins the shard
header also its model and shard. -/
def FerryCmd.awaits (c : FerryCmd) (p : Packet) (d : Dev) : Bool :=
  decide (c.op = fcRecv ∧ c.source = p.src.toNat) &&
    (decide (p.addr ≠ 0) || decide (leNat ((p.data.drop 8).take 8) = d.get R.FERRY_MODEL_model_id c.model ∧
      leNat ((p.data.drop 16).take 4) = c.shard))

/-- Commands posted that the Ferry has not started: its own, and the ring's up to TAIL. -/
def Dev.posted (d : Dev) : List FerryCmd :=
  let n := d.ferrySize
  let tail := d.get R.FERRY_RING_TAIL_tail
  let slots := ((List.range n).map (fun k => (d.ferry.next + k) % n)).takeWhile (fun i => i ≠ tail)
  let ring := if d.is R.FERRY_RING_CTL_enable then slots.filterMap (fun i =>
      match d.ferryEntry i with
      | some e =>
        let c := decodeFerry (fun k => mnum d.mem (hbmKey e.1 (e.2 + 8 * k)) 8) i
        if c.2 then some c.1 else none
      | none => none)
    else []
  d.ferry.own ++ ring

/-- A relay packet whose RECV is posted and has not started waits for it (R182). -/
def Dev.relayWaits (d : Dev) (p : Packet) : Bool :=
  decide (p.opcode.toNat = opRelay ∧ d.powerState ≠ psPark ∧ d.recvRun p = none) && !d.ferry.stopped &&
    d.posted.any (fun c => c.awaits p d)

/-- An access to a stack that retrains waits (Table 17.5). -/
def Dev.stackWaits (d : Dev) (p : Packet) : Bool :=
  let n := if p.opcode.toNat = opRead then 8 * p.words.toNat else p.data.length
  decide (p.opcode.toNat = opRead ∨ p.opcode.toNat = opWrite) && (match d.driftTarget p.addr.toNat n with
    | .hbm die a => d.bytesTrain die a n
    | _ => false)

/-- A packet whose target unit does not take it yet stays where it is, under the credits of its virtual channel: a relay
packet ahead of its RECV (R182), a management request while the Keeper restarts (R19), an access to a stack that
retrains. -/
def Dev.unitWaits (d : Dev) (p : Packet) : Bool :=
  d.relayWaits p || (decide (p.opcode.toNat = opMgmtReq) && d.fabric.keeperRestart) || d.stackWaits p

/-- RELAY (R182, R449). -/
def takeRelay (p : Packet) (d : Dev) : Dev :=
  match d.recvRun p with
  | some i =>
    if d.powerState = psPark then bounce p stRefused d
    else match d.run i with
      | some r => respond p opWriteAck stOk []
          { d with ferry := { d.ferry with runs := tput none d.ferry.runs i (some { r with rx := r.rx ++ p.data }) } }
      | none => d
  | none => bounce p stRefused d

/-- A packet that arrives at its target unit, or waits for it. -/
def receiveWhenReady (op : Nat) (p : Packet) (f : Packet → Dev → Dev) (t : BitVec 64) (d : Dev) : Dev :=
  let x := d.advance t
  if p.opcode.toNat = op ∧ p.dest.toNat = x.get R.DEV_ADDR_address ∧ packetOk p ∧ x.unitWaits p then enqueueSelf p x
  else receive op p f t d

def execRead (p : Packet) (t : BitVec 64) (d : Dev) : Dev := receiveWhenReady opRead p takeRead t d
def execWrite (p : Packet) (t : BitVec 64) (d : Dev) : Dev := receiveWhenReady opWrite p takeWrite t d
def execRelay (p : Packet) (t : BitVec 64) (d : Dev) : Dev := receiveWhenReady opRelay p takeRelay t d

/-- MGMT_REQ (R18, R19, R199). -/
def execMgmtReq (p : Packet) (asks : Option (Nat × Nat)) (t : BitVec 64) (d : Dev) : Dev :=
  receive opMgmtReq p (fun p d => takeMgmt p asks d) t d

/-- LAUNCH packets: a RECORD or an ACK by byte 28 of the data (Table 13.10). -/
def execLaunchRecordPacket (p : Packet) (t : BitVec 64) (d : Dev) : Dev :=
  if p.data.getD 28 0 = 0 then receive opLaunch p launchRecord t d else d
def execLaunchAckPacket (p : Packet) (t : BitVec 64) (d : Dev) : Dev :=
  if p.data.getD 28 0 = 1 then receive opLaunch p launchAck t d else d

/-! ### Responses at the requester (R333) -/

/-- The request that a response answers: its tag is outstanding and its generation current, and it is a request of that
kind. -/
def Dev.answered (d : Dev) (p : Packet) (ops : List Nat) : Option Req :=
  d.fabric.reqs.find? (fun r => decide (r.packet.tag = p.tag ∧ r.packet.gen = p.gen) && ops.contains r.packet.opcode.toNat)

/-- A request that a timeout or a lost link ended in the PX cycle in which a response to it arrives (Table 11.7). -/
def Dev.endedNow (d : Dev) (p : Packet) (ops : List Nat) : Option Req :=
  (d.fabric.ended.find? (fun e => decide (e.cycle = cycleOf d.now ∧ e.req.packet.tag = p.tag ∧ e.req.packet.gen = p.gen) &&
    ops.contains e.req.packet.opcode.toNat)).map (·.req)

/-- The response stands: what the timeout or the lost link made of the request is taken back, its re-issue with it. -/
def responseStands (r : Req) (status : Nat) (data : List Byte) (d : Dev) : Dev :=
  let mine := fun (x : Req) => decide (x.requester = r.requester ∧ x.packet.tag = r.packet.tag)
  let again := (d.fabric.reqs.find? mine).map (·.packet)
  let d := { d with
    fabric := { d.fabric with
      reqs := d.fabric.reqs.filter (fun x => !mine x),
      ended := d.fabric.ended.filter (fun e => !decide (e.req = r)),
      done := d.fabric.done.filter (fun c => !decide (c.requester = r.requester ∧ c.tag = r.packet.tag.toNat ∧
        (c.status = stTimeout ∨ c.status = stLinkLost))) ++ [⟨r.requester, r.packet.tag.toNat, status, data⟩] }
    launch := { d.launch with failed := d.launch.failed.erase r.packet.dest.toNat } }
  let d := if r.packet.opcode.toNat = opRelay then { d with ferry := { d.ferry with runs := d.ferry.runs.map (fun e =>
      match e.2 with
      | some run => if run.cmd.hops.contains r.packet.dest.toNat then (e.1, some { run with relayFail := false }) else e
      | none => e) } } else d
  showTags (match again with
    | some q => (List.range 6).foldl (fun d l => d.modLink l (fun x =>
        match x.kept.find? (fun k => decide (k.2 = q)) with
        | some k => { x with kept := x.kept.erase k, driftQueue := x.driftQueue.filter (fun f => !decide (f.pkt = k.1)) }
        | none => { x with waiting := x.waiting.filter (fun w => !decide (w.1 = q)) })) d
    | none => d)

/-- A response completes its request, or is discarded as stale. -/
def closeTag (ops : List Nat) (p : Packet) (d : Dev) : Dev :=
  match d.answered p ops, d.endedNow p ops with
  | some r, _ => completeReq r p.status.toNat p.data d
  | none, some r => responseStands r p.status.toNat p.data d
  | none, none => d.inc C.DRIFT_COUNTS2_stale

def execReadResp (p : Packet) (t : BitVec 64) (d : Dev) : Dev := receive opReadResp p (closeTag [opRead]) t d
def execWriteAck (p : Packet) (t : BitVec 64) (d : Dev) : Dev :=
  receive opWriteAck p (closeTag [opWrite, opRelay]) t d
def execBounce (p : Packet) (t : BitVec 64) (d : Dev) : Dev :=
  receive opBounce p (closeTag [opRead, opWrite, opRelay, opMgmtReq, opLaunch]) t d
def execMgmtResp (p : Packet) (t : BitVec 64) (d : Dev) : Dev :=
  receive opMgmtResp p (closeTag [opMgmtReq, opLaunch]) t d

/-- DRIFT_REQ_TIMEOUT (R334). -/
def execDriftReqTimeout (rq tag : Nat) (t : BitVec 64) (d : Dev) : Dev :=
  let d := d.advance t
  match d.fabric.reqs.find? (fun r => decide (r.requester = rq ∧ r.packet.tag.toNat = tag)) with
  | some r =>
    if tdiff t r.issued ≥ (d.before R.DRIFT_CTL_req_timeout * usU : Nat) then
      let d := completeReq r stTimeout [] (noteEnded r (d.inc C.DRIFT_COUNTS_timeouts))
      drainRequests (raiseOncePerSecond 2 E.DRIFT_TIMEOUT none d)
    else d
  | none => d

/-! ### Packets on their way (R322, R326 to R330) -/

/-- The flits of the packet at the front of a buffer; none while its last flit has not come. -/
def frontPacket : List DriftFlit → Option (List DriftFlit)
  | [] => none
  | f :: l => if f.last then some [f] else (frontPacket l).map (f :: ·)

/-- First and last markers agree with the flit count (R322). -/
def markersOk : List DriftFlit → Bool
  | [] => false
  | f :: l => f.first && l.all (fun g => !g.first)

/-- Flits leave a link's input buffer or transit buffer; those of the input buffer give back their credits (R302). -/
def leaveBuffer (via vc n : Nat) (transit : Bool) (d : Dev) : Dev :=
  d.modLink via (fun x =>
    if transit then { x with transit := tput [] x.transit vc ((tget [] x.transit vc).drop n) }
    else
      let old := Nat.min n (tget 0 x.oldFlits vc)
      { x with
        inBuf := tput [] x.inBuf vc ((tget [] x.inBuf vc).drop n),
        oldFlits := tput 0 x.oldFlits vc (tget 0 x.oldFlits vc - old),
        freed := tput 0 x.freed vc ((tget 0 x.freed vc + (n - old)) % 65536) })

/-- A packet that has no route (R330). -/
def noRoutePacket (p : Packet) (d : Dev) : Dev :=
  if p.vc = 1 then noRouteDiscard d else raiseOncePerSecond 1 E.DRIFT_NO_ROUTE none (bounce p stNoRoute d)

/-- Flits on their way over the Isthmus to an input link's transit buffer of a VC. -/
def Dev.onWayTo (d : Dev) (via vc : Nat) : Nat :=
  ((d.ist.toE.runs ++ d.ist.toH.runs).map (fun r => match r.body with
    | .drift l v flits => if l = via ∧ v = vc then flits.length else 0
    | _ => 0)).foldl (· + ·) 0

/-- DRIFT_FORWARD: the packet at the front of a link's input buffer, or of its transit buffer on the far die, moves on. -/
def execDriftForward (via vc : Nat) (transit : Bool) (t : BitVec 64) (d : Dev) : Dev :=
  let d := d.advance t
  let x := d.link via
  let buf := tget [] (if transit then x.transit else x.inBuf) vc
  match frontPacket buf with
  | none => d
  | some fs =>
    let n := fs.length
    let gone := leaveBuffer via vc n transit d
    match (if markersOk fs then parsePacket vc (fs.map (·.data)) else none) with
    | none => malformed gone
    | some p =>
      match d.route p (some via) with
      | (.here, _) => if d.unitWaits p then d else { gone with fabric := { gone.fabric with selfQ := gone.fabric.selfQ ++ [p] } }
      | (.noRoute, _) => noRoutePacket p gone
      | (.out l q enters, turned) =>
        if ¬ transit ∧ dieOfLink l ≠ dieOfLink via then
          -- the packet crosses the Isthmus when the whole of it fits (R327)
          if (tget [] x.transit vc).length + d.onWayTo via vc + n ≤ 4 then
            gone.istQueue (dieOfLink l = 1) (icDrift vc) 0 0 p.addr.toNat (4 * n) (.drift via vc fs)
          else d
        else queueOn l q enters (if turned then gone.inc C.DRIFT_COUNTS_detours else gone)

/-! ### What snoop responses set free (R406) -/

/-- Packets whose wait is over make their access. -/
def takeReady (d : Dev) : Dev :=
  let ps := d.host.ready
  ps.foldl (fun d p => if p.opcode.toNat = opRead then takeRead p d else takeWrite p d)
    (d.modHost (fun h => { h with ready := [] }))

/-- A command of the host port, after which waiting drift accesses may go on. -/
def thenReady (f : Dev → Dev) (d : Dev) : Dev := drainRequests (onCore 1 takeReady (f d))

/-- A host access to HBM: the die answers while its core domain is out of reset, and its stacks wake (R449). The host
port is on Headland, so that an access to Estuary's stacks waits for the Isthmus (R10); one to a stack that retrains waits
too (Table 17.5). -/
def onHdm (a n : Nat) (f : Dev → Dev) (d : Dev) : Dev :=
  match d.hdmAt a n with
  | some (die, x) => onCore die (fun d => if (die = 0 ∨ d.isthmusUp) ∧ ¬ d.bytesTrain die x n then f (wakeFor die x n d) else d) d
  | none => f d

end Sys2Proof.Machine
end

