-- ==== Sys2Proof/Machine/MeanCells.lean ====
section
/-! DEFINITION. What each command means to the whole block, and what it asks of the block first: Deliveries of the plan pipelines, scratchpads (03, 05). -/

namespace Sys2Proof.Machine

/-- MAC_CONTRIBUTION (R115). -/
def onMacContribution (r : Region) (s : State) : Answer := active (dieOf r.val) (landContributions r.val) s

/-- WLOAD_COMPLETE (R74). -/
def onWloadComplete (r : Region) (s : State) : Answer := active (dieOf r.val) (landLoads r.val) s

/-- VECTOR_RESULT (R133). -/
def onVectorResult (r : Region) (s : State) : Answer := active (dieOf r.val) (landResults r.val) s

/-- ST_WRITE (R133). -/
def onStWrite (r : Region) (s : State) : Answer := active (dieOf r.val) (landStores r.val) s

/-- TRANSFER_DELIVERY (R80). -/
def onTransferDelivery (r : Region) (s : State) : Answer := active (dieOf r.val) (landDeliveries r.val) s

/-- RING_PAGE_FILL (R97). -/
def onRingPageFill (r : Region) (s : State) : Answer := active (dieOf r.val) (execRingPageFill r.val) s

/-- SLIP_PERIOD (R145). -/
def onSlipPeriod (r : Region) (t : Time) (s : State) : Answer := active (dieOf r.val) (execSlipPeriod r.val t) s

/-- SP_PATROL_SCRUB (R156). -/
def onSpPatrolScrub (r : Region) (upsets : List Upset) (s : State) : Answer :=
  onDie (dieOf r.val) (execSpPatrolScrub r.val upsets) s

/-- SEG_CLASS_WRITE (R152). -/
def onSegClassWrite (r : Region) (cell : Fin 32) (value : Word) (s : State) : Answer :=
  onDie (dieOf r.val) (execSegClassWrite r.val cell.val value.toNat) s

/-- SEG_REINIT_DONE (R152). -/
def onSegReinitDone (r : Region) (cell : Fin 32) (segment : Fin 64) (s : State) : Answer :=
  onDie (dieOf r.val) (execSegReinitDone r.val cell.val segment.val) s

/-- HARBOUR_WRITE (R164). -/
def onHarbourWrite (r : Region) (cell : Fin 32) (window : Fin 8) (value : Word) (_bar2 : Bool) (s : State) : Answer :=
  onDie (dieOf r.val) (execHarbourWrite r.val cell.val window.val value.toNat) s

end Sys2Proof.Machine
end

