-- ==== Sys2Proof/Machine/MeanDevice.lean ====
section
/-! DEFINITION. What each command means to the whole block, and what it asks of the block first: Device organisation (01). -/

namespace Sys2Proof.Machine

/-- DEV_FUNC_MODE_WRITE (R23). -/
def onDevFuncModeWrite (value : BitVec 10) (s : State) : Answer := settled (execDevFuncModeWrite value.toNat) s

/-- MODE_CHANGE_EFFECT (R23). -/
def onModeChangeEffect (fn : Fin 10) (s : State) : Answer := settled (execModeChangeEffect fn.val) s

/-- KEEPER_ACCESS (R17). -/
def onKeeperAccess (addr : Word) (s : State) : Answer := settled (execKeeperAccess addr.toNat) s

/-- KEEPER_RESTART_DONE (R19). -/
def onKeeperRestartDone (s : State) : Answer := estuary execKeeperRestartDone s

/-- ABSENT_ENGINE_ACCESS (R28). -/
def onAbsentEngineAccess (offset : BitVec 25) (write : Bool) (s : State) : Answer :=
  settled (execAbsentEngineAccess offset.toNat write) s

end Sys2Proof.Machine
end

