-- ==== Sys2Proof/Machine/MeanEvents.lean ====
section
/-! DEFINITION. What each command means to the whole block, and what it asks of the block first: Errors, events, the life log and the registers (19, 20). -/

namespace Sys2Proof.Machine

/-- ROUTER_CRC_FAIL (R497). -/
def onRouterCrcFail (r : Region) (drift : Bool) (attempt : Fin 4) (t : Time) (s : State) : Answer :=
  active (dieOf r.val) (execRouterCrcFail r.val drift attempt.val t) s

/-- RESET_CORES (R500). -/
def onResetCores (t : Time) (s : State) : Answer := settled (execResetCores t) s

/-- COALESCE_EXPIRY (R505). -/
def onCoalesceExpiry (vector : Fin 64) (t : Time) (s : State) : Answer := estuary (execCoalesceExpiry vector.val t) s

/-- EVT_RING_BASE_WRITE (R503). -/
def onEvtRingBaseWrite (value : Word) (s : State) : Answer := estuary (execEvtRingBaseWrite value.toNat) s

/-- EVT_STATUS_CLEAR (R506). -/
def onEvtStatusClear (value : Word) (s : State) : Answer := estuary (execEvtStatusClear value.toNat) s

/-- HALF_READ (R508). -/
def onHalfRead (requester : BitVec 22) (offset : BitVec 25) (s : State) : Answer :=
  settled (execHalfRead requester.toNat offset.toNat) s

/-- LIFE_SUMMARY (R513). -/
def onLifeSummary (t : Time) (s : State) : Answer := settled (execLifeSummary t) s

/-- LIFE_MINUTE (R513). -/
def onLifeMinute (temps : List (BitVec 16) ) (t : Time) (s : State) : Answer := settled (execLifeMinute temps t) s

/-- LIFE_FLUSH (R515). -/
def onLifeFlush (value : Word) (s : State) : Answer := settled (execLifeFlush value.toNat) s

/-- LIFE_WRITE_DONE (R511). -/
def onLifeWriteDone (ok : Bool) (t : Time) (s : State) : Answer := settled (execLifeWriteDone ok t) s

/-- REGISTER_WRITE (R3). -/
def onRegisterWrite (src : RegSource) (offset : BitVec 25) (part : RegPart) (value : Word) (t : Time) (s : State) :
    Answer :=
  settled (execRegisterWrite src offset.toNat part value.toNat t) s

/-- BAR2_REFUSED (R527). -/
def onBar2Refused (offset : BitVec 25) (t : Time) (s : State) : Answer := settled (execBar2Refused offset.toNat t) s

/-- MISALIGNED_ACCESS (R520). -/
def onMisalignedAccess (offset : BitVec 25) (size : BitVec 8) (t : Time) (s : State) : Answer :=
  settled (execMisalignedAccess offset.toNat size.toNat t) s

end Sys2Proof.Machine
end

