-- ==== Sys2Proof/Machine/MeanFabric.lean ====
section
/-! DEFINITION. What each command means to the whole block, and what it asks of the block first: Drift and the service arbiters (11). -/

namespace Sys2Proof.Machine

/-- READ (R321). -/
def onRead (p : Packet) (t : Time) (s : State) : Answer := active 1 (execRead p t) s

/-- WRITE (R161). -/
def onWrite (p : Packet) (t : Time) (s : State) : Answer := active 1 (execWrite p t) s

/-- READ_RESP (R333). -/
def onReadResp (p : Packet) (t : Time) (s : State) : Answer := active 1 (execReadResp p t) s

/-- WRITE_ACK (R333). -/
def onWriteAck (p : Packet) (t : Time) (s : State) : Answer := active 1 (execWriteAck p t) s

/-- BOUNCE (R330). -/
def onBounce (p : Packet) (t : Time) (s : State) : Answer := active 1 (execBounce p t) s

/-- RELAY (R182). -/
def onRelay (p : Packet) (t : Time) (s : State) : Answer := active 1 (execRelay p t) s

/-- MGMT_REQ (R19). -/
def onMgmtReq (p : Packet) (asks : Option (BitVec 7 × BitVec 32) ) (t : Time) (s : State) : Answer :=
  active 1 (execMgmtReq p (asks.map (fun a => (a.1.toNat, a.2.toNat))) t) s

/-- MGMT_RESP (R333). -/
def onMgmtResp (p : Packet) (t : Time) (s : State) : Answer := active 1 (execMgmtResp p t) s

/-- DRIFT_FORWARD (R325). -/
def onDriftForward (via : Link) (vc : BitVec 2) (transit : Bool) (t : Time) (s : State) : Answer :=
  active 1 (execDriftForward via.val vc.toNat transit t) s

/-- DRIFT_REQ_TIMEOUT (R334). -/
def onDriftReqTimeout (requester : BitVec 4) (tag : BitVec 12) (t : Time) (s : State) : Answer :=
  active 1 (execDriftReqTimeout requester.toNat tag.toNat t) s

/-- ARB_GRANT (R340). -/
def onArbGrant (i : Fin 600) (requesting : BitVec 16) (s : State) : Answer :=
  onDie (arbDie i.val) (execArbGrant i.val requesting.toNat) s

/-- ARB_STARVE_LIMIT (R342). -/
def onArbStarveLimit (i : Fin 600) (q : Fin 16) (s : State) : Answer :=
  onDie (arbDie i.val) (execArbStarveLimit i.val q.val) s

/-- ARB_WITHDRAW (R343). -/
def onArbWithdraw (i : Fin 600) (q : Fin 16) (s : State) : Answer :=
  onDie (arbDie i.val) (execArbWithdraw i.val q.val) s

/-- ARB_MASK (R344). -/
def onArbMask (i : Fin 600) (m : MaskChange) (s : State) : Answer :=
  onDie (arbDie i.val) (execArbMask i.val m.requester.val m.masked) s

end Sys2Proof.Machine
end

