-- ==== Sys2Proof/Machine/MeanLaunch.lean ====
section
/-! DEFINITION. What each command means to the whole block, and what it asks of the block first: Admission and launch (13). -/

namespace Sys2Proof.Machine

/-- ADMIT (R379). -/
def onAdmitPlan (t : Time) (s : State) : Answer := estuary (execAdmit t) s

/-- ADMIT_COMPLETE (R379). -/
def onAdmitComplete (isthmus : BitVec 5) (t : Time) (s : State) : Answer :=
  estuary (finishAdmission isthmus.toNat t) s

/-- ADMIT_RELEASE (R63). -/
def onAdmitRelease (s : State) : Answer := estuary releaseAdmission s

/-- LAUNCH_START (R383). -/
def onLaunchStart (tide : BitVec 48) (t : Time) (s : State) : Answer := active 1 (execLaunchStart tide.toNat t) s

/-- LAUNCH_SEND (R387). -/
def onLaunchSend (index : BitVec 15) (t : Time) (s : State) : Answer := active 1 (execLaunchSend index.toNat t) s

/-- LAUNCH_RECORD (R382). -/
def onLaunchRecord (p : Packet) (t : Time) (s : State) : Answer := active 1 (execLaunchRecordPacket p t) s

/-- LAUNCH_ACK (R386). -/
def onLaunchAck (p : Packet) (t : Time) (s : State) : Answer := active 1 (execLaunchAckPacket p t) s

/-- LAUNCH_WAIT_EXPIRY (R385). -/
def onLaunchWaitExpiry (index : BitVec 15) (t : Time) (s : State) : Answer :=
  active 1 (execLaunchWaitExpiry index.toNat t) s

/-- LAUNCH_HOST_WAIT_EXPIRY (R387). -/
def onLaunchHostWaitExpiry (t : Time) (s : State) : Answer := active 1 (execLaunchHostWaitExpiry t) s

end Sys2Proof.Machine
end

