-- ==== Sys2Proof/Machine/MeanLinks.lean ====
section
/-! DEFINITION. What each command means to the whole block, and what it asks of the block first: The Isthmus and the Causeway links (09, 10). -/

namespace Sys2Proof.Machine

/-- IST_ENTRY_ARRIVAL (R273). -/
def onIstEntryArrival (toEstuary : Bool) (t : Time) (s : State) : Answer :=
  active 0 (execIstEntryArrival toEstuary t) s

/-- IST_CRC_FAIL (R275). -/
def onIstCrcFail (flit : IstFlit) (s : State) : Answer := onDie 0 (execIstCrcFail flit.toEstuary flit.seq flit.t) s

/-- IST_RETRAIN_DONE (R276). -/
def onIstRetrainDone (up : BitVec 8) (repaired : List LaneRepair) (t : Time) (s : State) : Answer :=
  onDie 0 (execIstRetrainDone up.toNat repaired t) s

/-- SIDEBAND_FRAME (R279). -/
def onSidebandFrame (toEstuary crcOk : Bool) (seq : BitVec 16) (times : SideTime) (t : Time) (s : State) : Answer :=
  onDie 0 (execSidebandFrame toEstuary crcOk seq times.sent times.drift times.delay t) s

/-- ACK_FLIT (R295). -/
def onAckFlit (l : Link) (h : FlitHead) (totals : VcTotals) (t : Time) (s : State) : Answer :=
  onDie (dieOfLink l.val) (execAckFlit l.val h totals t) s

/-- PLAN_FLIT (R301). -/
def onPlanFlit (l : Link) (h : FlitHead) (tide : BitVec 16) (stream : BitVec 8) (index : BitVec 16)
    (data : BitVec 1920) (t : Time) (s : State) : Answer :=
  onDie (dieOfLink l.val) (execPlanFlit l.val h tide.toNat stream.toNat index.toNat data t) s

/-- DRIFT_FLIT (R302). -/
def onDriftFlit (l : Link) (h : FlitHead) (vc : BitVec 2) (first last : Bool) (data : BitVec 1920) (t : Time)
    (s : State) : Answer :=
  onDie (dieOfLink l.val) (execDriftFlit l.val h vc.toNat first last data t) s

/-- NAK_FLIT (R296). -/
def onNakFlit (l : Link) (h : FlitHead) (expected : BitVec 16) (t : Time) (s : State) : Answer :=
  onDie (dieOfLink l.val) (execNakFlit l.val h expected t) s

/-- LANE_FLIT (R305). -/
def onLaneFlit (l : Link) (h : FlitHead) (lane : Fin 9) (action : BitVec 2) (t : Time) (s : State) : Answer :=
  onDie (dieOfLink l.val) (execLaneFlit l.val h lane.val action.toNat t) s

/-- CREDIT_SYNC_FLIT (R303). -/
def onCreditSyncFlit (l : Link) (h : FlitHead) (_mark : BitVec 32) (totals : VcTotals) (t : Time) (s : State) : Answer
    :=
  onDie (dieOfLink l.val) (execCreditSyncFlit l.val h totals t) s

/-- TIME_FLIT (R354). -/
def onTimeFlit (l : Link) (h : FlitHead) (data : List Byte) (arrival t : Time) (s : State) : Answer :=
  onDie (dieOfLink l.val) (execTimeFlit l.val h data arrival t) s

/-- INIT_FLIT (R310). -/
def onInitFlit (l : Link) (device : BitVec 20) (link : BitVec 3) (_data : List Byte) (t : Time) (s : State) : Answer
    :=
  onDie (dieOfLink l.val) (execInitFlit l.val device.toNat link.toNat t) s

/-- FLIT_CRC_FAIL (R292). -/
def onFlitCrcFail (l : Link) (t : Time) (s : State) : Answer := onDie (dieOfLink l.val) (execFlitCrcFail l.val t) s

/-- FLIT_SLOT_SEND (R289). -/
def onFlitSlotSend (l : Link) (t : Time) (s : State) : Answer := onDie (dieOfLink l.val) (execFlitSlotSend l.val t) s

/-- ACK_TIMEOUT (R296). -/
def onAckTimeout (l : Link) (t : Time) (s : State) : Answer := onDie (dieOfLink l.val) (execAckTimeout l.val t) s

/-- ACK_INTERVAL_EXPIRY (R294). -/
def onAckIntervalExpiry (l : Link) (t : Time) (s : State) : Answer :=
  onDie (dieOfLink l.val) (execAckIntervalExpiry l.val t) s

/-- LANE_FAIL (R304). -/
def onLaneFail (l : Link) (lane : Fin 9) (symbols : BitVec 32) (t : Time) (s : State) : Answer :=
  onDie (dieOfLink l.val) (execLaneFail l.val lane.val symbols.toNat t) s

/-- LANE_REPORT_REPEAT (R304). -/
def onLaneReportRepeat (l : Link) (t : Time) (s : State) : Answer :=
  onDie (dieOfLink l.val) (execLaneReportRepeat l.val t) s

/-- LANE_MAP_CHANGE (R305). -/
def onLaneMapChange (l : Link) (transmit : Bool) (t : Time) (s : State) : Answer :=
  onDie (dieOfLink l.val) (execLaneMapChange l.val transmit t) s

/-- LOCK_LOST (R307). -/
def onLockLost (l : Link) (codewords : BitVec 32) (t : Time) (s : State) : Answer :=
  onDie (dieOfLink l.val) (execLockLost l.val codewords.toNat t) s

/-- LOCK_REGAINED (R307). -/
def onLockRegained (l : Link) (t : Time) (s : State) : Answer := onDie (dieOfLink l.val) (execLockRegained l.val t) s

/-- DOWN_TIME_EXPIRY (R307). -/
def onDownTimeExpiry (l : Link) (t : Time) (s : State) : Answer :=
  onDie (dieOfLink l.val) (execDownTimeExpiry l.val t) s

/-- TRAIN_RETRY_EXPIRY (R309). -/
def onTrainRetryExpiry (l : Link) (t : Time) (s : State) : Answer :=
  onDie (dieOfLink l.val) (execTrainRetryExpiry l.val t) s

/-- TRAINING_DONE (R310). -/
def onTrainingDone (l : Link) (rxGood txGood : BitVec 9) (t : Time) (s : State) : Answer :=
  onDie (dieOfLink l.val) (execTrainingDone l.val rxGood.toNat txGood.toNat t) s

/-- TRAIN_TIMEOUT (R310). -/
def onTrainTimeout (l : Link) (t : Time) (s : State) : Answer := onDie (dieOfLink l.val) (execTrainTimeout l.val t) s

/-- DAMP_EXPIRY (R312). -/
def onDampExpiry (l : Link) (t : Time) (s : State) : Answer := onDie (dieOfLink l.val) (execDampExpiry l.val t) s

/-- CW_CMD_TRAIN (R309). -/
def onCwCmdTrain (l : Link) (t : Time) (s : State) : Answer := onDie (dieOfLink l.val) (execCwCmdTrain l.val t) s

/-- CW_CMD_SPARE (R306). -/
def onCwCmdSpare (l : Link) (t : Time) (s : State) : Answer := onDie (dieOfLink l.val) (execCwCmdSpare l.val t) s

/-- CW_CMD_DROP (R305). -/
def onCwCmdDrop (l : Link) (lane : Fin 9) (t : Time) (s : State) : Answer :=
  onDie (dieOfLink l.val) (execCwCmdDrop l.val lane.val t) s

/-- CW_CMD_DOWN (R308). -/
def onCwCmdDown (l : Link) (t : Time) (s : State) : Answer := onDie (dieOfLink l.val) (execCwCmdDown l.val t) s

/-- CW_HOST_WAIT_EXPIRY (R309). -/
def onCwHostWaitExpiry (l : Link) (t : Time) (s : State) : Answer :=
  onDie (dieOfLink l.val) (execCwHostWaitExpiry l.val t) s

/-- FENCE_WRITE (R313). -/
def onFenceWrite (l : Link) (value : Word) (t : Time) (s : State) : Answer :=
  onDie (dieOfLink l.val) (execFenceWrite l.val value.toNat t) s

end Sys2Proof.Machine
end

