-- ==== Sys2Proof/Machine/MeanMemory.lean ====
section
/-! DEFINITION. What each command means to the whole block, and what it asks of the block first: HBM and the Ferry (06). -/

namespace Sys2Proof.Machine

/-- HBM_PATROL_SCRUB (R172). -/
def onHbmPatrolScrub (stack : Stack) (addr len : BitVec 39) (upsets : List HbmUpset) (s : State) : Answer :=
  onDie (dieOfStack stack.val) (unlessParked (fun d =>
    if d.stackTrains stack.val then d else execHbmPatrolScrub stack.val addr.toNat len.toNat upsets d)) s

/-- HBM_READ_ARRIVAL (R175). -/
def onHbmReadArrival (r : Region) (id : BitVec 8) (upsets : List HbmUpset) (s : State) : Answer :=
  active (dieOf r.val) (afterSnoop (fun d => d.streamLines r.val id.toNat 64) (execHbmReadArrival r.val id.toNat upsets)) s

/-- HBM_WRITE_ACCEPT (R176). -/
def onHbmWriteAccept (r : Region) (id : BitVec 8) (cell : Fin 32) (off : BitVec 22) (s : State) : Answer :=
  active (dieOf r.val) (afterSnoop (fun d => d.streamLines r.val id.toNat 8) (execHbmWriteAccept r.val id.toNat cell.val off.toNat)) s

/-- HB_AREA_WRITE (R169). -/
def onHbAreaWrite (die : Die) (area : Fin 8) (value : Word) (s : State) : Answer :=
  onDie die.val (execHbAreaWrite die.val area.val value.toNat) s

/-- FERRY_RING_TAIL_WRITE (R181). -/
def onFerryRingTailWrite (value : Word) (s : State) : Answer := estuary (execFerryRingTailWrite value.toNat) s

/-- FETCH (R182). -/
def onFetch (own : Bool) (t : Time) (s : State) : Answer := estuary (execFetch own t) s

/-- PUSH (R182). -/
def onPush (t : Time) (s : State) : Answer := estuary (execPush t) s

/-- RECV (R182). -/
def onRecv (own : Bool) (t : Time) (s : State) : Answer := estuary (execRecv own t) s

/-- MIRROR (R198). -/
def onMirror (own : Bool) (t : Time) (s : State) : Answer := estuary (execMirror own t) s

/-- EVICT (R195). -/
def onEvict (t : Time) (s : State) : Answer := estuary (execEvict t) s

/-- REHASH (R201). -/
def onRehash (own : Bool) (t : Time) (s : State) : Answer := estuary (execRehash own t) s

/-- FERRY_FORMAT (R181). -/
def onFerryFormat (t : Time) (s : State) : Answer := estuary (execFerryFormat t) s

/-- FERRY_BLOCK_RECEIVED (R183). -/
def onFerryBlockReceived (run : Fin 8) (s : State) : Answer :=
  estuary (afterSnoop (fun d => d.pushLines run.val) (execFerryBlockReceived run.val)) s

/-- FERRY_COMMAND_DONE (R185). -/
def onFerryCommandDone (run : Fin 8) (sourceLost relayLost badCopy : Bool) (t : Time) (s : State) : Answer :=
  estuary (execFerryCommandDone run.val sourceLost relayLost badCopy t) s

/-- FERRY_HOST_WAIT_EXPIRY (R186). -/
def onFerryHostWaitExpiry (m : BitVec 7) (t : Time) (s : State) : Answer :=
  estuary (execFerryHostWaitExpiry m.toNat t) s

/-- MODEL_REGISTER (R189). -/
def onModelRegister (m : BitVec 7) (s : State) : Answer := estuary (execModelRegister m.toNat) s

/-- MODEL_LOAD (R189). -/
def onModelLoad (m : BitVec 7) (t : Time) (s : State) : Answer := estuary (execModelLoad m.toNat t) s

/-- MODEL_UNREGISTER (R189). -/
def onModelUnregister (m : BitVec 7) (s : State) : Answer := estuary (execModelUnregister m.toNat) s

/-- EVICTION_DONE (R195). -/
def onEvictionDone (m : BitVec 7) (s : State) : Answer := estuary (execEvictionDone m.toNat) s

/-- REHASH_INTERVAL_EXPIRY (R201). -/
def onRehashIntervalExpiry (t : Time) (s : State) : Answer := estuary (unlessParked (execRehashIntervalExpiry t)) s

/-- SLOW_TIER_FILL_DONE (R202). -/
def onSlowTierFillDone (m : BitVec 7) (shards : List (List Byte) ) (s : State) : Answer :=
  estuary (execSlowTierFillDone m.toNat shards) s

end Sys2Proof.Machine
end

