-- ==== Sys2Proof/Machine/MeanMeter.lean ====
section
/-! DEFINITION. What each command means to the whole block, and what it asks of the block first: The sealed meter (18). -/

namespace Sys2Proof.Machine

/-- FEED_COUNT_RECORD (R483). -/
def onFeedCountRecord (flips : BitVec 192) (ackLost : Bool) (t : Time) (s : State) : Answer :=
  liftBoth (execFeedCountRecord flips ackLost t) s

/-- FEED_IDLE_FRAME (R482). -/
def onFeedIdleFrame (flips : BitVec 192) (ackLost : Bool) (t : Time) (s : State) : Answer :=
  liftBoth (execFeedIdleFrame flips ackLost t) s

/-- FEED_RESEND_TIMEOUT (R482). -/
def onFeedResendTimeout (t : Time) (s : State) : Answer := estuary (execFeedResendTimeout t) s

/-- FEED_IDLE_TIMER (R482). -/
def onFeedIdleTimer (t : Time) (s : State) : Answer := estuary (execFeedIdleTimer t) s

/-- FEED_INTERRUPTION (R484). -/
def onFeedInterruption (t : Time) (s : State) : Answer := liftBoth (execFeedInterruption t) s

/-- ENERGY_SAMPLE (R485). -/
def onEnergySample (shunts volts : List (BitVec 32) ) (s : State) : Answer :=
  liftMeter (whenPowered (execEnergySample shunts volts)) s

/-- METER_TIMEBASE_FAIL (R488). -/
def onMeterTimebaseFail (s : State) : Answer := liftMeter (whenPowered execMeterTimebaseFail) s

/-- METER_TIMEBASE_RESTORE (R488). -/
def onMeterTimebaseRestore (s : State) : Answer := liftMeter (whenPowered execMeterTimebaseRestore) s

/-- RECORD_INTERVAL_END (R489). -/
def onRecordIntervalEnd (t : Time) (s : State) : Answer := liftBoth (execRecordIntervalEnd t) s

/-- RECORD_SIGNED (R489). -/
def onRecordSigned (t : Time) (s : State) : Answer := liftBoth (execRecordSigned t) s

/-- METER_SUPPLY_WARNING (R491). -/
def onMeterSupplyWarning (t : Time) (s : State) : Answer := liftMeter (execMeterSupplyWarning t) s

/-- METER_POWER_RESTORE (R491). -/
def onMeterPowerRestore (t : Time) (s : State) : Answer := liftBoth (execMeterPowerRestore t) s

/-- SEAL_OPEN (R492). -/
def onSealOpen (s : State) : Answer := liftMeter (whenPowered execSealOpen) s

/-- SEAL_CLOSE (R492). -/
def onSealClose (s : State) : Answer := liftMeter (whenPowered execSealClose) s

/-- READ_RECORD (R493). -/
def onReadRecord (number : Word) (s : State) : Answer := liftMeter (whenPowered (execReadRecord number.toNat)) s

/-- READ_CUSTOMER_SNAPSHOT (R493). -/
def onReadCustomerSnapshot (number : Word) (s : State) : Answer :=
  liftMeter (whenPowered (execReadCustomerSnapshot number.toNat)) s

/-- READ_LIVE_TOTALS (R493). -/
def onReadLiveTotals (t : Time) (s : State) : Answer := liftMeter (whenPowered (execReadLiveTotals t)) s

/-- READ_CERTIFICATE (R493). -/
def onReadCertificate (s : State) : Answer := liftMeter (whenPowered execReadCertificate) s

/-- WRITE_PARAMETER_SET (R493). -/
def onWriteParameterSet (set : List Byte) (s : State) : Answer :=
  liftMeter (whenPowered (execWriteParameterSet set)) s

/-- SET_METER_SECONDS (R492). -/
def onSetMeterSeconds (value : Word) (t : Time) (s : State) : Answer :=
  liftMeter (whenPowered (execSetMeterSeconds value.toNat t)) s

/-- MIRROR_REFRESH (R495). -/
def onMirrorRefresh (t : Time) (s : State) : Answer := liftBoth (execMirrorRefresh t) s

/-- MIRROR_STALE_TIMEOUT (R495). -/
def onMirrorStaleTimeout (t : Time) (s : State) : Answer := estuary (execMirrorStaleTimeout t) s

end Sys2Proof.Machine
end

