-- ==== Sys2Proof/Machine/Side.lean ====
section
/-! DEFINITION. The board sideband (15): the I3C target and its read-only map, and the JTAG port. -/

namespace Sys2Proof.Machine

def Dev.modSide (d : Dev) (f : SideSt → SideSt) : Dev := { d with side := f d.side }

/-- A region is powered: its die's core domain is out of reset and the device is not DORMANT (Table 16.9). -/
def Dev.powered (d : Dev) (r : Nat) : Bool := d.coreUp (dieOf r) && decide (d.get R.PWR_STATE_state ≠ 3)

/-- Hottest powered region, signed in 1/16 degree; none where no region is powered. -/
def Dev.hottest (d : Dev) : Option Int :=
  ((List.range 16).filter (fun r => d.powered r)).foldl (fun best r =>
    let t := sext 16 (d.get R.CLK_REGION_STATUS_temp r)
    match best with
    | none => some t
    | some b => some (if t > b then t else b)) none

/-- The read-only map of Table 15.4. -/
def Dev.i3cMap (d : Dev) : List Byte :=
  let temp := match d.hottest with
    | some t => wrap 16 t
    | none => 0x8000
  let seen := flag (d.is R.EVT_STATUS_nmi_seen) + 2 * flag (d.is R.EVT_STATUS_fatal_seen) +
    4 * flag (d.is R.EVT_STATUS_fault_seen)
  leBytes 1 d.fuses.grade.val ++ leBytes 3 (d.regOf R.DEV_ADDR_address % 2 ^ 21) ++ leBytes 1 (d.get R.PWR_STATE_state) ++
  leBytes 1 (d.get R.TIDE_STATUS_state) ++ leBytes 1 seen ++ leBytes 1 0 ++ leBytes 2 temp ++
  leBytes 2 (d.get R.PWR_POWER_power) ++ leBytes 5 (d.calSeconds)

/-- I3C_READ (R420): bytes of the map; what lies beyond it reads 0. -/
def execI3cRead (offset count : Nat) (d : Dev) : Dev :=
  let bytes := (List.range count).map (fun i => d.i3cMap.getD (offset + i) 0)
  d.modSide (fun s => { s with i3c := s.i3c ++ [bytes] })

/-- I3C_WRITE (R420): acknowledged and ignored. -/
def execI3cWrite (_offset : Nat) (_data : List Byte) (d : Dev) : Dev := d

/-- Static I3C address: 0x30 + slot, device address bits [2:1] (R420). -/
def Dev.i3cStatic (d : Dev) : Nat := 0x30 + d.get R.DEV_ADDR_address / 2 % 4

/-- SETDASA (R420). -/
def execSetdasa (address dynamic : BitVec 7) (d : Dev) : Dev :=
  if address.toNat = d.i3cStatic then d.modSide (fun s => { s with dyn := some dynamic }) else d

/-- ENTDAA (R420): a target without a dynamic address takes one. -/
def execEntdaa (dynamic : BitVec 7) (d : Dev) : Dev :=
  d.modSide (fun s => { s with dyn := some (s.dyn.getD dynamic) })

/-! ### JTAG (R422) -/

/-- Shift bits into a register that captured `r`: what it then holds. -/
def shiftIn (r tdi : List Bool) : List Bool := (r ++ tdi).drop tdi.length

/-- What comes out at TDO. -/
def shiftOut (r tdi : List Bool) : List Bool := (r ++ tdi).take tdi.length

/-- An instruction that selects the one-bit bypass register, which captures 0. -/
def throughBypass (op : JtagOp) (tdi : List Bool) (d : Dev) : Dev :=
  d.modSide (fun s => { s with jtag := op, tdo := s.tdo ++ [shiftOut [false] tdi] })

/-- BYPASS. -/
def execJtagBypass (tdi : List Bool) (d : Dev) : Dev := throughBypass .bypass tdi d

/-- The bits of IDCODE, bit 0 first. -/
def idcodeBits : List Bool := true :: (List.range 31).map (fun i => Config.idcode.getLsbD i)

/-- IDCODE. -/
def execJtagIdcode (d : Dev) : Dev := d.modSide (fun s => { s with jtag := .idcode, tdo := s.tdo ++ [idcodeBits] })

/-- An instruction that selects the boundary register: it captures the signal lands, shifts, and updates. -/
def throughBoundary (op : JtagOp) (pins tdi : List Bool) (d : Dev) : Dev :=
  d.modSide (fun s => { s with
    jtag := op, boundary := shiftIn pins tdi, latch := shiftIn pins tdi, tdo := s.tdo ++ [shiftOut pins tdi] })

/-- SAMPLE/PRELOAD: the lands keep their system function. -/
def execSamplePreload (pins tdi : List Bool) (d : Dev) : Dev := throughBoundary .samplePreload pins tdi d

/-- EXTEST: the lands carry the update stage. -/
def execExtest (pins tdi : List Bool) (d : Dev) : Dev := throughBoundary .extest pins tdi d

/-- CLAMP: the lands carry the update stage, through BYPASS. -/
def execClamp (tdi : List Bool) (d : Dev) : Dev := throughBypass .clamp tdi d

/-- HIGHZ: the lands are not driven, through BYPASS. -/
def execHighz (tdi : List Bool) (d : Dev) : Dev := throughBypass .highz tdi d

/-- JTAG_VENDOR_PRIVATE (R422, R476): BYPASS while debug is locked. What a vendor-private instruction does while it is
unlocked the spec does not say. -/
def execJtagVendorPrivate (_code : BitVec 8) (tdi : List Bool) (s : State) : Answer :=
  if s.dev.is R.SEC_DEBUG_unlocked then .fault .jtagPrivate else lift (throughBypass .bypass tdi) s

end Sys2Proof.Machine
end

