-- ==== Sys2Proof/Machine/MeanPorts.lean ====
section
/-! DEFINITION. What each command means to the whole block, and what it asks of the block first: The host port, the Quay ports and the sideband (15). -/

namespace Sys2Proof.Machine

/-- PERST (R404). -/
def onPerst (t : Time) (s : State) : Answer := settled (thenReady (execPerst t)) s

/-- HOST_LINK_DOWN (R411). -/
def onHostLinkDown (t : Time) (s : State) : Answer := settled (thenReady (execHostLinkDown t)) s

/-- HOST_LINK_UP (R411). -/
def onHostLinkUp (wide fast : Bool) (t : Time) (s : State) : Answer := settled (execHostLinkUp wide fast t) s

/-- HOST_MEM_WRITE (R407). -/
def onHostMemWrite (addr : Word) (data : List Byte) (poisoned : Bool) (s : State) : Answer :=
  settled (onHdm addr.toNat data.length (execHostMemWrite addr.toNat data poisoned)) s

/-- HOST_MEM_READ (R405). -/
def onHostMemRead (addr : Word) (cached : Bool) (upsets : List HbmUpset) (s : State) : Answer :=
  settled (onHdm (addr.toNat / 64 * 64) 64 (execHostMemRead addr.toNat cached upsets)) s

/-- BI_SNOOP_RESPONSE (R406). -/
def onBiSnoopResponse (die : Die) (addr : BitVec 39) (dirty : Option (List Byte) ) (t : Time) (s : State) : Answer :=
  settled (thenReady (execBiSnoopResponse die.val addr.toNat dirty t)) s

/-- CXL_CACHE_COMPLETION (R413). -/
def onCxlCacheCompletion (use : CxlUse) (off : BitVec 32) (lost : Bool) (data : List Byte) (s : State) : Answer :=
  estuary (execCxlCacheCompletion use off.toNat lost data) s

/-- DOE_DISCOVERY (R410). -/
def onDoeDiscovery (mailbox : Fin 2) (index : BitVec 8) (s : State) : Answer :=
  settled (execDoeDiscovery mailbox.val index.toNat) s

/-- CDAT_READ (R410). -/
def onCdatRead (entry : BitVec 16) (s : State) : Answer := settled (execCdatRead entry.toNat) s

/-- PERST_RELEASE (R404). -/
def onPerstRelease (t : Time) (s : State) : Answer := settled (execPerstRelease t) s

/-- HDM_DECODER_COMMIT (R405). -/
def onHdmDecoderCommit (n : Fin 4) (base : Word) (s : State) : Answer :=
  settled (execHdmDecoderCommit n.val base.toNat) s

/-- ARP_REQUEST (R415). -/
def onArpRequest (q : Fin 2) (target : BitVec 32) (mac : BitVec 48) (ip : BitVec 32) (s : State) : Answer :=
  estuary (execArpRequest q.val target mac ip) s

/-- ROCE_READ_RESPONSE (R416). -/
def onRoceReadResponse (target : Fin 64) (psn : BitVec 24) (marked : Bool) (data : List Byte) (t : Time) (s : State) :
    Answer :=
  estuary (execRoceReadResponse target.val psn marked data t) s

/-- ROCE_ACK_TIMEOUT (R416). -/
def onRoceAckTimeout (target : Fin 64) (t : Time) (s : State) : Answer := estuary (execRoceAckTimeout target.val t) s

/-- PFC_PAUSE (R414). -/
def onPfcPause (q : Fin 2) (priority : BitVec 3) (quanta : BitVec 16) (t : Time) (s : State) : Answer :=
  estuary (execPfcPause q.val priority.toNat quanta.toNat t) s

/-- QUAY_TARGET_ENABLE (R417). -/
def onQuayTargetEnable (target : Fin 64) (value : Word) (t : Time) (s : State) : Answer :=
  estuary (execQuayTargetEnable target.val value.toNat t) s

/-- QUAY_TARGET_DISABLE (R417). -/
def onQuayTargetDisable (target : Fin 64) (value : Word) (s : State) : Answer :=
  estuary (execQuayTargetDisable target.val value.toNat) s

/-- QUAY_LINK_DOWN (R419). -/
def onQuayLinkDown (q : Fin 2) (t : Time) (s : State) : Answer := estuary (execQuayLinkDown q.val t) s

/-- QUAY_LINK_UP (R419). -/
def onQuayLinkUp (q : Fin 2) (t : Time) (s : State) : Answer := estuary (execQuayLinkUp q.val t) s

/-- FCS_FAILED_FRAME (R415). -/
def onFcsFailedFrame (q : Fin 2) (kind : BadFrame) (s : State) : Answer := estuary (execFcsFailedFrame q.val kind) s

/-- I3C_READ (R420). -/
def onI3cRead (offset count : BitVec 8) (s : State) : Answer := lift (execI3cRead offset.toNat count.toNat) s

/-- I3C_WRITE (R420). -/
def onI3cWrite (offset : BitVec 8) (data : List Byte) (s : State) : Answer := lift (execI3cWrite offset.toNat data) s

/-- SETDASA (R420). -/
def onSetdasa (address dynamic : BitVec 7) (s : State) : Answer := lift (execSetdasa address dynamic) s

/-- ENTDAA (R420). -/
def onEntdaa (dynamic : BitVec 7) (s : State) : Answer := lift (execEntdaa dynamic) s

/-- BYPASS (R422). -/
def onJtagBypass (tdi : List Bool) (s : State) : Answer := lift (execJtagBypass tdi) s

/-- IDCODE (R422). -/
def onJtagIdcode (s : State) : Answer := lift execJtagIdcode s

/-- SAMPLE_PRELOAD (R422). -/
def onSamplePreload (pins tdi : List Bool) (s : State) : Answer := lift (execSamplePreload pins tdi) s

/-- EXTEST (R422). -/
def onExtest (pins tdi : List Bool) (s : State) : Answer := lift (execExtest pins tdi) s

/-- CLAMP (R422). -/
def onClamp (tdi : List Bool) (s : State) : Answer := lift (execClamp tdi) s

/-- HIGHZ (R422). -/
def onHighz (tdi : List Bool) (s : State) : Answer := lift (execHighz tdi) s

/-- JTAG_VENDOR_PRIVATE (R476). -/
def onJtagVendorPrivate (code : BitVec 8) (tdi : List Bool) (s : State) : Answer := execJtagVendorPrivate code tdi s

end Sys2Proof.Machine
end

