-- ==== Sys2Proof/Machine/MeanPower.lean ====
section
/-! DEFINITION. What each command means to the whole block, and what it asks of the block first: Clocks, supplies and power (16). -/

namespace Sys2Proof.Machine

/-- PWR_RAIL_WRITE (R441). -/
def onPwrRailWrite (d : Die) (value : Word) (t : Time) (s : State) : Answer :=
  settled (execPwrRailWrite d.val value.toNat t) s

/-- AVS_CONFIRM (R441). -/
def onAvsConfirm (d : Die) (t : Time) (s : State) : Answer := settled (execAvsConfirm d.val t) s

/-- AVS_FAULT (R421). -/
def onAvsFault (d : Die) (t : Time) (s : State) : Answer := settled (execAvsFault d.val t) s

/-- CLK_MON_WINDOW (R426). -/
def onClkMonWindow (source : Fin 19) (ppm : BitVec 32) (t : Time) (s : State) : Answer :=
  settled (execClkMonWindow source.val ppm t) s

/-- CLK_NO_EDGE_TIMEOUT (R426). -/
def onClkNoEdgeTimeout (source : Fin 19) (t : Time) (s : State) : Answer :=
  settled (execClkNoEdgeTimeout source.val t) s

/-- CLK_RECHECK (R431). -/
def onClkRecheck (target : BitVec 5) (t : Time) (s : State) : Answer := settled (execClkRecheck target.toNat t) s

/-- CLK_RELOCK (R431). -/
def onClkRelock (r : BitVec 5) (t : Time) (s : State) : Answer := settled (execClkRelock r.toNat t) s

/-- RECHECK_COMPLETE (R431). -/
def onRecheckComplete (source : Fin 19) (t : Time) (s : State) : Answer :=
  settled (execRecheckComplete source.val t) s

/-- GATE_ON (R433). -/
def onGateOn (value : Word) (s : State) : Answer := settled (execGateOn value.toNat) s

/-- GATE_OFF (R433). -/
def onGateOff (value : Word) (s : State) : Answer := settled (execGateOff value.toNat) s

/-- DFLL_STEP (R436). -/
def onDfllStep (r : Region) (best : BitVec 10) (margin : BitVec 8) (t : Time) (s : State) : Answer :=
  settled (execDfllStep r.val best.toNat margin.toNat t) s

/-- DROOP_STRETCH (R437). -/
def onDroopStretch (r : Region) (mv : BitVec 10) (periods : BitVec 32) (t : Time) (s : State) : Answer :=
  settled (execDroopStretch r.val mv.toNat periods.toNat t) s

/-- PWR_STRETCH_WRITE (R437). -/
def onPwrStretchWrite (value : Word) (s : State) : Answer := settled (execPwrStretchWrite value.toNat) s

/-- THERMAL_LIMIT_EXCEEDED (R438). -/
def onThermalLimitExceeded (r : Region) (temp : BitVec 16) (t : Time) (s : State) : Answer :=
  settled (execThermalLimitExceeded r.val temp t) s

/-- THERMAL_STEP (R438). -/
def onThermalStep (r : Region) (temp : BitVec 16) (t : Time) (s : State) : Answer :=
  settled (execThermalStep r.val temp t) s

/-- THERMAL_TRIP (R438). -/
def onThermalTrip (r : Region) (temp : BitVec 16) (t : Time) (s : State) : Answer :=
  settled (execThermalTrip r.val temp t) s

/-- POWER_CAP_STEP (R439). -/
def onPowerCapStep (power : BitVec 16) (t : Time) (s : State) : Answer := settled (execPowerCapStep power.toNat t) s

/-- NEIGHBOUR_CHECK (R440). -/
def onNeighbourCheck (temps : List (BitVec 16) ) (volts : List (BitVec 10) ) (t : Time) (s : State) : Answer :=
  settled (execNeighbourCheck temps volts t) s

/-- DIP_BEGIN (R443). -/
def onDipBegin (d : Die) (mv : BitVec 10) (fell t : Time) (s : State) : Answer :=
  settled (execDipBegin d.val mv.toNat fell t) s

/-- DIP_END (R443). -/
def onDipEnd (d : Die) (low mv : BitVec 10) (t : Time) (s : State) : Answer :=
  settled (execDipEnd d.val low.toNat mv.toNat t) s

/-- SUPPLY_RESET (R444). -/
def onSupplyReset (d : Die) (mv : BitVec 10) (t : Time) (s : State) : Answer :=
  settled (execSupplyReset d.val mv.toNat t) s

/-- CORE_RESET_RELEASE (R536). -/
def onCoreResetRelease (d : Die) (mv : BitVec 10) (t : Time) (s : State) : Answer :=
  settled (execCoreResetRelease d.val mv.toNat t) s

/-- PWR_GOOD_LOSS (R446). -/
def onPwrGoodLoss (t : Time) (s : State) : Answer := settled (execPwrGoodLoss t) s

/-- PWR_GOOD_ASSERT (R448). -/
def onPwrGoodAssert (t : Time) (s : State) : Answer := settled (execPwrGoodAssert t) s

/-- PWR_CMD_PARK (R448). -/
def onPwrCmdPark (t : Time) (s : State) : Answer := settled (execPwrCmdPark t) s

/-- PWR_CMD_IDLE (R448). -/
def onPwrCmdIdle (t : Time) (s : State) : Answer := settled (execPwrCmdIdle t) s

/-- PWR_CMD_DORMANT (R448). -/
def onPwrCmdDormant (t : Time) (s : State) : Answer := settled (execPwrCmdDormant t) s

/-- QUIESCE_ASSERT (R451). -/
def onQuiesceAssert (t : Time) (s : State) : Answer := settled (execQuiesceAssert t) s

/-- PARK_ENTRY (R451). -/
def onParkEntry (t : Time) (s : State) : Answer := settled (execParkEntry t) s

/-- QUIESCE_RELEASE (R452). -/
def onQuiesceRelease (t : Time) (s : State) : Answer := settled (execQuiesceRelease t) s

/-- HBM_SELF_REFRESH_TIMEOUT (R449). -/
def onHbmSelfRefreshTimeout (stack : Stack) (t : Time) (s : State) : Answer :=
  settled (execHbmSelfRefreshTimeout stack.val t) s

/-- RAIL_BELOW_90_PERCENT (R536). -/
def onRailBelow90Percent (t : Time) (s : State) : Answer := settled (execRailBelow90Percent t) s

end Sys2Proof.Machine
end

