-- ==== Sys2Proof/Machine/MeanSecurity.lean ====
section
/-! DEFINITION. What each command means to the whole block, and what it asks of the block first: Boot, update and security (17). -/

namespace Sys2Proof.Machine

/-- GET_CERTS (R471). -/
def onGetCerts (s : State) : Answer := settled execGetCerts s

/-- QUOTE (R472). -/
def onQuote (nonce : List Byte) (s : State) : Answer := settled (execQuote nonce) s

/-- DEBUG_UNLOCK (R476). -/
def onDebugUnlock (token : List Byte) (t : Time) (s : State) : Answer := settled (execDebugUnlock token t) s

/-- RECOVERY_OBJECT (R461). -/
def onRecoveryObject (offset : BitVec 32) (data : List Byte) (t : Time) (s : State) : Answer :=
  settled (execRecoveryObject offset.toNat data t) s

/-- LH_POWER_ON_RESET (R370). -/
def onLhPowerOnReset (straps : BitVec 24) (s : State) : Answer := settled (execLhPowerOnReset straps.toNat) s

/-- BOOT (R458). -/
def onBoot (t : Time) (s : State) : Answer := settled (execBoot t) s

/-- RECOVERY_WAIT_EXPIRY (R461). -/
def onRecoveryWaitExpiry (t : Time) (s : State) : Answer := settled (execRecoveryWaitExpiry t) s

/-- SVN_ADVANCE (R463). -/
def onSvnAdvance (component : BitVec 3) (s : State) : Answer := settled (execSvnAdvance component.toNat) s

/-- UPDATE_STAGE (R464). -/
def onUpdateStage (t : Time) (s : State) : Answer := settled (execUpdateStage t) s

/-- UPDATE_CHECK_DONE (R464). -/
def onUpdateCheckDone (t : Time) (s : State) : Answer := settled (execUpdateCheckDone t) s

/-- UPDATE_ACTIVATE (R465). -/
def onUpdateActivate (fails : Bool) (t : Time) (s : State) : Answer := settled (execUpdateActivate fails t) s

/-- KEEPER_READY (R466). -/
def onKeeperReady (t : Time) (s : State) : Answer := settled (execKeeperReady t) s

/-- KEEPER_READY_TIMEOUT (R466). -/
def onKeeperReadyTimeout (t : Time) (s : State) : Answer := settled (execKeeperReadyTimeout t) s

/-- KEY_INSTALL (R473). -/
def onKeyInstall (value : Word) (s : State) : Answer := estuary (execKeyInstall value.toNat) s

/-- KEY_CLEAR (R473). -/
def onKeyClear (value : Word) (s : State) : Answer := estuary (execKeyClear value.toNat) s

/-- SERVICE_WRITE (R468). -/
def onServiceWrite (region : Option Region) (value : Word) (s : State) : Answer :=
  settled (execServiceWrite (region.map (fun r => r.val)) value.toNat) s

/-- STACK_RETRAIN_DONE (R464). -/
def onStackRetrainDone (stack : Stack) (t : Time) (s : State) : Answer := settled (execStackRetrainDone stack.val t) s

/-- CONFIG_WRITE_DONE (R464). -/
def onConfigWriteDone (ok : Bool) (t : Time) (s : State) : Answer := settled (execConfigWriteDone ok t) s

end Sys2Proof.Machine
end

