-- ==== Sys2Proof/Machine/MeanServing.lean ====
section
/-! DEFINITION. What each command means to the whole block, and what it asks of the block first: Serving (07, 08). -/

namespace Sys2Proof.Machine

/-- STEP_BOUNDARY (R212). -/
def onStepBoundary (t : Time) (s : State) : Answer :=
  estuary (afterSnoop (fun d => d.intakeLines) (execStepBoundary t)) s

/-- SVC_PLAN_WRITE (R207). -/
def onSvcPlanWrite (p : Fin 16) (word : Fin 3) (value : Word) (s : State) : Answer :=
  estuary (execSvcPlanWrite p.val word.val value.toNat) s

/-- ADMIT_ACCEPT (R220). -/
def onAdmitAccept (ring : Fin 16) (s : State) : Answer := estuary (execAdmitAccept ring.val) s

/-- ADMIT_REJECT (R220). -/
def onAdmitReject (ring : Fin 16) (s : State) : Answer := estuary (execAdmitReject ring.val) s

/-- ADMIT_HOST_WAIT_EXPIRY (R220). -/
def onAdmitHostWaitExpiry (ring : Fin 16) (t : Time) (s : State) : Answer :=
  estuary (execAdmitHostWaitExpiry ring.val t) s

/-- HANDOFF_COPY_DONE (R224). -/
def onHandoffCopyDone (slot : BitVec 8) (page : BitVec 24) (s : State) : Answer :=
  estuary (execHandoffCopyDone slot.toNat page.toNat) s

/-- KV_SPILL_DONE (R230). -/
def onKvSpillDone (slot : BitVec 8) (page : BitVec 24) (s : State) : Answer :=
  estuary (execKvSpillDone slot.toNat page.toNat) s

/-- KV_STAGE_DONE (R230). -/
def onKvStageDone (slot : BitVec 8) (page : BitVec 24) (data : List Byte) (s : State) : Answer :=
  estuary (execKvStageDone slot.toNat page.toNat data) s

/-- STEP_LOST (R237). -/
def onStepLost (t : Time) (s : State) : Answer := estuary (execStepLost t) s

/-- BUDGET_ADJUST (R261). -/
def onBudgetAdjust (customer : BitVec 12) (delta : BitVec 48) (s : State) : Answer :=
  estuary (execBudgetAdjust customer.toNat delta.toNat) s

/-- REFILL_PERIOD_EXPIRY (R259). -/
def onRefillPeriodExpiry (t : Time) (s : State) : Answer := estuary (execRefillPeriodExpiry t) s

/-- SVC_OUT_ENABLE_WRITE (R412). -/
def onSvcOutEnableWrite (ring : Fin 16) (value : Word) (s : State) : Answer :=
  estuary (execSvcOutEnableWrite ring.val value.toNat) s

/-- METER_FEED_STALL_EXPIRY (R267). -/
def onMeterFeedStallExpiry (t : Time) (s : State) : Answer := estuary (execMeterFeedStallExpiry t) s

end Sys2Proof.Machine
end

