-- ==== Sys2Proof/Machine/MeanSlots.lean ====
section
/-! DEFINITION. What each command means to the whole block, and what it asks of the block first: Control-word slots (03, 04). -/

namespace Sys2Proof.Machine

/-- CLEAR (R113). -/
def onClear (r : Region) (g : Gov) (arr : Fin 8) (acc : BitVec 2) (win : BitVec 8) (s : State) : Answer :=
  active (dieOf r.val) (slotWord r.val g [.arr arr (.clear acc win)]) s

/-- MAC (R110). -/
def onMac (r : Region) (g : Gov) (arr : Fin 8) (xport acc : BitVec 2) (s : State) : Answer :=
  active (dieOf r.val) (slotWord r.val g [.arr arr (.mac xport acc)]) s

/-- WLOAD (R551). -/
def onWload (r : Region) (g : Gov) (arr : Fin 8) (sparse : Bool) (handle : BitVec 16) (s : State) : Answer :=
  active (dieOf r.val) (slotWord r.val g [.arr arr (.wload sparse handle)]) s

/-- WSWAP (R75). -/
def onWswap (r : Region) (g : Gov) (arr : Fin 8) (s : State) : Answer :=
  active (dieOf r.val) (slotWord r.val g [.arr arr .wswap]) s

/-- DRAIN (R119). -/
def onDrain (r : Region) (g : Gov) (arr : Fin 8) (acc gen : BitVec 2) (handle : BitVec 16) (s : State) : Answer :=
  active (dieOf r.val) (slotWord r.val g [.arr arr (.drain acc gen handle)]) s

/-- ADD (R123). -/
def onAdd (r : Region) (g : Gov) (port : Fin 2) (bf16 : Bool) (vd va vb : BitVec 5) (s : State) : Answer :=
  active (dieOf r.val) (slotWord r.val g [.vec port ⟨.add, bf16, vd, va, vb, 0, 0, 0⟩]) s

/-- SUB (R123). -/
def onSub (r : Region) (g : Gov) (port : Fin 2) (bf16 : Bool) (vd va vb : BitVec 5) (s : State) : Answer :=
  active (dieOf r.val) (slotWord r.val g [.vec port ⟨.sub, bf16, vd, va, vb, 0, 0, 0⟩]) s

/-- MUL (R123). -/
def onMul (r : Region) (g : Gov) (port : Fin 2) (bf16 : Bool) (vd va vb : BitVec 5) (s : State) : Answer :=
  active (dieOf r.val) (slotWord r.val g [.vec port ⟨.mul, bf16, vd, va, vb, 0, 0, 0⟩]) s

/-- FMA (R123). -/
def onFma (r : Region) (g : Gov) (port : Fin 2) (bf16 : Bool) (vd va vb vc : BitVec 5) (s : State) : Answer :=
  active (dieOf r.val) (slotWord r.val g [.vec port ⟨.fma, bf16, vd, va, vb, vc, 0, 0⟩]) s

/-- MAX (R125). -/
def onMax (r : Region) (g : Gov) (port : Fin 2) (bf16 : Bool) (vd va vb : BitVec 5) (s : State) : Answer :=
  active (dieOf r.val) (slotWord r.val g [.vec port ⟨.max, bf16, vd, va, vb, 0, 0, 0⟩]) s

/-- MIN (R125). -/
def onMin (r : Region) (g : Gov) (port : Fin 2) (bf16 : Bool) (vd va vb : BitVec 5) (s : State) : Answer :=
  active (dieOf r.val) (slotWord r.val g [.vec port ⟨.min, bf16, vd, va, vb, 0, 0, 0⟩]) s

/-- EXP2 (R124). -/
def onExp2 (r : Region) (g : Gov) (port : Fin 2) (bf16 : Bool) (vd va : BitVec 5) (s : State) : Answer :=
  active (dieOf r.val) (slotWord r.val g [.vec port ⟨.exp2, bf16, vd, va, 0, 0, 0, 0⟩]) s

/-- LOG2 (R124). -/
def onLog2 (r : Region) (g : Gov) (port : Fin 2) (bf16 : Bool) (vd va : BitVec 5) (s : State) : Answer :=
  active (dieOf r.val) (slotWord r.val g [.vec port ⟨.log2, bf16, vd, va, 0, 0, 0, 0⟩]) s

/-- RCP (R124). -/
def onRcp (r : Region) (g : Gov) (port : Fin 2) (bf16 : Bool) (vd va : BitVec 5) (s : State) : Answer :=
  active (dieOf r.val) (slotWord r.val g [.vec port ⟨.rcp, bf16, vd, va, 0, 0, 0, 0⟩]) s

/-- RSQRT (R124). -/
def onRsqrt (r : Region) (g : Gov) (port : Fin 2) (bf16 : Bool) (vd va : BitVec 5) (s : State) : Answer :=
  active (dieOf r.val) (slotWord r.val g [.vec port ⟨.rsqrt, bf16, vd, va, 0, 0, 0, 0⟩]) s

/-- CVT (R127). -/
def onCvt (r : Region) (g : Gov) (port : Fin 2) (bf16 : Bool) (vd va target : BitVec 5) (s : State) : Answer :=
  active (dieOf r.val) (slotWord r.val g [.vec port ⟨.cvt, bf16, vd, va, 0, 0, target, 0⟩]) s

/-- LD (R128). -/
def onLd (r : Region) (g : Gov) (port : Fin 2) (bf16 : Bool) (vd : BitVec 5) (xport : BitVec 16) (s : State) : Answer
    :=
  active (dieOf r.val) (slotWord r.val g [.vec port ⟨.ld, bf16, vd, 0, 0, 0, 0, xport⟩]) s

/-- ST (R129). -/
def onSt (r : Region) (g : Gov) (port : Fin 2) (bf16 : Bool) (va gen : BitVec 5) (handle : BitVec 16) (s : State) :
    Answer :=
  active (dieOf r.val) (slotWord r.val g [.vec port ⟨.st, bf16, 0, va, 0, 0, gen, handle⟩]) s

/-- RDACC (R121). -/
def onRdacc (r : Region) (g : Gov) (port : Fin 2) (bf16 : Bool) (vd groupAcc : BitVec 5) (s : State) : Answer :=
  active (dieOf r.val) (slotWord r.val g [.vec port ⟨.rdacc, bf16, vd, 0, 0, 0, groupAcc, 0⟩]) s

/-- CMP (R125). -/
def onCmp (r : Region) (g : Gov) (port : Fin 2) (bf16 : Bool) (vd va vb cond : BitVec 5) (s : State) : Answer :=
  active (dieOf r.val) (slotWord r.val g [.vec port ⟨.cmp, bf16, vd, va, vb, 0, cond, 0⟩]) s

/-- TOPK (R130). -/
def onTopk (r : Region) (g : Gov) (port : Fin 2) (bf16 : Bool) (vd va vb k : BitVec 5) (s : State) : Answer :=
  active (dieOf r.val) (slotWord r.val g [.vec port ⟨.topk, bf16, vd, va, vb, 0, k, 0⟩]) s

/-- SAMPLE (R131). -/
def onSample (r : Region) (g : Gov) (port : Fin 2) (bf16 : Bool) (vd va vb vc : BitVec 5) (handle : BitVec 16)
    (s : State) : Answer :=
  active (dieOf r.val) (slotWord r.val g [.vec port ⟨.sample, bf16, vd, va, vb, vc, 0, handle⟩]) s

/-- REDUCE (R126). -/
def onReduce (r : Region) (g : Gov) (port : Fin 2) (bf16 : Bool) (vd va op : BitVec 5) (s : State) : Answer :=
  active (dieOf r.val) (slotWord r.val g [.vec port ⟨.reduce, bf16, vd, va, 0, 0, op, 0⟩]) s

/-- START (R78). -/
def onStart (r : Region) (g : Gov) (gen : Fin 4) (handle : BitVec 16) (s : State) : Answer :=
  active (dieOf r.val) (slotWord r.val g [.gen gen (.start handle)]) s

/-- STEP (R78). -/
def onStep (r : Region) (g : Gov) (gen : Fin 4) (n : BitVec 24) (s : State) : Answer :=
  active (dieOf r.val) (slotWord r.val g [.gen gen (.step n)]) s

/-- SETPOS (R78). -/
def onSetpos (r : Region) (g : Gov) (gen : Fin 4) (n : BitVec 24) (s : State) : Answer :=
  active (dieOf r.val) (slotWord r.val g [.gen gen (.setpos n)]) s

/-- GATHER (R79). -/
def onGather (r : Region) (g : Gov) (port : Fin 2) (gen : BitVec 2) (unit : BitVec 4) (mask : BitVec 8) (s : State) :
    Answer :=
  active (dieOf r.val) (slotWord r.val g [.xbar port ⟨false, gen, unit, mask⟩]) s

/-- SCATTER (R79). -/
def onScatter (r : Region) (g : Gov) (port : Fin 2) (gen : BitVec 2) (unit : BitVec 4) (mask : BitVec 8) (s : State) :
    Answer :=
  active (dieOf r.val) (slotWord r.val g [.xbar port ⟨true, gen, unit, mask⟩]) s

/-- CSEND (R80). -/
def onCsend (r : Region) (g : Gov) (port : Fin 2) (cell : BitVec 3) (handle : BitVec 16) (s : State) : Answer :=
  active (dieOf r.val) (slotWord r.val g [.xfer port (.csend cell handle)]) s

/-- BSEND (R80). -/
def onBsend (r : Region) (g : Gov) (port : Fin 2) (block : BitVec 2) (cell : BitVec 3) (handle : BitVec 16)
    (s : State) : Answer :=
  active (dieOf r.val) (slotWord r.val g [.xfer port (.bsend block cell handle)]) s

/-- XSEND (R548). -/
def onXsend (r : Region) (g : Gov) (port : Fin 2) (channel : BitVec 3) (s : State) : Answer :=
  active (dieOf r.val) (slotWord r.val g [.xfer port (.xsend channel)]) s

/-- XRECV (R548). -/
def onXrecv (r : Region) (g : Gov) (port : Fin 2) (source : BitVec 4) (channel : BitVec 3) (handle : BitVec 16)
    (s : State) : Answer :=
  active (dieOf r.val) (slotWord r.val g [.xfer port (.xrecv source channel handle)]) s

/-- LSEND (R548). -/
def onLsend (r : Region) (g : Gov) (port : Fin 2) (link : BitVec 3) (index : BitVec 16) (stream : BitVec 8)
    (handle : BitVec 16) (s : State) : Answer :=
  active (dieOf r.val) (slotWord r.val g [.xfer port (.lsend link index stream handle)]) s

/-- LAND (R44). -/
def onLand (r : Region) (g : Gov) (port : Fin 2) (id : BitVec 8) (s : State) : Answer :=
  active (dieOf r.val) (slotWord r.val g [.xfer port (.land id)]) s

/-- LREAD (R548). -/
def onLread (r : Region) (g : Gov) (port : Fin 2) (id : BitVec 8) (handle : BitVec 16) (s : State) : Answer :=
  active (dieOf r.val) (slotWord r.val g [.xfer port (.lread id handle)]) s

/-- LOOPF (R86). -/
def onLoopf (r : Region) (g : Gov) (last : BitVec 21) (count : BitVec 20) (s : State) : Answer :=
  active (dieOf r.val) (slotWord r.val g [.loop (.loopf last count)]) s

/-- LOOPB (R87). -/
def onLoopb (r : Region) (g : Gov) (src : Bool) (last : BitVec 21) (n : BitVec 4) (ceiling : BitVec 16) (s : State) :
    Answer :=
  active (dieOf r.val) (slotWord r.val g [.loop (.loopb src last n ceiling)]) s

/-- JMP (R92). -/
def onJmp (r : Region) (g : Gov) (target : BitVec 21) (s : State) : Answer :=
  active (dieOf r.val) (slotWord r.val g [.loop (.jmp target)]) s

/-- END (R92). -/
def onPlanEnd (r : Region) (g : Gov) (s : State) : Answer := active (dieOf r.val) (slotWord r.val g [.loop .done]) s

/-- DLOAD (R82). -/
def onDload (r : Region) (g : Gov) (gen : BitVec 2) (handle : BitVec 16) (s : State) : Answer :=
  active (dieOf r.val) (slotWord r.val g [.desc (.dload gen handle)]) s

/-- DBASE (R82). -/
def onDbase (r : Region) (g : Gov) (gen : BitVec 2) (handle : BitVec 16) (s : State) : Answer :=
  active (dieOf r.val) (slotWord r.val g [.desc (.dbase gen handle)]) s

/-- CNTSRC (R82). -/
def onCntsrc (r : Region) (g : Gov) (dim : BitVec 3) (handle : BitVec 16) (s : State) : Answer :=
  active (dieOf r.val) (slotWord r.val g [.desc (.cntsrc dim handle)]) s

/-- CNTLD (R82). -/
def onCntld (r : Region) (g : Gov) (dim : BitVec 3) (n : BitVec 4) (handle : BitVec 16) (s : State) : Answer :=
  active (dieOf r.val) (slotWord r.val g [.desc (.cntld dim n handle)]) s

/-- CNTSET (R82). -/
def onCntset (r : Region) (g : Gov) (value : BitVec 24) (n : BitVec 4) (s : State) : Answer :=
  active (dieOf r.val) (slotWord r.val g [.desc (.cntset value n)]) s

/-- PCIX (R84). -/
def onPcix (r : Region) (g : Gov) (pd : BitVec 4) (select : BitVec 2) (cmp : BitVec 3) (imm : BitVec 24) (s : State) :
    Answer :=
  active (dieOf r.val) (slotWord r.val g [.pred (.pcix pd select cmp imm)]) s

/-- PLOG (R84). -/
def onPlog (r : Region) (g : Gov) (pd pa pb : BitVec 4) (op : BitVec 2) (s : State) : Answer :=
  active (dieOf r.val) (slotWord r.val g [.pred (.plog pd pa pb op)]) s

/-- PVEC (R84). -/
def onPvec (r : Region) (g : Gov) (pd : BitVec 4) (reg : BitVec 5) (lane : BitVec 7) (s : State) : Answer :=
  active (dieOf r.val) (slotWord r.val g [.pred (.pvec pd reg lane)]) s

/-- PCNT (R84). -/
def onPcnt (r : Region) (g : Gov) (pd n : BitVec 4) (imm : BitVec 24) (s : State) : Answer :=
  active (dieOf r.val) (slotWord r.val g [.pred (.pcnt pd n imm)]) s

end Sys2Proof.Machine
end

