-- ==== Sys2Proof/Machine/MeanTides.lean ====
section
/-! DEFINITION. What each command means to the whole block, and what it asks of the block first: Tides (02). -/

namespace Sys2Proof.Machine

/-- TIDE_MARK (R30). -/
def onTideMark (t : Time) (s : State) : Answer := active 1 (execTideMark t) s

/-- REGION_WAKE (R34). -/
def onRegionWake (r : Region) (t : Time) (s : State) : Answer := active (dieOf r.val) (wakeRegion r.val t) s

/-- TIDE_START (R36). -/
def onTideStart (t : Time) (s : State) : Answer := active 1 (execTideStart t) s

/-- PLAN_TICK (R69). -/
def onPlanTick (r : Region) (t : Time) (upsets : List Upset) (s : State) : Answer :=
  active (dieOf r.val) (execPlanTick r.val t upsets) s

/-- TIDE_END (R36). -/
def onTideEnd (t : Time) (s : State) : Answer := active 1 (execTideEnd t) s

/-- HOLD_TICK (R39). -/
def onHoldTick (r : Region) (t : Time) (upsets : List Upset) (s : State) : Answer :=
  active (dieOf r.val) (execHoldTick r.val t upsets) s

/-- CROSSING_ARRIVAL (R38). -/
def onCrossingArrival (source : Region) (channel : Fin 8) (s : State) : Answer :=
  active (dieOf source.val) (execCrossingArrival source.val channel.val) s

/-- LANDING_GRACE_EXPIRY (R45). -/
def onLandingGraceExpiry (r : Region) (t : Time) (s : State) : Answer :=
  active (dieOf r.val) (execLandingGraceExpiry r.val t) s

/-- TIDE_DEADLINE_EXPIRY (R48). -/
def onTideDeadlineExpiry (t : Time) (s : State) : Answer := active 1 (execTideDeadlineExpiry t) s

/-- HOLD_LIMIT_EXPIRY (R55). -/
def onHoldLimitExpiry (r : Region) (t : Time) (s : State) : Answer :=
  active (dieOf r.val) (execHoldLimitExpiry r.val t) s

/-- ARMED_START (R56). -/
def onArmedStart (t : Time) (s : State) : Answer := active 1 (execArmedStart t) s

/-- TIDE_CONFIG_WRITE (R31). -/
def onTideConfigWrite (origin : Bool) (value : Word) (s : State) : Answer :=
  estuary (execTideConfigWrite origin value.toNat) s

/-- TIDE_CTL_WRITE (R54). -/
def onTideCtlWrite (value : Word) (s : State) : Answer := estuary (execTideCtlWrite value.toNat) s

/-- COUNTER_CLEAR (R8). -/
def onCounterClear (offset : BitVec 25) (s : State) : Answer := settled (execCounterClear offset.toNat) s

/-- SEQ_LOOP_COUNT_WRITE (R103). -/
def onSeqLoopCountWrite (r : Region) (n : Fin 16) (value : BitVec 32) (s : State) : Answer :=
  onDie (dieOf r.val) (execSeqLoopCountWrite r.val n.val value.toNat) s

end Sys2Proof.Machine
end

