-- ==== Sys2Proof/Machine/MeanTime.lean ====
section
/-! DEFINITION. What each command means to the whole block, and what it asks of the block first: Hall time (12). -/

namespace Sys2Proof.Machine

/-- TIME_EXCHANGE_SEND (R353). -/
def onTimeExchangeSend (t : Time) (s : State) : Answer := estuary (execTimeExchangeSend t) s

/-- SERVO_UPDATE (R356). -/
def onServoUpdate (t : Time) (s : State) : Answer := estuary (execServoUpdate t) s

/-- TIME_ADJ_WRITE (R357). -/
def onTimeAdjWrite (value : Word) (t : Time) (s : State) : Answer := estuary (execTimeAdjWrite value.toNat t) s

/-- TIME_HOST_WAIT_EXPIRY (R357). -/
def onTimeHostWaitExpiry (t : Time) (s : State) : Answer := estuary (execTimeHostWaitExpiry t) s

/-- TIME_PARENT_WRITE (R351). -/
def onTimeParentWrite (value : Word) (s : State) : Answer := estuary (execTimeParentWrite value.toNat) s

/-- TIME_LINK_LOSS (R352). -/
def onTimeLinkLoss (l : Link) (t : Time) (s : State) : Answer := estuary (execTimeLinkLoss l.val t) s

/-- PTP_SYNC (R360). -/
def onPtpSync (q : Fin 2) (m : PtpHead) (twoStep : Bool) (origin : PtpTime) (arrival t : Time) (s : State) : Answer :=
  estuary (execPtpSync q.val m twoStep origin arrival t) s

/-- PTP_FOLLOW_UP (R360). -/
def onPtpFollowUp (q : Fin 2) (m : PtpHead) (origin : PtpTime) (t : Time) (s : State) : Answer :=
  estuary (execPtpFollowUp q.val m origin t) s

/-- PTP_DELAY_RESP (R362). -/
def onPtpDelayResp (q : Fin 2) (m : PtpHead) (received : PtpTime) (t : Time) (s : State) : Answer :=
  estuary (execPtpDelayResp q.val m received t) s

/-- PTP_ANNOUNCE (R362). -/
def onPtpAnnounce (q : Fin 2) (m : PtpHead) (utcValid : Bool) (utcOffset : BitVec 16) (logInterval : BitVec 8)
    (t : Time) (s : State) : Answer :=
  estuary (execPtpAnnounce q.val m utcValid utcOffset.toNat logInterval t) s

/-- PTP_DELAY_REQ_SEND (R361). -/
def onPtpDelayReqSend (q : Fin 2) (t : Time) (s : State) : Answer := estuary (execPtpDelayReqSend q.val t) s

/-- PTP_ANNOUNCE_TIMEOUT (R362). -/
def onPtpAnnounceTimeout (q : Fin 2) (t : Time) (s : State) : Answer := estuary (execPtpAnnounceTimeout q.val t) s

/-- PPS_EDGE (R363). -/
def onPpsEdge (falling : Bool) (t : Time) (s : State) : Answer := estuary (execPpsEdge falling t) s

/-- PPS_LOSS_TIMEOUT (R352). -/
def onPpsLossTimeout (t : Time) (s : State) : Answer := estuary (execPpsLossTimeout t) s

/-- CAPTURE_EDGE (R364). -/
def onCaptureEdge (falling : Bool) (t : Time) (s : State) : Answer := estuary (execCaptureEdge falling t) s

/-- CAPTURE_VALUE_READ (R364). -/
def onCaptureValueRead (s : State) : Answer := estuary execCaptureValueRead s

/-- PULSE_ARM (R365). -/
def onPulseArm (p : Fin 4) (t : Time) (s : State) : Answer := estuary (execPulseArm p.val t) s

/-- PULSE_FIRE (R365). -/
def onPulseFire (p : Fin 4) (t : Time) (s : State) : Answer := estuary (execPulseFire p.val t) s

/-- CALENDAR_SYNC (R366). -/
def onCalendarSync (t : Time) (s : State) : Answer := estuary (execCalendarSync t) s

end Sys2Proof.Machine
end

