-- ==== Sys2Proof/Machine/Dispatch.lean ====
section
/-! DEFINITION. The dispatch of a command to its meaning. -/

namespace Sys2Proof.Machine

/-- What a command does to everything but the queue. -/
def exec (i : Instr) (s : State) : Host.Outcome State Fault Refusal :=
  match i with
  | .devFuncModeWrite value => Sys2Proof.Machine.onDevFuncModeWrite value s
  | .modeChangeEffect fn => Sys2Proof.Machine.onModeChangeEffect fn s
  | .keeperAccess addr => Sys2Proof.Machine.onKeeperAccess addr s
  | .keeperRestartDone => Sys2Proof.Machine.onKeeperRestartDone s
  | .absentEngineAccess offset write => Sys2Proof.Machine.onAbsentEngineAccess offset write s
  | .tideMark t => Sys2Proof.Machine.onTideMark t s
  | .regionWake r t => Sys2Proof.Machine.onRegionWake r t s
  | .tideStart t => Sys2Proof.Machine.onTideStart t s
  | .planTick r t upsets => Sys2Proof.Machine.onPlanTick r t upsets s
  | .tideEnd t => Sys2Proof.Machine.onTideEnd t s
  | .holdTick r t upsets => Sys2Proof.Machine.onHoldTick r t upsets s
  | .crossingArrival source channel => Sys2Proof.Machine.onCrossingArrival source channel s
  | .landingGraceExpiry r t => Sys2Proof.Machine.onLandingGraceExpiry r t s
  | .tideDeadlineExpiry t => Sys2Proof.Machine.onTideDeadlineExpiry t s
  | .holdLimitExpiry r t => Sys2Proof.Machine.onHoldLimitExpiry r t s
  | .armedStart t => Sys2Proof.Machine.onArmedStart t s
  | .tideConfigWrite origin value => Sys2Proof.Machine.onTideConfigWrite origin value s
  | .tideCtlWrite value => Sys2Proof.Machine.onTideCtlWrite value s
  | .counterClear offset => Sys2Proof.Machine.onCounterClear offset s
  | .seqLoopCountWrite r n value => Sys2Proof.Machine.onSeqLoopCountWrite r n value s
  | .clear r g arr acc win => Sys2Proof.Machine.onClear r g arr acc win s
  | .mac r g arr xport acc => Sys2Proof.Machine.onMac r g arr xport acc s
  | .wload r g arr sparse handle => Sys2Proof.Machine.onWload r g arr sparse handle s
  | .wswap r g arr => Sys2Proof.Machine.onWswap r g arr s
  | .drain r g arr acc gen handle => Sys2Proof.Machine.onDrain r g arr acc gen handle s
  | .add r g port bf16 vd va vb => Sys2Proof.Machine.onAdd r g port bf16 vd va vb s
  | .sub r g port bf16 vd va vb => Sys2Proof.Machine.onSub r g port bf16 vd va vb s
  | .mul r g port bf16 vd va vb => Sys2Proof.Machine.onMul r g port bf16 vd va vb s
  | .fma r g port bf16 vd va vb vc => Sys2Proof.Machine.onFma r g port bf16 vd va vb vc s
  | .max r g port bf16 vd va vb => Sys2Proof.Machine.onMax r g port bf16 vd va vb s
  | .min r g port bf16 vd va vb => Sys2Proof.Machine.onMin r g port bf16 vd va vb s
  | .exp2 r g port bf16 vd va => Sys2Proof.Machine.onExp2 r g port bf16 vd va s
  | .log2 r g port bf16 vd va => Sys2Proof.Machine.onLog2 r g port bf16 vd va s
  | .rcp r g port bf16 vd va => Sys2Proof.Machine.onRcp r g port bf16 vd va s
  | .rsqrt r g port bf16 vd va => Sys2Proof.Machine.onRsqrt r g port bf16 vd va s
  | .cvt r g port bf16 vd va target => Sys2Proof.Machine.onCvt r g port bf16 vd va target s
  | .ld r g port bf16 vd xport => Sys2Proof.Machine.onLd r g port bf16 vd xport s
  | .st r g port bf16 va gen handle => Sys2Proof.Machine.onSt r g port bf16 va gen handle s
  | .rdacc r g port bf16 vd groupAcc => Sys2Proof.Machine.onRdacc r g port bf16 vd groupAcc s
  | .cmp r g port bf16 vd va vb cond => Sys2Proof.Machine.onCmp r g port bf16 vd va vb cond s
  | .topk r g port bf16 vd va vb k => Sys2Proof.Machine.onTopk r g port bf16 vd va vb k s
  | .sample r g port bf16 vd va vb vc handle => Sys2Proof.Machine.onSample r g port bf16 vd va vb vc handle s
  | .reduce r g port bf16 vd va op => Sys2Proof.Machine.onReduce r g port bf16 vd va op s
  | .start r g gen handle => Sys2Proof.Machine.onStart r g gen handle s
  | .step r g gen n => Sys2Proof.Machine.onStep r g gen n s
  | .setpos r g gen n => Sys2Proof.Machine.onSetpos r g gen n s
  | .gather r g port gen unit mask => Sys2Proof.Machine.onGather r g port gen unit mask s
  | .scatter r g port gen unit mask => Sys2Proof.Machine.onScatter r g port gen unit mask s
  | .csend r g port cell handle => Sys2Proof.Machine.onCsend r g port cell handle s
  | .bsend r g port block cell handle => Sys2Proof.Machine.onBsend r g port block cell handle s
  | .xsend r g port channel => Sys2Proof.Machine.onXsend r g port channel s
  | .xrecv r g port source channel handle => Sys2Proof.Machine.onXrecv r g port source channel handle s
  | .lsend r g port link index stream handle => Sys2Proof.Machine.onLsend r g port link index stream handle s
  | .land r g port id => Sys2Proof.Machine.onLand r g port id s
  | .lread r g port id handle => Sys2Proof.Machine.onLread r g port id handle s
  | .loopf r g last count => Sys2Proof.Machine.onLoopf r g last count s
  | .loopb r g src last n ceiling => Sys2Proof.Machine.onLoopb r g src last n ceiling s
  | .jmp r g target => Sys2Proof.Machine.onJmp r g target s
  | .planEnd r g => Sys2Proof.Machine.onPlanEnd r g s
  | .dload r g gen handle => Sys2Proof.Machine.onDload r g gen handle s
  | .dbase r g gen handle => Sys2Proof.Machine.onDbase r g gen handle s
  | .cntsrc r g dim handle => Sys2Proof.Machine.onCntsrc r g dim handle s
  | .cntld r g dim n handle => Sys2Proof.Machine.onCntld r g dim n handle s
  | .cntset r g value n => Sys2Proof.Machine.onCntset r g value n s
  | .pcix r g pd select cmp imm => Sys2Proof.Machine.onPcix r g pd select cmp imm s
  | .plog r g pd pa pb op => Sys2Proof.Machine.onPlog r g pd pa pb op s
  | .pvec r g pd reg lane => Sys2Proof.Machine.onPvec r g pd reg lane s
  | .pcnt r g pd n imm => Sys2Proof.Machine.onPcnt r g pd n imm s
  | .macContribution r => Sys2Proof.Machine.onMacContribution r s
  | .wloadComplete r => Sys2Proof.Machine.onWloadComplete r s
  | .vectorResult r => Sys2Proof.Machine.onVectorResult r s
  | .stWrite r => Sys2Proof.Machine.onStWrite r s
  | .transferDelivery r => Sys2Proof.Machine.onTransferDelivery r s
  | .ringPageFill r => Sys2Proof.Machine.onRingPageFill r s
  | .slipPeriod r t => Sys2Proof.Machine.onSlipPeriod r t s
  | .spPatrolScrub r upsets => Sys2Proof.Machine.onSpPatrolScrub r upsets s
  | .segClassWrite r cell value => Sys2Proof.Machine.onSegClassWrite r cell value s
  | .segReinitDone r cell segment => Sys2Proof.Machine.onSegReinitDone r cell segment s
  | .harbourWrite r cell window value bar2 => Sys2Proof.Machine.onHarbourWrite r cell window value bar2 s
  | .hbmPatrolScrub stack addr len upsets => Sys2Proof.Machine.onHbmPatrolScrub stack addr len upsets s
  | .hbmReadArrival r id upsets => Sys2Proof.Machine.onHbmReadArrival r id upsets s
  | .hbmWriteAccept r id cell off => Sys2Proof.Machine.onHbmWriteAccept r id cell off s
  | .hbAreaWrite die area value => Sys2Proof.Machine.onHbAreaWrite die area value s
  | .ferryRingTailWrite value => Sys2Proof.Machine.onFerryRingTailWrite value s
  | .fetch own t => Sys2Proof.Machine.onFetch own t s
  | .push t => Sys2Proof.Machine.onPush t s
  | .recv own t => Sys2Proof.Machine.onRecv own t s
  | .mirror own t => Sys2Proof.Machine.onMirror own t s
  | .evict t => Sys2Proof.Machine.onEvict t s
  | .rehash own t => Sys2Proof.Machine.onRehash own t s
  | .ferryFormat t => Sys2Proof.Machine.onFerryFormat t s
  | .ferryBlockReceived run => Sys2Proof.Machine.onFerryBlockReceived run s
  | .ferryCommandDone run sourceLost relayLost badCopy t => Sys2Proof.Machine.onFerryCommandDone run sourceLost relayLost badCopy t s
  | .ferryHostWaitExpiry m t => Sys2Proof.Machine.onFerryHostWaitExpiry m t s
  | .modelRegister m => Sys2Proof.Machine.onModelRegister m s
  | .modelLoad m t => Sys2Proof.Machine.onModelLoad m t s
  | .modelUnregister m => Sys2Proof.Machine.onModelUnregister m s
  | .evictionDone m => Sys2Proof.Machine.onEvictionDone m s
  | .rehashIntervalExpiry t => Sys2Proof.Machine.onRehashIntervalExpiry t s
  | .slowTierFillDone m shards => Sys2Proof.Machine.onSlowTierFillDone m shards s
  | .stepBoundary t => Sys2Proof.Machine.onStepBoundary t s
  | .svcPlanWrite p word value => Sys2Proof.Machine.onSvcPlanWrite p word value s
  | .admitAccept ring => Sys2Proof.Machine.onAdmitAccept ring s
  | .admitReject ring => Sys2Proof.Machine.onAdmitReject ring s
  | .admitHostWaitExpiry ring t => Sys2Proof.Machine.onAdmitHostWaitExpiry ring t s
  | .handoffCopyDone slot page => Sys2Proof.Machine.onHandoffCopyDone slot page s
  | .kvSpillDone slot page => Sys2Proof.Machine.onKvSpillDone slot page s
  | .kvStageDone slot page data => Sys2Proof.Machine.onKvStageDone slot page data s
  | .stepLost t => Sys2Proof.Machine.onStepLost t s
  | .budgetAdjust customer delta => Sys2Proof.Machine.onBudgetAdjust customer delta s
  | .refillPeriodExpiry t => Sys2Proof.Machine.onRefillPeriodExpiry t s
  | .svcOutEnableWrite ring value => Sys2Proof.Machine.onSvcOutEnableWrite ring value s
  | .meterFeedStallExpiry t => Sys2Proof.Machine.onMeterFeedStallExpiry t s
  | .istEntryArrival toEstuary t => Sys2Proof.Machine.onIstEntryArrival toEstuary t s
  | .istCrcFail flit => Sys2Proof.Machine.onIstCrcFail flit s
  | .istRetrainDone up repaired t => Sys2Proof.Machine.onIstRetrainDone up repaired t s
  | .sidebandFrame toEstuary ok seq times t => Sys2Proof.Machine.onSidebandFrame toEstuary ok seq times t s
  | .ackFlit l h totals t => Sys2Proof.Machine.onAckFlit l h totals t s
  | .planFlit l h tide stream index data t => Sys2Proof.Machine.onPlanFlit l h tide stream index data t s
  | .driftFlit l h vc first last data t => Sys2Proof.Machine.onDriftFlit l h vc first last data t s
  | .nakFlit l h expected t => Sys2Proof.Machine.onNakFlit l h expected t s
  | .laneFlit l h lane action t => Sys2Proof.Machine.onLaneFlit l h lane action t s
  | .creditSyncFlit l h mark totals t => Sys2Proof.Machine.onCreditSyncFlit l h mark totals t s
  | .timeFlit l h data arrival t => Sys2Proof.Machine.onTimeFlit l h data arrival t s
  | .initFlit l device link data t => Sys2Proof.Machine.onInitFlit l device link data t s
  | .flitCrcFail l t => Sys2Proof.Machine.onFlitCrcFail l t s
  | .flitSlotSend l t => Sys2Proof.Machine.onFlitSlotSend l t s
  | .ackTimeout l t => Sys2Proof.Machine.onAckTimeout l t s
  | .ackIntervalExpiry l t => Sys2Proof.Machine.onAckIntervalExpiry l t s
  | .laneFail l lane symbols t => Sys2Proof.Machine.onLaneFail l lane symbols t s
  | .laneReportRepeat l t => Sys2Proof.Machine.onLaneReportRepeat l t s
  | .laneMapChange l transmit t => Sys2Proof.Machine.onLaneMapChange l transmit t s
  | .lockLost l codewords t => Sys2Proof.Machine.onLockLost l codewords t s
  | .lockRegained l t => Sys2Proof.Machine.onLockRegained l t s
  | .downTimeExpiry l t => Sys2Proof.Machine.onDownTimeExpiry l t s
  | .trainRetryExpiry l t => Sys2Proof.Machine.onTrainRetryExpiry l t s
  | .trainingDone l rxGood txGood t => Sys2Proof.Machine.onTrainingDone l rxGood txGood t s
  | .trainTimeout l t => Sys2Proof.Machine.onTrainTimeout l t s
  | .dampExpiry l t => Sys2Proof.Machine.onDampExpiry l t s
  | .cwCmdTrain l t => Sys2Proof.Machine.onCwCmdTrain l t s
  | .cwCmdSpare l t => Sys2Proof.Machine.onCwCmdSpare l t s
  | .cwCmdDrop l lane t => Sys2Proof.Machine.onCwCmdDrop l lane t s
  | .cwCmdDown l t => Sys2Proof.Machine.onCwCmdDown l t s
  | .cwHostWaitExpiry l t => Sys2Proof.Machine.onCwHostWaitExpiry l t s
  | .fenceWrite l value t => Sys2Proof.Machine.onFenceWrite l value t s
  | .read p t => Sys2Proof.Machine.onRead p t s
  | .write p t => Sys2Proof.Machine.onWrite p t s
  | .readResp p t => Sys2Proof.Machine.onReadResp p t s
  | .writeAck p t => Sys2Proof.Machine.onWriteAck p t s
  | .bounce p t => Sys2Proof.Machine.onBounce p t s
  | .relay p t => Sys2Proof.Machine.onRelay p t s
  | .mgmtReq p asks t => Sys2Proof.Machine.onMgmtReq p asks t s
  | .mgmtResp p t => Sys2Proof.Machine.onMgmtResp p t s
  | .driftForward via vc transit t => Sys2Proof.Machine.onDriftForward via vc transit t s
  | .driftReqTimeout requester tag t => Sys2Proof.Machine.onDriftReqTimeout requester tag t s
  | .arbGrant inst requesting => Sys2Proof.Machine.onArbGrant inst requesting s
  | .arbStarveLimit inst q => Sys2Proof.Machine.onArbStarveLimit inst q s
  | .arbWithdraw inst q => Sys2Proof.Machine.onArbWithdraw inst q s
  | .arbMask inst m => Sys2Proof.Machine.onArbMask inst m s
  | .timeExchangeSend t => Sys2Proof.Machine.onTimeExchangeSend t s
  | .servoUpdate t => Sys2Proof.Machine.onServoUpdate t s
  | .timeAdjWrite value t => Sys2Proof.Machine.onTimeAdjWrite value t s
  | .timeHostWaitExpiry t => Sys2Proof.Machine.onTimeHostWaitExpiry t s
  | .timeParentWrite value => Sys2Proof.Machine.onTimeParentWrite value s
  | .timeLinkLoss l t => Sys2Proof.Machine.onTimeLinkLoss l t s
  | .ptpSync q m twoStep origin arrival t => Sys2Proof.Machine.onPtpSync q m twoStep origin arrival t s
  | .ptpFollowUp q m origin t => Sys2Proof.Machine.onPtpFollowUp q m origin t s
  | .ptpDelayResp q m received t => Sys2Proof.Machine.onPtpDelayResp q m received t s
  | .ptpAnnounce q m utcValid utcOffset logInterval t => Sys2Proof.Machine.onPtpAnnounce q m utcValid utcOffset logInterval t s
  | .ptpDelayReqSend q t => Sys2Proof.Machine.onPtpDelayReqSend q t s
  | .ptpAnnounceTimeout q t => Sys2Proof.Machine.onPtpAnnounceTimeout q t s
  | .ppsEdge falling t => Sys2Proof.Machine.onPpsEdge falling t s
  | .ppsLossTimeout t => Sys2Proof.Machine.onPpsLossTimeout t s
  | .captureEdge falling t => Sys2Proof.Machine.onCaptureEdge falling t s
  | .captureValueRead => Sys2Proof.Machine.onCaptureValueRead s
  | .pulseArm p t => Sys2Proof.Machine.onPulseArm p t s
  | .pulseFire p t => Sys2Proof.Machine.onPulseFire p t s
  | .calendarSync t => Sys2Proof.Machine.onCalendarSync t s
  | .admitPlan t => Sys2Proof.Machine.onAdmitPlan t s
  | .admitComplete isthmus t => Sys2Proof.Machine.onAdmitComplete isthmus t s
  | .admitRelease => Sys2Proof.Machine.onAdmitRelease s
  | .launchStart tide t => Sys2Proof.Machine.onLaunchStart tide t s
  | .launchSend index t => Sys2Proof.Machine.onLaunchSend index t s
  | .launchRecord p t => Sys2Proof.Machine.onLaunchRecord p t s
  | .launchAck p t => Sys2Proof.Machine.onLaunchAck p t s
  | .launchWaitExpiry index t => Sys2Proof.Machine.onLaunchWaitExpiry index t s
  | .launchHostWaitExpiry t => Sys2Proof.Machine.onLaunchHostWaitExpiry t s
  | .perst t => Sys2Proof.Machine.onPerst t s
  | .hostLinkDown t => Sys2Proof.Machine.onHostLinkDown t s
  | .hostLinkUp wide fast t => Sys2Proof.Machine.onHostLinkUp wide fast t s
  | .hostMemWrite addr data poisoned => Sys2Proof.Machine.onHostMemWrite addr data poisoned s
  | .hostMemRead addr cached upsets => Sys2Proof.Machine.onHostMemRead addr cached upsets s
  | .biSnoopResponse die addr dirty t => Sys2Proof.Machine.onBiSnoopResponse die addr dirty t s
  | .cxlCacheCompletion use off lost data => Sys2Proof.Machine.onCxlCacheCompletion use off lost data s
  | .doeDiscovery mailbox index => Sys2Proof.Machine.onDoeDiscovery mailbox index s
  | .cdatRead entry => Sys2Proof.Machine.onCdatRead entry s
  | .perstRelease t => Sys2Proof.Machine.onPerstRelease t s
  | .hdmDecoderCommit n base => Sys2Proof.Machine.onHdmDecoderCommit n base s
  | .arpRequest q target mac ip => Sys2Proof.Machine.onArpRequest q target mac ip s
  | .roceReadResponse target psn marked data t => Sys2Proof.Machine.onRoceReadResponse target psn marked data t s
  | .roceAckTimeout target t => Sys2Proof.Machine.onRoceAckTimeout target t s
  | .pfcPause q priority quanta t => Sys2Proof.Machine.onPfcPause q priority quanta t s
  | .quayTargetEnable target value t => Sys2Proof.Machine.onQuayTargetEnable target value t s
  | .quayTargetDisable target value => Sys2Proof.Machine.onQuayTargetDisable target value s
  | .quayLinkDown q t => Sys2Proof.Machine.onQuayLinkDown q t s
  | .quayLinkUp q t => Sys2Proof.Machine.onQuayLinkUp q t s
  | .fcsFailedFrame q kind => Sys2Proof.Machine.onFcsFailedFrame q kind s
  | .i3cRead offset count => Sys2Proof.Machine.onI3cRead offset count s
  | .i3cWrite offset data => Sys2Proof.Machine.onI3cWrite offset data s
  | .setdasa address dynamic => Sys2Proof.Machine.onSetdasa address dynamic s
  | .entdaa dynamic => Sys2Proof.Machine.onEntdaa dynamic s
  | .jtagBypass tdi => Sys2Proof.Machine.onJtagBypass tdi s
  | .jtagIdcode => Sys2Proof.Machine.onJtagIdcode s
  | .samplePreload pins tdi => Sys2Proof.Machine.onSamplePreload pins tdi s
  | .extest pins tdi => Sys2Proof.Machine.onExtest pins tdi s
  | .clamp tdi => Sys2Proof.Machine.onClamp tdi s
  | .highz tdi => Sys2Proof.Machine.onHighz tdi s
  | .jtagVendorPrivate code tdi => Sys2Proof.Machine.onJtagVendorPrivate code tdi s
  | .pwrRailWrite d value t => Sys2Proof.Machine.onPwrRailWrite d value t s
  | .avsConfirm d t => Sys2Proof.Machine.onAvsConfirm d t s
  | .avsFault d t => Sys2Proof.Machine.onAvsFault d t s
  | .clkMonWindow source ppm t => Sys2Proof.Machine.onClkMonWindow source ppm t s
  | .clkNoEdgeTimeout source t => Sys2Proof.Machine.onClkNoEdgeTimeout source t s
  | .clkRecheck target t => Sys2Proof.Machine.onClkRecheck target t s
  | .clkRelock r t => Sys2Proof.Machine.onClkRelock r t s
  | .recheckComplete source t => Sys2Proof.Machine.onRecheckComplete source t s
  | .gateOn value => Sys2Proof.Machine.onGateOn value s
  | .gateOff value => Sys2Proof.Machine.onGateOff value s
  | .dfllStep r best margin t => Sys2Proof.Machine.onDfllStep r best margin t s
  | .droopStretch r mv periods t => Sys2Proof.Machine.onDroopStretch r mv periods t s
  | .pwrStretchWrite value => Sys2Proof.Machine.onPwrStretchWrite value s
  | .thermalLimitExceeded r temp t => Sys2Proof.Machine.onThermalLimitExceeded r temp t s
  | .thermalStep r temp t => Sys2Proof.Machine.onThermalStep r temp t s
  | .thermalTrip r temp t => Sys2Proof.Machine.onThermalTrip r temp t s
  | .powerCapStep power t => Sys2Proof.Machine.onPowerCapStep power t s
  | .neighbourCheck temps volts t => Sys2Proof.Machine.onNeighbourCheck temps volts t s
  | .dipBegin d mv fell t => Sys2Proof.Machine.onDipBegin d mv fell t s
  | .dipEnd d low mv t => Sys2Proof.Machine.onDipEnd d low mv t s
  | .supplyReset d mv t => Sys2Proof.Machine.onSupplyReset d mv t s
  | .coreResetRelease d mv t => Sys2Proof.Machine.onCoreResetRelease d mv t s
  | .pwrGoodLoss t => Sys2Proof.Machine.onPwrGoodLoss t s
  | .pwrGoodAssert t => Sys2Proof.Machine.onPwrGoodAssert t s
  | .pwrCmdPark t => Sys2Proof.Machine.onPwrCmdPark t s
  | .pwrCmdIdle t => Sys2Proof.Machine.onPwrCmdIdle t s
  | .pwrCmdDormant t => Sys2Proof.Machine.onPwrCmdDormant t s
  | .quiesceAssert t => Sys2Proof.Machine.onQuiesceAssert t s
  | .parkEntry t => Sys2Proof.Machine.onParkEntry t s
  | .quiesceRelease t => Sys2Proof.Machine.onQuiesceRelease t s
  | .hbmSelfRefreshTimeout stack t => Sys2Proof.Machine.onHbmSelfRefreshTimeout stack t s
  | .railBelow90Percent t => Sys2Proof.Machine.onRailBelow90Percent t s
  | .getCerts => Sys2Proof.Machine.onGetCerts s
  | .quote nonce => Sys2Proof.Machine.onQuote nonce s
  | .debugUnlock token t => Sys2Proof.Machine.onDebugUnlock token t s
  | .recoveryObject offset data t => Sys2Proof.Machine.onRecoveryObject offset data t s
  | .lhPowerOnReset straps => Sys2Proof.Machine.onLhPowerOnReset straps s
  | .boot t => Sys2Proof.Machine.onBoot t s
  | .recoveryWaitExpiry t => Sys2Proof.Machine.onRecoveryWaitExpiry t s
  | .svnAdvance component => Sys2Proof.Machine.onSvnAdvance component s
  | .updateStage t => Sys2Proof.Machine.onUpdateStage t s
  | .updateCheckDone t => Sys2Proof.Machine.onUpdateCheckDone t s
  | .updateActivate fails t => Sys2Proof.Machine.onUpdateActivate fails t s
  | .keeperReady t => Sys2Proof.Machine.onKeeperReady t s
  | .keeperReadyTimeout t => Sys2Proof.Machine.onKeeperReadyTimeout t s
  | .keyInstall value => Sys2Proof.Machine.onKeyInstall value s
  | .keyClear value => Sys2Proof.Machine.onKeyClear value s
  | .serviceWrite region value => Sys2Proof.Machine.onServiceWrite region value s
  | .stackRetrainDone stack t => Sys2Proof.Machine.onStackRetrainDone stack t s
  | .configWriteDone ok t => Sys2Proof.Machine.onConfigWriteDone ok t s
  | .feedCountRecord flips ackLost t => Sys2Proof.Machine.onFeedCountRecord flips ackLost t s
  | .feedIdleFrame flips ackLost t => Sys2Proof.Machine.onFeedIdleFrame flips ackLost t s
  | .feedResendTimeout t => Sys2Proof.Machine.onFeedResendTimeout t s
  | .feedIdleTimer t => Sys2Proof.Machine.onFeedIdleTimer t s
  | .feedInterruption t => Sys2Proof.Machine.onFeedInterruption t s
  | .energySample shunts volts => Sys2Proof.Machine.onEnergySample shunts volts s
  | .meterTimebaseFail => Sys2Proof.Machine.onMeterTimebaseFail s
  | .meterTimebaseRestore => Sys2Proof.Machine.onMeterTimebaseRestore s
  | .recordIntervalEnd t => Sys2Proof.Machine.onRecordIntervalEnd t s
  | .recordSigned t => Sys2Proof.Machine.onRecordSigned t s
  | .meterSupplyWarning t => Sys2Proof.Machine.onMeterSupplyWarning t s
  | .meterPowerRestore t => Sys2Proof.Machine.onMeterPowerRestore t s
  | .sealOpen => Sys2Proof.Machine.onSealOpen s
  | .sealClose => Sys2Proof.Machine.onSealClose s
  | .readRecord number => Sys2Proof.Machine.onReadRecord number s
  | .readCustomerSnapshot number => Sys2Proof.Machine.onReadCustomerSnapshot number s
  | .readLiveTotals t => Sys2Proof.Machine.onReadLiveTotals t s
  | .readCertificate => Sys2Proof.Machine.onReadCertificate s
  | .writeParameterSet set => Sys2Proof.Machine.onWriteParameterSet set s
  | .setMeterSeconds value t => Sys2Proof.Machine.onSetMeterSeconds value t s
  | .mirrorRefresh t => Sys2Proof.Machine.onMirrorRefresh t s
  | .mirrorStaleTimeout t => Sys2Proof.Machine.onMirrorStaleTimeout t s
  | .routerCrcFail r drift attempt t => Sys2Proof.Machine.onRouterCrcFail r drift attempt t s
  | .resetCores t => Sys2Proof.Machine.onResetCores t s
  | .coalesceExpiry vector t => Sys2Proof.Machine.onCoalesceExpiry vector t s
  | .evtRingBaseWrite value => Sys2Proof.Machine.onEvtRingBaseWrite value s
  | .evtStatusClear value => Sys2Proof.Machine.onEvtStatusClear value s
  | .halfRead requester offset => Sys2Proof.Machine.onHalfRead requester offset s
  | .lifeSummary t => Sys2Proof.Machine.onLifeSummary t s
  | .lifeMinute temps t => Sys2Proof.Machine.onLifeMinute temps t s
  | .lifeFlush value => Sys2Proof.Machine.onLifeFlush value s
  | .lifeWriteDone ok t => Sys2Proof.Machine.onLifeWriteDone ok t s
  | .registerWrite src offset part value t => Sys2Proof.Machine.onRegisterWrite src offset part value t s
  | .bar2Refused offset t => Sys2Proof.Machine.onBar2Refused offset t s
  | .misalignedAccess offset size t => Sys2Proof.Machine.onMisalignedAccess offset size t s

end Sys2Proof.Machine
end

