-- ==== Sys2Proof/Laws/State.lean ====
section
/-! SUPPORT. One lemma per field and update of the device: an update of one field leaves each other field as it was.
All hold by computation; no later proof need unfold an update. -/

namespace Sys2Proof.Machine

/-! ### set -/

@[simp] theorem mem_set (d : Dev) (f : Fld) (i v : Nat) : (d.set f i v).mem = d.mem := rfl
@[simp] theorem free_set (d : Dev) (f : Fld) (i v : Nat) : (d.set f i v).free = d.free := rfl
@[simp] theorem fuses_set (d : Dev) (f : Fld) (i v : Nat) : (d.set f i v).fuses = d.fuses := rfl
@[simp] theorem fatal_set (d : Dev) (f : Fld) (i v : Nat) : (d.set f i v).fatal = d.fatal := rfl
@[simp] theorem cal_set (d : Dev) (f : Fld) (i v : Nat) : (d.set f i v).cal = d.cal := rfl
@[simp] theorem px_set (d : Dev) (f : Fld) (i v : Nat) : (d.set f i v).px = d.px := rfl
@[simp] theorem evt_set (d : Dev) (f : Fld) (i v : Nat) : (d.set f i v).evt = d.evt := rfl
@[simp] theorem life_set (d : Dev) (f : Fld) (i v : Nat) : (d.set f i v).life = d.life := rfl
@[simp] theorem host_set (d : Dev) (f : Fld) (i v : Nat) : (d.set f i v).host = d.host := rfl
@[simp] theorem regions_set (d : Dev) (f : Fld) (i v : Nat) : (d.set f i v).regions = d.regions := rfl
@[simp] theorem tide_set (d : Dev) (f : Fld) (i v : Nat) : (d.set f i v).tide = d.tide := rfl
@[simp] theorem plan_set (d : Dev) (f : Fld) (i v : Nat) : (d.set f i v).plan = d.plan := rfl
@[simp] theorem links_set (d : Dev) (f : Fld) (i v : Nat) : (d.set f i v).links = d.links := rfl
@[simp] theorem ist_set (d : Dev) (f : Fld) (i v : Nat) : (d.set f i v).ist = d.ist := rfl
@[simp] theorem fabric_set (d : Dev) (f : Fld) (i v : Nat) : (d.set f i v).fabric = d.fabric := rfl
@[simp] theorem ferry_set (d : Dev) (f : Fld) (i v : Nat) : (d.set f i v).ferry = d.ferry := rfl
@[simp] theorem time_set (d : Dev) (f : Fld) (i v : Nat) : (d.set f i v).time = d.time := rfl
@[simp] theorem sec_set (d : Dev) (f : Fld) (i v : Nat) : (d.set f i v).sec = d.sec := rfl
@[simp] theorem launch_set (d : Dev) (f : Fld) (i v : Nat) : (d.set f i v).launch = d.launch := rfl
@[simp] theorem svc_set (d : Dev) (f : Fld) (i v : Nat) : (d.set f i v).svc = d.svc := rfl
@[simp] theorem quay_set (d : Dev) (f : Fld) (i v : Nat) : (d.set f i v).quay = d.quay := rfl
@[simp] theorem clk_set (d : Dev) (f : Fld) (i v : Nat) : (d.set f i v).clk = d.clk := rfl
@[simp] theorem pwr_set (d : Dev) (f : Fld) (i v : Nat) : (d.set f i v).pwr = d.pwr := rfl
@[simp] theorem side_set (d : Dev) (f : Fld) (i v : Nat) : (d.set f i v).side = d.side := rfl
@[simp] theorem mirrorAt_set (d : Dev) (f : Fld) (i v : Nat) : (d.set f i v).mirrorAt = d.mirrorAt := rfl
@[simp] theorem hbmErr_set (d : Dev) (f : Fld) (i v : Nat) : (d.set f i v).hbmErr = d.hbmErr := rfl
@[simp] theorem reg_set (d : Dev) (f : Fld) (i v : Nat) (q : Nat) : (d.set f i v).reg q = d.reg q := rfl
@[simp] theorem cell_set (d : Dev) (f : Fld) (i v : Nat) (q k : Nat) : (d.set f i v).cell q k = d.cell q k := rfl
@[simp] theorem link_set (d : Dev) (f : Fld) (i v : Nat) (q : Nat) : (d.set f i v).link q = d.link q := rfl

/-! ### setB -/

@[simp] theorem mem_setB (d : Dev) (f : Fld) (i : Nat) (b : Bool) : (d.setB f i b).mem = d.mem := rfl
@[simp] theorem free_setB (d : Dev) (f : Fld) (i : Nat) (b : Bool) : (d.setB f i b).free = d.free := rfl
@[simp] theorem fuses_setB (d : Dev) (f : Fld) (i : Nat) (b : Bool) : (d.setB f i b).fuses = d.fuses := rfl
@[simp] theorem fatal_setB (d : Dev) (f : Fld) (i : Nat) (b : Bool) : (d.setB f i b).fatal = d.fatal := rfl
@[simp] theorem cal_setB (d : Dev) (f : Fld) (i : Nat) (b : Bool) : (d.setB f i b).cal = d.cal := rfl
@[simp] theorem px_setB (d : Dev) (f : Fld) (i : Nat) (b : Bool) : (d.setB f i b).px = d.px := rfl
@[simp] theorem evt_setB (d : Dev) (f : Fld) (i : Nat) (b : Bool) : (d.setB f i b).evt = d.evt := rfl
@[simp] theorem life_setB (d : Dev) (f : Fld) (i : Nat) (b : Bool) : (d.setB f i b).life = d.life := rfl
@[simp] theorem host_setB (d : Dev) (f : Fld) (i : Nat) (b : Bool) : (d.setB f i b).host = d.host := rfl
@[simp] theorem regions_setB (d : Dev) (f : Fld) (i : Nat) (b : Bool) : (d.setB f i b).regions = d.regions := rfl
@[simp] theorem tide_setB (d : Dev) (f : Fld) (i : Nat) (b : Bool) : (d.setB f i b).tide = d.tide := rfl
@[simp] theorem plan_setB (d : Dev) (f : Fld) (i : Nat) (b : Bool) : (d.setB f i b).plan = d.plan := rfl
@[simp] theorem links_setB (d : Dev) (f : Fld) (i : Nat) (b : Bool) : (d.setB f i b).links = d.links := rfl
@[simp] theorem ist_setB (d : Dev) (f : Fld) (i : Nat) (b : Bool) : (d.setB f i b).ist = d.ist := rfl
@[simp] theorem fabric_setB (d : Dev) (f : Fld) (i : Nat) (b : Bool) : (d.setB f i b).fabric = d.fabric := rfl
@[simp] theorem ferry_setB (d : Dev) (f : Fld) (i : Nat) (b : Bool) : (d.setB f i b).ferry = d.ferry := rfl
@[simp] theorem time_setB (d : Dev) (f : Fld) (i : Nat) (b : Bool) : (d.setB f i b).time = d.time := rfl
@[simp] theorem sec_setB (d : Dev) (f : Fld) (i : Nat) (b : Bool) : (d.setB f i b).sec = d.sec := rfl
@[simp] theorem launch_setB (d : Dev) (f : Fld) (i : Nat) (b : Bool) : (d.setB f i b).launch = d.launch := rfl
@[simp] theorem svc_setB (d : Dev) (f : Fld) (i : Nat) (b : Bool) : (d.setB f i b).svc = d.svc := rfl
@[simp] theorem quay_setB (d : Dev) (f : Fld) (i : Nat) (b : Bool) : (d.setB f i b).quay = d.quay := rfl
@[simp] theorem clk_setB (d : Dev) (f : Fld) (i : Nat) (b : Bool) : (d.setB f i b).clk = d.clk := rfl
@[simp] theorem pwr_setB (d : Dev) (f : Fld) (i : Nat) (b : Bool) : (d.setB f i b).pwr = d.pwr := rfl
@[simp] theorem side_setB (d : Dev) (f : Fld) (i : Nat) (b : Bool) : (d.setB f i b).side = d.side := rfl
@[simp] theorem mirrorAt_setB (d : Dev) (f : Fld) (i : Nat) (b : Bool) : (d.setB f i b).mirrorAt = d.mirrorAt := rfl
@[simp] theorem hbmErr_setB (d : Dev) (f : Fld) (i : Nat) (b : Bool) : (d.setB f i b).hbmErr = d.hbmErr := rfl
@[simp] theorem reg_setB (d : Dev) (f : Fld) (i : Nat) (b : Bool) (q : Nat) : (d.setB f i b).reg q = d.reg q := rfl
@[simp] theorem cell_setB (d : Dev) (f : Fld) (i : Nat) (b : Bool) (q k : Nat) : (d.setB f i b).cell q k = d.cell q k := rfl
@[simp] theorem link_setB (d : Dev) (f : Fld) (i : Nat) (b : Bool) (q : Nat) : (d.setB f i b).link q = d.link q := rfl

/-! ### setReg -/

@[simp] theorem regs_setReg (d : Dev) (r : Nat) (x : RegionSt) : (d.setReg r x).regs = d.regs := rfl
@[simp] theorem mem_setReg (d : Dev) (r : Nat) (x : RegionSt) : (d.setReg r x).mem = d.mem := rfl
@[simp] theorem free_setReg (d : Dev) (r : Nat) (x : RegionSt) : (d.setReg r x).free = d.free := rfl
@[simp] theorem fuses_setReg (d : Dev) (r : Nat) (x : RegionSt) : (d.setReg r x).fuses = d.fuses := rfl
@[simp] theorem fatal_setReg (d : Dev) (r : Nat) (x : RegionSt) : (d.setReg r x).fatal = d.fatal := rfl
@[simp] theorem cal_setReg (d : Dev) (r : Nat) (x : RegionSt) : (d.setReg r x).cal = d.cal := rfl
@[simp] theorem px_setReg (d : Dev) (r : Nat) (x : RegionSt) : (d.setReg r x).px = d.px := rfl
@[simp] theorem evt_setReg (d : Dev) (r : Nat) (x : RegionSt) : (d.setReg r x).evt = d.evt := rfl
@[simp] theorem life_setReg (d : Dev) (r : Nat) (x : RegionSt) : (d.setReg r x).life = d.life := rfl
@[simp] theorem host_setReg (d : Dev) (r : Nat) (x : RegionSt) : (d.setReg r x).host = d.host := rfl
@[simp] theorem tide_setReg (d : Dev) (r : Nat) (x : RegionSt) : (d.setReg r x).tide = d.tide := rfl
@[simp] theorem plan_setReg (d : Dev) (r : Nat) (x : RegionSt) : (d.setReg r x).plan = d.plan := rfl
@[simp] theorem links_setReg (d : Dev) (r : Nat) (x : RegionSt) : (d.setReg r x).links = d.links := rfl
@[simp] theorem ist_setReg (d : Dev) (r : Nat) (x : RegionSt) : (d.setReg r x).ist = d.ist := rfl
@[simp] theorem fabric_setReg (d : Dev) (r : Nat) (x : RegionSt) : (d.setReg r x).fabric = d.fabric := rfl
@[simp] theorem ferry_setReg (d : Dev) (r : Nat) (x : RegionSt) : (d.setReg r x).ferry = d.ferry := rfl
@[simp] theorem time_setReg (d : Dev) (r : Nat) (x : RegionSt) : (d.setReg r x).time = d.time := rfl
@[simp] theorem sec_setReg (d : Dev) (r : Nat) (x : RegionSt) : (d.setReg r x).sec = d.sec := rfl
@[simp] theorem launch_setReg (d : Dev) (r : Nat) (x : RegionSt) : (d.setReg r x).launch = d.launch := rfl
@[simp] theorem svc_setReg (d : Dev) (r : Nat) (x : RegionSt) : (d.setReg r x).svc = d.svc := rfl
@[simp] theorem quay_setReg (d : Dev) (r : Nat) (x : RegionSt) : (d.setReg r x).quay = d.quay := rfl
@[simp] theorem clk_setReg (d : Dev) (r : Nat) (x : RegionSt) : (d.setReg r x).clk = d.clk := rfl
@[simp] theorem pwr_setReg (d : Dev) (r : Nat) (x : RegionSt) : (d.setReg r x).pwr = d.pwr := rfl
@[simp] theorem side_setReg (d : Dev) (r : Nat) (x : RegionSt) : (d.setReg r x).side = d.side := rfl
@[simp] theorem mirrorAt_setReg (d : Dev) (r : Nat) (x : RegionSt) : (d.setReg r x).mirrorAt = d.mirrorAt := rfl
@[simp] theorem hbmErr_setReg (d : Dev) (r : Nat) (x : RegionSt) : (d.setReg r x).hbmErr = d.hbmErr := rfl
@[simp] theorem get_setReg (d : Dev) (r : Nat) (x : RegionSt) (g : Fld) (j : Nat) : (d.setReg r x).get g j = d.get g j := rfl
@[simp] theorem is_setReg (d : Dev) (r : Nat) (x : RegionSt) (g : Fld) (j : Nat) : (d.setReg r x).is g j = d.is g j := rfl
@[simp] theorem now_setReg (d : Dev) (r : Nat) (x : RegionSt) : (d.setReg r x).now = d.now := rfl
@[simp] theorem coreUp_setReg (d : Dev) (r : Nat) (x : RegionSt) (die : Nat) : (d.setReg r x).coreUp die = d.coreUp die := rfl
@[simp] theorem link_setReg (d : Dev) (r : Nat) (x : RegionSt) (q : Nat) : (d.setReg r x).link q = d.link q := rfl

/-! ### modReg -/

@[simp] theorem regs_modReg (d : Dev) (r : Nat) (f : RegionSt → RegionSt) : (d.modReg r f).regs = d.regs := rfl
@[simp] theorem mem_modReg (d : Dev) (r : Nat) (f : RegionSt → RegionSt) : (d.modReg r f).mem = d.mem := rfl
@[simp] theorem free_modReg (d : Dev) (r : Nat) (f : RegionSt → RegionSt) : (d.modReg r f).free = d.free := rfl
@[simp] theorem fuses_modReg (d : Dev) (r : Nat) (f : RegionSt → RegionSt) : (d.modReg r f).fuses = d.fuses := rfl
@[simp] theorem fatal_modReg (d : Dev) (r : Nat) (f : RegionSt → RegionSt) : (d.modReg r f).fatal = d.fatal := rfl
@[simp] theorem cal_modReg (d : Dev) (r : Nat) (f : RegionSt → RegionSt) : (d.modReg r f).cal = d.cal := rfl
@[simp] theorem px_modReg (d : Dev) (r : Nat) (f : RegionSt → RegionSt) : (d.modReg r f).px = d.px := rfl
@[simp] theorem evt_modReg (d : Dev) (r : Nat) (f : RegionSt → RegionSt) : (d.modReg r f).evt = d.evt := rfl
@[simp] theorem life_modReg (d : Dev) (r : Nat) (f : RegionSt → RegionSt) : (d.modReg r f).life = d.life := rfl
@[simp] theorem host_modReg (d : Dev) (r : Nat) (f : RegionSt → RegionSt) : (d.modReg r f).host = d.host := rfl
@[simp] theorem tide_modReg (d : Dev) (r : Nat) (f : RegionSt → RegionSt) : (d.modReg r f).tide = d.tide := rfl
@[simp] theorem plan_modReg (d : Dev) (r : Nat) (f : RegionSt → RegionSt) : (d.modReg r f).plan = d.plan := rfl
@[simp] theorem links_modReg (d : Dev) (r : Nat) (f : RegionSt → RegionSt) : (d.modReg r f).links = d.links := rfl
@[simp] theorem ist_modReg (d : Dev) (r : Nat) (f : RegionSt → RegionSt) : (d.modReg r f).ist = d.ist := rfl
@[simp] theorem fabric_modReg (d : Dev) (r : Nat) (f : RegionSt → RegionSt) : (d.modReg r f).fabric = d.fabric := rfl
@[simp] theorem ferry_modReg (d : Dev) (r : Nat) (f : RegionSt → RegionSt) : (d.modReg r f).ferry = d.ferry := rfl
@[simp] theorem time_modReg (d : Dev) (r : Nat) (f : RegionSt → RegionSt) : (d.modReg r f).time = d.time := rfl
@[simp] theorem sec_modReg (d : Dev) (r : Nat) (f : RegionSt → RegionSt) : (d.modReg r f).sec = d.sec := rfl
@[simp] theorem launch_modReg (d : Dev) (r : Nat) (f : RegionSt → RegionSt) : (d.modReg r f).launch = d.launch := rfl
@[simp] theorem svc_modReg (d : Dev) (r : Nat) (f : RegionSt → RegionSt) : (d.modReg r f).svc = d.svc := rfl
@[simp] theorem quay_modReg (d : Dev) (r : Nat) (f : RegionSt → RegionSt) : (d.modReg r f).quay = d.quay := rfl
@[simp] theorem clk_modReg (d : Dev) (r : Nat) (f : RegionSt → RegionSt) : (d.modReg r f).clk = d.clk := rfl
@[simp] theorem pwr_modReg (d : Dev) (r : Nat) (f : RegionSt → RegionSt) : (d.modReg r f).pwr = d.pwr := rfl
@[simp] theorem side_modReg (d : Dev) (r : Nat) (f : RegionSt → RegionSt) : (d.modReg r f).side = d.side := rfl
@[simp] theorem mirrorAt_modReg (d : Dev) (r : Nat) (f : RegionSt → RegionSt) : (d.modReg r f).mirrorAt = d.mirrorAt := rfl
@[simp] theorem hbmErr_modReg (d : Dev) (r : Nat) (f : RegionSt → RegionSt) : (d.modReg r f).hbmErr = d.hbmErr := rfl
@[simp] theorem get_modReg (d : Dev) (r : Nat) (f : RegionSt → RegionSt) (g : Fld) (j : Nat) : (d.modReg r f).get g j = d.get g j := rfl
@[simp] theorem is_modReg (d : Dev) (r : Nat) (f : RegionSt → RegionSt) (g : Fld) (j : Nat) : (d.modReg r f).is g j = d.is g j := rfl
@[simp] theorem now_modReg (d : Dev) (r : Nat) (f : RegionSt → RegionSt) : (d.modReg r f).now = d.now := rfl
@[simp] theorem coreUp_modReg (d : Dev) (r : Nat) (f : RegionSt → RegionSt) (die : Nat) : (d.modReg r f).coreUp die = d.coreUp die := rfl
@[simp] theorem link_modReg (d : Dev) (r : Nat) (f : RegionSt → RegionSt) (q : Nat) : (d.modReg r f).link q = d.link q := rfl

/-! ### modCell -/

@[simp] theorem regs_modCell (d : Dev) (r c : Nat) (f : CellSt → CellSt) : (d.modCell r c f).regs = d.regs := rfl
@[simp] theorem mem_modCell (d : Dev) (r c : Nat) (f : CellSt → CellSt) : (d.modCell r c f).mem = d.mem := rfl
@[simp] theorem free_modCell (d : Dev) (r c : Nat) (f : CellSt → CellSt) : (d.modCell r c f).free = d.free := rfl
@[simp] theorem fuses_modCell (d : Dev) (r c : Nat) (f : CellSt → CellSt) : (d.modCell r c f).fuses = d.fuses := rfl
@[simp] theorem fatal_modCell (d : Dev) (r c : Nat) (f : CellSt → CellSt) : (d.modCell r c f).fatal = d.fatal := rfl
@[simp] theorem cal_modCell (d : Dev) (r c : Nat) (f : CellSt → CellSt) : (d.modCell r c f).cal = d.cal := rfl
@[simp] theorem px_modCell (d : Dev) (r c : Nat) (f : CellSt → CellSt) : (d.modCell r c f).px = d.px := rfl
@[simp] theorem evt_modCell (d : Dev) (r c : Nat) (f : CellSt → CellSt) : (d.modCell r c f).evt = d.evt := rfl
@[simp] theorem life_modCell (d : Dev) (r c : Nat) (f : CellSt → CellSt) : (d.modCell r c f).life = d.life := rfl
@[simp] theorem host_modCell (d : Dev) (r c : Nat) (f : CellSt → CellSt) : (d.modCell r c f).host = d.host := rfl
@[simp] theorem tide_modCell (d : Dev) (r c : Nat) (f : CellSt → CellSt) : (d.modCell r c f).tide = d.tide := rfl
@[simp] theorem plan_modCell (d : Dev) (r c : Nat) (f : CellSt → CellSt) : (d.modCell r c f).plan = d.plan := rfl
@[simp] theorem links_modCell (d : Dev) (r c : Nat) (f : CellSt → CellSt) : (d.modCell r c f).links = d.links := rfl
@[simp] theorem ist_modCell (d : Dev) (r c : Nat) (f : CellSt → CellSt) : (d.modCell r c f).ist = d.ist := rfl
@[simp] theorem fabric_modCell (d : Dev) (r c : Nat) (f : CellSt → CellSt) : (d.modCell r c f).fabric = d.fabric := rfl
@[simp] theorem ferry_modCell (d : Dev) (r c : Nat) (f : CellSt → CellSt) : (d.modCell r c f).ferry = d.ferry := rfl
@[simp] theorem time_modCell (d : Dev) (r c : Nat) (f : CellSt → CellSt) : (d.modCell r c f).time = d.time := rfl
@[simp] theorem sec_modCell (d : Dev) (r c : Nat) (f : CellSt → CellSt) : (d.modCell r c f).sec = d.sec := rfl
@[simp] theorem launch_modCell (d : Dev) (r c : Nat) (f : CellSt → CellSt) : (d.modCell r c f).launch = d.launch := rfl
@[simp] theorem svc_modCell (d : Dev) (r c : Nat) (f : CellSt → CellSt) : (d.modCell r c f).svc = d.svc := rfl
@[simp] theorem quay_modCell (d : Dev) (r c : Nat) (f : CellSt → CellSt) : (d.modCell r c f).quay = d.quay := rfl
@[simp] theorem clk_modCell (d : Dev) (r c : Nat) (f : CellSt → CellSt) : (d.modCell r c f).clk = d.clk := rfl
@[simp] theorem pwr_modCell (d : Dev) (r c : Nat) (f : CellSt → CellSt) : (d.modCell r c f).pwr = d.pwr := rfl
@[simp] theorem side_modCell (d : Dev) (r c : Nat) (f : CellSt → CellSt) : (d.modCell r c f).side = d.side := rfl
@[simp] theorem mirrorAt_modCell (d : Dev) (r c : Nat) (f : CellSt → CellSt) : (d.modCell r c f).mirrorAt = d.mirrorAt := rfl
@[simp] theorem hbmErr_modCell (d : Dev) (r c : Nat) (f : CellSt → CellSt) : (d.modCell r c f).hbmErr = d.hbmErr := rfl
@[simp] theorem get_modCell (d : Dev) (r c : Nat) (f : CellSt → CellSt) (g : Fld) (j : Nat) : (d.modCell r c f).get g j = d.get g j := rfl
@[simp] theorem is_modCell (d : Dev) (r c : Nat) (f : CellSt → CellSt) (g : Fld) (j : Nat) : (d.modCell r c f).is g j = d.is g j := rfl
@[simp] theorem now_modCell (d : Dev) (r c : Nat) (f : CellSt → CellSt) : (d.modCell r c f).now = d.now := rfl
@[simp] theorem coreUp_modCell (d : Dev) (r c : Nat) (f : CellSt → CellSt) (die : Nat) : (d.modCell r c f).coreUp die = d.coreUp die := rfl
@[simp] theorem link_modCell (d : Dev) (r c : Nat) (f : CellSt → CellSt) (q : Nat) : (d.modCell r c f).link q = d.link q := rfl

/-! ### modArr -/

@[simp] theorem regs_modArr (d : Dev) (r c a : Nat) (f : ArraySt → ArraySt) : (d.modArr r c a f).regs = d.regs := rfl
@[simp] theorem mem_modArr (d : Dev) (r c a : Nat) (f : ArraySt → ArraySt) : (d.modArr r c a f).mem = d.mem := rfl
@[simp] theorem free_modArr (d : Dev) (r c a : Nat) (f : ArraySt → ArraySt) : (d.modArr r c a f).free = d.free := rfl
@[simp] theorem fuses_modArr (d : Dev) (r c a : Nat) (f : ArraySt → ArraySt) : (d.modArr r c a f).fuses = d.fuses := rfl
@[simp] theorem fatal_modArr (d : Dev) (r c a : Nat) (f : ArraySt → ArraySt) : (d.modArr r c a f).fatal = d.fatal := rfl
@[simp] theorem cal_modArr (d : Dev) (r c a : Nat) (f : ArraySt → ArraySt) : (d.modArr r c a f).cal = d.cal := rfl
@[simp] theorem px_modArr (d : Dev) (r c a : Nat) (f : ArraySt → ArraySt) : (d.modArr r c a f).px = d.px := rfl
@[simp] theorem evt_modArr (d : Dev) (r c a : Nat) (f : ArraySt → ArraySt) : (d.modArr r c a f).evt = d.evt := rfl
@[simp] theorem life_modArr (d : Dev) (r c a : Nat) (f : ArraySt → ArraySt) : (d.modArr r c a f).life = d.life := rfl
@[simp] theorem host_modArr (d : Dev) (r c a : Nat) (f : ArraySt → ArraySt) : (d.modArr r c a f).host = d.host := rfl
@[simp] theorem tide_modArr (d : Dev) (r c a : Nat) (f : ArraySt → ArraySt) : (d.modArr r c a f).tide = d.tide := rfl
@[simp] theorem plan_modArr (d : Dev) (r c a : Nat) (f : ArraySt → ArraySt) : (d.modArr r c a f).plan = d.plan := rfl
@[simp] theorem links_modArr (d : Dev) (r c a : Nat) (f : ArraySt → ArraySt) : (d.modArr r c a f).links = d.links := rfl
@[simp] theorem ist_modArr (d : Dev) (r c a : Nat) (f : ArraySt → ArraySt) : (d.modArr r c a f).ist = d.ist := rfl
@[simp] theorem fabric_modArr (d : Dev) (r c a : Nat) (f : ArraySt → ArraySt) : (d.modArr r c a f).fabric = d.fabric := rfl
@[simp] theorem ferry_modArr (d : Dev) (r c a : Nat) (f : ArraySt → ArraySt) : (d.modArr r c a f).ferry = d.ferry := rfl
@[simp] theorem time_modArr (d : Dev) (r c a : Nat) (f : ArraySt → ArraySt) : (d.modArr r c a f).time = d.time := rfl
@[simp] theorem sec_modArr (d : Dev) (r c a : Nat) (f : ArraySt → ArraySt) : (d.modArr r c a f).sec = d.sec := rfl
@[simp] theorem launch_modArr (d : Dev) (r c a : Nat) (f : ArraySt → ArraySt) : (d.modArr r c a f).launch = d.launch := rfl
@[simp] theorem svc_modArr (d : Dev) (r c a : Nat) (f : ArraySt → ArraySt) : (d.modArr r c a f).svc = d.svc := rfl
@[simp] theorem quay_modArr (d : Dev) (r c a : Nat) (f : ArraySt → ArraySt) : (d.modArr r c a f).quay = d.quay := rfl
@[simp] theorem clk_modArr (d : Dev) (r c a : Nat) (f : ArraySt → ArraySt) : (d.modArr r c a f).clk = d.clk := rfl
@[simp] theorem pwr_modArr (d : Dev) (r c a : Nat) (f : ArraySt → ArraySt) : (d.modArr r c a f).pwr = d.pwr := rfl
@[simp] theorem side_modArr (d : Dev) (r c a : Nat) (f : ArraySt → ArraySt) : (d.modArr r c a f).side = d.side := rfl
@[simp] theorem mirrorAt_modArr (d : Dev) (r c a : Nat) (f : ArraySt → ArraySt) : (d.modArr r c a f).mirrorAt = d.mirrorAt := rfl
@[simp] theorem hbmErr_modArr (d : Dev) (r c a : Nat) (f : ArraySt → ArraySt) : (d.modArr r c a f).hbmErr = d.hbmErr := rfl
@[simp] theorem get_modArr (d : Dev) (r c a : Nat) (f : ArraySt → ArraySt) (g : Fld) (j : Nat) : (d.modArr r c a f).get g j = d.get g j := rfl
@[simp] theorem is_modArr (d : Dev) (r c a : Nat) (f : ArraySt → ArraySt) (g : Fld) (j : Nat) : (d.modArr r c a f).is g j = d.is g j := rfl
@[simp] theorem now_modArr (d : Dev) (r c a : Nat) (f : ArraySt → ArraySt) : (d.modArr r c a f).now = d.now := rfl
@[simp] theorem coreUp_modArr (d : Dev) (r c a : Nat) (f : ArraySt → ArraySt) (die : Nat) : (d.modArr r c a f).coreUp die = d.coreUp die := rfl
@[simp] theorem link_modArr (d : Dev) (r c a : Nat) (f : ArraySt → ArraySt) (q : Nat) : (d.modArr r c a f).link q = d.link q := rfl

/-! ### modSet -/

@[simp] theorem regs_modSet (d : Dev) (r c a n : Nat) (f : AccSet → AccSet) : (d.modSet r c a n f).regs = d.regs := rfl
@[simp] theorem mem_modSet (d : Dev) (r c a n : Nat) (f : AccSet → AccSet) : (d.modSet r c a n f).mem = d.mem := rfl
@[simp] theorem free_modSet (d : Dev) (r c a n : Nat) (f : AccSet → AccSet) : (d.modSet r c a n f).free = d.free := rfl
@[simp] theorem fuses_modSet (d : Dev) (r c a n : Nat) (f : AccSet → AccSet) : (d.modSet r c a n f).fuses = d.fuses := rfl
@[simp] theorem fatal_modSet (d : Dev) (r c a n : Nat) (f : AccSet → AccSet) : (d.modSet r c a n f).fatal = d.fatal := rfl
@[simp] theorem cal_modSet (d : Dev) (r c a n : Nat) (f : AccSet → AccSet) : (d.modSet r c a n f).cal = d.cal := rfl
@[simp] theorem px_modSet (d : Dev) (r c a n : Nat) (f : AccSet → AccSet) : (d.modSet r c a n f).px = d.px := rfl
@[simp] theorem evt_modSet (d : Dev) (r c a n : Nat) (f : AccSet → AccSet) : (d.modSet r c a n f).evt = d.evt := rfl
@[simp] theorem life_modSet (d : Dev) (r c a n : Nat) (f : AccSet → AccSet) : (d.modSet r c a n f).life = d.life := rfl
@[simp] theorem host_modSet (d : Dev) (r c a n : Nat) (f : AccSet → AccSet) : (d.modSet r c a n f).host = d.host := rfl
@[simp] theorem tide_modSet (d : Dev) (r c a n : Nat) (f : AccSet → AccSet) : (d.modSet r c a n f).tide = d.tide := rfl
@[simp] theorem plan_modSet (d : Dev) (r c a n : Nat) (f : AccSet → AccSet) : (d.modSet r c a n f).plan = d.plan := rfl
@[simp] theorem links_modSet (d : Dev) (r c a n : Nat) (f : AccSet → AccSet) : (d.modSet r c a n f).links = d.links := rfl
@[simp] theorem ist_modSet (d : Dev) (r c a n : Nat) (f : AccSet → AccSet) : (d.modSet r c a n f).ist = d.ist := rfl
@[simp] theorem fabric_modSet (d : Dev) (r c a n : Nat) (f : AccSet → AccSet) : (d.modSet r c a n f).fabric = d.fabric := rfl
@[simp] theorem ferry_modSet (d : Dev) (r c a n : Nat) (f : AccSet → AccSet) : (d.modSet r c a n f).ferry = d.ferry := rfl
@[simp] theorem time_modSet (d : Dev) (r c a n : Nat) (f : AccSet → AccSet) : (d.modSet r c a n f).time = d.time := rfl
@[simp] theorem sec_modSet (d : Dev) (r c a n : Nat) (f : AccSet → AccSet) : (d.modSet r c a n f).sec = d.sec := rfl
@[simp] theorem launch_modSet (d : Dev) (r c a n : Nat) (f : AccSet → AccSet) : (d.modSet r c a n f).launch = d.launch := rfl
@[simp] theorem svc_modSet (d : Dev) (r c a n : Nat) (f : AccSet → AccSet) : (d.modSet r c a n f).svc = d.svc := rfl
@[simp] theorem quay_modSet (d : Dev) (r c a n : Nat) (f : AccSet → AccSet) : (d.modSet r c a n f).quay = d.quay := rfl
@[simp] theorem clk_modSet (d : Dev) (r c a n : Nat) (f : AccSet → AccSet) : (d.modSet r c a n f).clk = d.clk := rfl
@[simp] theorem pwr_modSet (d : Dev) (r c a n : Nat) (f : AccSet → AccSet) : (d.modSet r c a n f).pwr = d.pwr := rfl
@[simp] theorem side_modSet (d : Dev) (r c a n : Nat) (f : AccSet → AccSet) : (d.modSet r c a n f).side = d.side := rfl
@[simp] theorem mirrorAt_modSet (d : Dev) (r c a n : Nat) (f : AccSet → AccSet) : (d.modSet r c a n f).mirrorAt = d.mirrorAt := rfl
@[simp] theorem hbmErr_modSet (d : Dev) (r c a n : Nat) (f : AccSet → AccSet) : (d.modSet r c a n f).hbmErr = d.hbmErr := rfl
@[simp] theorem get_modSet (d : Dev) (r c a n : Nat) (f : AccSet → AccSet) (g : Fld) (j : Nat) : (d.modSet r c a n f).get g j = d.get g j := rfl
@[simp] theorem is_modSet (d : Dev) (r c a n : Nat) (f : AccSet → AccSet) (g : Fld) (j : Nat) : (d.modSet r c a n f).is g j = d.is g j := rfl
@[simp] theorem now_modSet (d : Dev) (r c a n : Nat) (f : AccSet → AccSet) : (d.modSet r c a n f).now = d.now := rfl
@[simp] theorem coreUp_modSet (d : Dev) (r c a n : Nat) (f : AccSet → AccSet) (die : Nat) : (d.modSet r c a n f).coreUp die = d.coreUp die := rfl
@[simp] theorem link_modSet (d : Dev) (r c a n : Nat) (f : AccSet → AccSet) (q : Nat) : (d.modSet r c a n f).link q = d.link q := rfl

/-! ### modChan -/

@[simp] theorem regs_modChan (d : Dev) (r c : Nat) (f : Chan → Chan) : (d.modChan r c f).regs = d.regs := rfl
@[simp] theorem mem_modChan (d : Dev) (r c : Nat) (f : Chan → Chan) : (d.modChan r c f).mem = d.mem := rfl
@[simp] theorem free_modChan (d : Dev) (r c : Nat) (f : Chan → Chan) : (d.modChan r c f).free = d.free := rfl
@[simp] theorem fuses_modChan (d : Dev) (r c : Nat) (f : Chan → Chan) : (d.modChan r c f).fuses = d.fuses := rfl
@[simp] theorem fatal_modChan (d : Dev) (r c : Nat) (f : Chan → Chan) : (d.modChan r c f).fatal = d.fatal := rfl
@[simp] theorem cal_modChan (d : Dev) (r c : Nat) (f : Chan → Chan) : (d.modChan r c f).cal = d.cal := rfl
@[simp] theorem px_modChan (d : Dev) (r c : Nat) (f : Chan → Chan) : (d.modChan r c f).px = d.px := rfl
@[simp] theorem evt_modChan (d : Dev) (r c : Nat) (f : Chan → Chan) : (d.modChan r c f).evt = d.evt := rfl
@[simp] theorem life_modChan (d : Dev) (r c : Nat) (f : Chan → Chan) : (d.modChan r c f).life = d.life := rfl
@[simp] theorem host_modChan (d : Dev) (r c : Nat) (f : Chan → Chan) : (d.modChan r c f).host = d.host := rfl
@[simp] theorem tide_modChan (d : Dev) (r c : Nat) (f : Chan → Chan) : (d.modChan r c f).tide = d.tide := rfl
@[simp] theorem plan_modChan (d : Dev) (r c : Nat) (f : Chan → Chan) : (d.modChan r c f).plan = d.plan := rfl
@[simp] theorem links_modChan (d : Dev) (r c : Nat) (f : Chan → Chan) : (d.modChan r c f).links = d.links := rfl
@[simp] theorem ist_modChan (d : Dev) (r c : Nat) (f : Chan → Chan) : (d.modChan r c f).ist = d.ist := rfl
@[simp] theorem fabric_modChan (d : Dev) (r c : Nat) (f : Chan → Chan) : (d.modChan r c f).fabric = d.fabric := rfl
@[simp] theorem ferry_modChan (d : Dev) (r c : Nat) (f : Chan → Chan) : (d.modChan r c f).ferry = d.ferry := rfl
@[simp] theorem time_modChan (d : Dev) (r c : Nat) (f : Chan → Chan) : (d.modChan r c f).time = d.time := rfl
@[simp] theorem sec_modChan (d : Dev) (r c : Nat) (f : Chan → Chan) : (d.modChan r c f).sec = d.sec := rfl
@[simp] theorem launch_modChan (d : Dev) (r c : Nat) (f : Chan → Chan) : (d.modChan r c f).launch = d.launch := rfl
@[simp] theorem svc_modChan (d : Dev) (r c : Nat) (f : Chan → Chan) : (d.modChan r c f).svc = d.svc := rfl
@[simp] theorem quay_modChan (d : Dev) (r c : Nat) (f : Chan → Chan) : (d.modChan r c f).quay = d.quay := rfl
@[simp] theorem clk_modChan (d : Dev) (r c : Nat) (f : Chan → Chan) : (d.modChan r c f).clk = d.clk := rfl
@[simp] theorem pwr_modChan (d : Dev) (r c : Nat) (f : Chan → Chan) : (d.modChan r c f).pwr = d.pwr := rfl
@[simp] theorem side_modChan (d : Dev) (r c : Nat) (f : Chan → Chan) : (d.modChan r c f).side = d.side := rfl
@[simp] theorem mirrorAt_modChan (d : Dev) (r c : Nat) (f : Chan → Chan) : (d.modChan r c f).mirrorAt = d.mirrorAt := rfl
@[simp] theorem hbmErr_modChan (d : Dev) (r c : Nat) (f : Chan → Chan) : (d.modChan r c f).hbmErr = d.hbmErr := rfl
@[simp] theorem get_modChan (d : Dev) (r c : Nat) (f : Chan → Chan) (g : Fld) (j : Nat) : (d.modChan r c f).get g j = d.get g j := rfl
@[simp] theorem is_modChan (d : Dev) (r c : Nat) (f : Chan → Chan) (g : Fld) (j : Nat) : (d.modChan r c f).is g j = d.is g j := rfl
@[simp] theorem now_modChan (d : Dev) (r c : Nat) (f : Chan → Chan) : (d.modChan r c f).now = d.now := rfl
@[simp] theorem coreUp_modChan (d : Dev) (r c : Nat) (f : Chan → Chan) (die : Nat) : (d.modChan r c f).coreUp die = d.coreUp die := rfl
@[simp] theorem link_modChan (d : Dev) (r c : Nat) (f : Chan → Chan) (q : Nat) : (d.modChan r c f).link q = d.link q := rfl

/-! ### modLink -/

@[simp] theorem regs_modLink (d : Dev) (l : Nat) (f : LinkSt → LinkSt) : (d.modLink l f).regs = d.regs := rfl
@[simp] theorem mem_modLink (d : Dev) (l : Nat) (f : LinkSt → LinkSt) : (d.modLink l f).mem = d.mem := rfl
@[simp] theorem free_modLink (d : Dev) (l : Nat) (f : LinkSt → LinkSt) : (d.modLink l f).free = d.free := rfl
@[simp] theorem fuses_modLink (d : Dev) (l : Nat) (f : LinkSt → LinkSt) : (d.modLink l f).fuses = d.fuses := rfl
@[simp] theorem fatal_modLink (d : Dev) (l : Nat) (f : LinkSt → LinkSt) : (d.modLink l f).fatal = d.fatal := rfl
@[simp] theorem cal_modLink (d : Dev) (l : Nat) (f : LinkSt → LinkSt) : (d.modLink l f).cal = d.cal := rfl
@[simp] theorem px_modLink (d : Dev) (l : Nat) (f : LinkSt → LinkSt) : (d.modLink l f).px = d.px := rfl
@[simp] theorem evt_modLink (d : Dev) (l : Nat) (f : LinkSt → LinkSt) : (d.modLink l f).evt = d.evt := rfl
@[simp] theorem life_modLink (d : Dev) (l : Nat) (f : LinkSt → LinkSt) : (d.modLink l f).life = d.life := rfl
@[simp] theorem host_modLink (d : Dev) (l : Nat) (f : LinkSt → LinkSt) : (d.modLink l f).host = d.host := rfl
@[simp] theorem regions_modLink (d : Dev) (l : Nat) (f : LinkSt → LinkSt) : (d.modLink l f).regions = d.regions := rfl
@[simp] theorem tide_modLink (d : Dev) (l : Nat) (f : LinkSt → LinkSt) : (d.modLink l f).tide = d.tide := rfl
@[simp] theorem plan_modLink (d : Dev) (l : Nat) (f : LinkSt → LinkSt) : (d.modLink l f).plan = d.plan := rfl
@[simp] theorem ist_modLink (d : Dev) (l : Nat) (f : LinkSt → LinkSt) : (d.modLink l f).ist = d.ist := rfl
@[simp] theorem fabric_modLink (d : Dev) (l : Nat) (f : LinkSt → LinkSt) : (d.modLink l f).fabric = d.fabric := rfl
@[simp] theorem ferry_modLink (d : Dev) (l : Nat) (f : LinkSt → LinkSt) : (d.modLink l f).ferry = d.ferry := rfl
@[simp] theorem time_modLink (d : Dev) (l : Nat) (f : LinkSt → LinkSt) : (d.modLink l f).time = d.time := rfl
@[simp] theorem sec_modLink (d : Dev) (l : Nat) (f : LinkSt → LinkSt) : (d.modLink l f).sec = d.sec := rfl
@[simp] theorem launch_modLink (d : Dev) (l : Nat) (f : LinkSt → LinkSt) : (d.modLink l f).launch = d.launch := rfl
@[simp] theorem svc_modLink (d : Dev) (l : Nat) (f : LinkSt → LinkSt) : (d.modLink l f).svc = d.svc := rfl
@[simp] theorem quay_modLink (d : Dev) (l : Nat) (f : LinkSt → LinkSt) : (d.modLink l f).quay = d.quay := rfl
@[simp] theorem clk_modLink (d : Dev) (l : Nat) (f : LinkSt → LinkSt) : (d.modLink l f).clk = d.clk := rfl
@[simp] theorem pwr_modLink (d : Dev) (l : Nat) (f : LinkSt → LinkSt) : (d.modLink l f).pwr = d.pwr := rfl
@[simp] theorem side_modLink (d : Dev) (l : Nat) (f : LinkSt → LinkSt) : (d.modLink l f).side = d.side := rfl
@[simp] theorem mirrorAt_modLink (d : Dev) (l : Nat) (f : LinkSt → LinkSt) : (d.modLink l f).mirrorAt = d.mirrorAt := rfl
@[simp] theorem hbmErr_modLink (d : Dev) (l : Nat) (f : LinkSt → LinkSt) : (d.modLink l f).hbmErr = d.hbmErr := rfl
@[simp] theorem get_modLink (d : Dev) (l : Nat) (f : LinkSt → LinkSt) (g : Fld) (j : Nat) : (d.modLink l f).get g j = d.get g j := rfl
@[simp] theorem is_modLink (d : Dev) (l : Nat) (f : LinkSt → LinkSt) (g : Fld) (j : Nat) : (d.modLink l f).is g j = d.is g j := rfl
@[simp] theorem now_modLink (d : Dev) (l : Nat) (f : LinkSt → LinkSt) : (d.modLink l f).now = d.now := rfl
@[simp] theorem coreUp_modLink (d : Dev) (l : Nat) (f : LinkSt → LinkSt) (die : Nat) : (d.modLink l f).coreUp die = d.coreUp die := rfl
@[simp] theorem reg_modLink (d : Dev) (l : Nat) (f : LinkSt → LinkSt) (q : Nat) : (d.modLink l f).reg q = d.reg q := rfl
@[simp] theorem cell_modLink (d : Dev) (l : Nat) (f : LinkSt → LinkSt) (q k : Nat) : (d.modLink l f).cell q k = d.cell q k := rfl

/-! ### hallWrite -/

@[simp] theorem regs_hallWrite (d : Dev) (a : Nat) (bs : List Byte) : (d.hallWrite a bs).regs = d.regs := rfl
@[simp] theorem free_hallWrite (d : Dev) (a : Nat) (bs : List Byte) : (d.hallWrite a bs).free = d.free := rfl
@[simp] theorem fuses_hallWrite (d : Dev) (a : Nat) (bs : List Byte) : (d.hallWrite a bs).fuses = d.fuses := rfl
@[simp] theorem fatal_hallWrite (d : Dev) (a : Nat) (bs : List Byte) : (d.hallWrite a bs).fatal = d.fatal := rfl
@[simp] theorem cal_hallWrite (d : Dev) (a : Nat) (bs : List Byte) : (d.hallWrite a bs).cal = d.cal := rfl
@[simp] theorem px_hallWrite (d : Dev) (a : Nat) (bs : List Byte) : (d.hallWrite a bs).px = d.px := rfl
@[simp] theorem evt_hallWrite (d : Dev) (a : Nat) (bs : List Byte) : (d.hallWrite a bs).evt = d.evt := rfl
@[simp] theorem life_hallWrite (d : Dev) (a : Nat) (bs : List Byte) : (d.hallWrite a bs).life = d.life := rfl
@[simp] theorem host_hallWrite (d : Dev) (a : Nat) (bs : List Byte) : (d.hallWrite a bs).host = d.host := rfl
@[simp] theorem regions_hallWrite (d : Dev) (a : Nat) (bs : List Byte) : (d.hallWrite a bs).regions = d.regions := rfl
@[simp] theorem tide_hallWrite (d : Dev) (a : Nat) (bs : List Byte) : (d.hallWrite a bs).tide = d.tide := rfl
@[simp] theorem plan_hallWrite (d : Dev) (a : Nat) (bs : List Byte) : (d.hallWrite a bs).plan = d.plan := rfl
@[simp] theorem links_hallWrite (d : Dev) (a : Nat) (bs : List Byte) : (d.hallWrite a bs).links = d.links := rfl
@[simp] theorem ist_hallWrite (d : Dev) (a : Nat) (bs : List Byte) : (d.hallWrite a bs).ist = d.ist := rfl
@[simp] theorem fabric_hallWrite (d : Dev) (a : Nat) (bs : List Byte) : (d.hallWrite a bs).fabric = d.fabric := rfl
@[simp] theorem ferry_hallWrite (d : Dev) (a : Nat) (bs : List Byte) : (d.hallWrite a bs).ferry = d.ferry := rfl
@[simp] theorem time_hallWrite (d : Dev) (a : Nat) (bs : List Byte) : (d.hallWrite a bs).time = d.time := rfl
@[simp] theorem sec_hallWrite (d : Dev) (a : Nat) (bs : List Byte) : (d.hallWrite a bs).sec = d.sec := rfl
@[simp] theorem launch_hallWrite (d : Dev) (a : Nat) (bs : List Byte) : (d.hallWrite a bs).launch = d.launch := rfl
@[simp] theorem svc_hallWrite (d : Dev) (a : Nat) (bs : List Byte) : (d.hallWrite a bs).svc = d.svc := rfl
@[simp] theorem quay_hallWrite (d : Dev) (a : Nat) (bs : List Byte) : (d.hallWrite a bs).quay = d.quay := rfl
@[simp] theorem clk_hallWrite (d : Dev) (a : Nat) (bs : List Byte) : (d.hallWrite a bs).clk = d.clk := rfl
@[simp] theorem pwr_hallWrite (d : Dev) (a : Nat) (bs : List Byte) : (d.hallWrite a bs).pwr = d.pwr := rfl
@[simp] theorem side_hallWrite (d : Dev) (a : Nat) (bs : List Byte) : (d.hallWrite a bs).side = d.side := rfl
@[simp] theorem mirrorAt_hallWrite (d : Dev) (a : Nat) (bs : List Byte) : (d.hallWrite a bs).mirrorAt = d.mirrorAt := rfl
@[simp] theorem hbmErr_hallWrite (d : Dev) (a : Nat) (bs : List Byte) : (d.hallWrite a bs).hbmErr = d.hbmErr := rfl
@[simp] theorem get_hallWrite (d : Dev) (a : Nat) (bs : List Byte) (g : Fld) (j : Nat) : (d.hallWrite a bs).get g j = d.get g j := rfl
@[simp] theorem is_hallWrite (d : Dev) (a : Nat) (bs : List Byte) (g : Fld) (j : Nat) : (d.hallWrite a bs).is g j = d.is g j := rfl
@[simp] theorem now_hallWrite (d : Dev) (a : Nat) (bs : List Byte) : (d.hallWrite a bs).now = d.now := rfl
@[simp] theorem coreUp_hallWrite (d : Dev) (a : Nat) (bs : List Byte) (die : Nat) : (d.hallWrite a bs).coreUp die = d.coreUp die := rfl
@[simp] theorem reg_hallWrite (d : Dev) (a : Nat) (bs : List Byte) (q : Nat) : (d.hallWrite a bs).reg q = d.reg q := rfl
@[simp] theorem cell_hallWrite (d : Dev) (a : Nat) (bs : List Byte) (q k : Nat) : (d.hallWrite a bs).cell q k = d.cell q k := rfl
@[simp] theorem link_hallWrite (d : Dev) (a : Nat) (bs : List Byte) (q : Nat) : (d.hallWrite a bs).link q = d.link q := rfl

/-! ### spWrite -/

@[simp] theorem regs_spWrite (d : Dev) (r c o : Nat) (v : BitVec 64) : (d.spWrite r c o v).regs = d.regs := rfl
@[simp] theorem free_spWrite (d : Dev) (r c o : Nat) (v : BitVec 64) : (d.spWrite r c o v).free = d.free := rfl
@[simp] theorem fuses_spWrite (d : Dev) (r c o : Nat) (v : BitVec 64) : (d.spWrite r c o v).fuses = d.fuses := rfl
@[simp] theorem fatal_spWrite (d : Dev) (r c o : Nat) (v : BitVec 64) : (d.spWrite r c o v).fatal = d.fatal := rfl
@[simp] theorem cal_spWrite (d : Dev) (r c o : Nat) (v : BitVec 64) : (d.spWrite r c o v).cal = d.cal := rfl
@[simp] theorem px_spWrite (d : Dev) (r c o : Nat) (v : BitVec 64) : (d.spWrite r c o v).px = d.px := rfl
@[simp] theorem evt_spWrite (d : Dev) (r c o : Nat) (v : BitVec 64) : (d.spWrite r c o v).evt = d.evt := rfl
@[simp] theorem life_spWrite (d : Dev) (r c o : Nat) (v : BitVec 64) : (d.spWrite r c o v).life = d.life := rfl
@[simp] theorem host_spWrite (d : Dev) (r c o : Nat) (v : BitVec 64) : (d.spWrite r c o v).host = d.host := rfl
@[simp] theorem regions_spWrite (d : Dev) (r c o : Nat) (v : BitVec 64) : (d.spWrite r c o v).regions = d.regions := rfl
@[simp] theorem tide_spWrite (d : Dev) (r c o : Nat) (v : BitVec 64) : (d.spWrite r c o v).tide = d.tide := rfl
@[simp] theorem plan_spWrite (d : Dev) (r c o : Nat) (v : BitVec 64) : (d.spWrite r c o v).plan = d.plan := rfl
@[simp] theorem links_spWrite (d : Dev) (r c o : Nat) (v : BitVec 64) : (d.spWrite r c o v).links = d.links := rfl
@[simp] theorem ist_spWrite (d : Dev) (r c o : Nat) (v : BitVec 64) : (d.spWrite r c o v).ist = d.ist := rfl
@[simp] theorem fabric_spWrite (d : Dev) (r c o : Nat) (v : BitVec 64) : (d.spWrite r c o v).fabric = d.fabric := rfl
@[simp] theorem ferry_spWrite (d : Dev) (r c o : Nat) (v : BitVec 64) : (d.spWrite r c o v).ferry = d.ferry := rfl
@[simp] theorem time_spWrite (d : Dev) (r c o : Nat) (v : BitVec 64) : (d.spWrite r c o v).time = d.time := rfl
@[simp] theorem sec_spWrite (d : Dev) (r c o : Nat) (v : BitVec 64) : (d.spWrite r c o v).sec = d.sec := rfl
@[simp] theorem launch_spWrite (d : Dev) (r c o : Nat) (v : BitVec 64) : (d.spWrite r c o v).launch = d.launch := rfl
@[simp] theorem svc_spWrite (d : Dev) (r c o : Nat) (v : BitVec 64) : (d.spWrite r c o v).svc = d.svc := rfl
@[simp] theorem quay_spWrite (d : Dev) (r c o : Nat) (v : BitVec 64) : (d.spWrite r c o v).quay = d.quay := rfl
@[simp] theorem clk_spWrite (d : Dev) (r c o : Nat) (v : BitVec 64) : (d.spWrite r c o v).clk = d.clk := rfl
@[simp] theorem pwr_spWrite (d : Dev) (r c o : Nat) (v : BitVec 64) : (d.spWrite r c o v).pwr = d.pwr := rfl
@[simp] theorem side_spWrite (d : Dev) (r c o : Nat) (v : BitVec 64) : (d.spWrite r c o v).side = d.side := rfl
@[simp] theorem mirrorAt_spWrite (d : Dev) (r c o : Nat) (v : BitVec 64) : (d.spWrite r c o v).mirrorAt = d.mirrorAt := rfl
@[simp] theorem hbmErr_spWrite (d : Dev) (r c o : Nat) (v : BitVec 64) : (d.spWrite r c o v).hbmErr = d.hbmErr := rfl
@[simp] theorem get_spWrite (d : Dev) (r c o : Nat) (v : BitVec 64) (g : Fld) (j : Nat) : (d.spWrite r c o v).get g j = d.get g j := rfl
@[simp] theorem is_spWrite (d : Dev) (r c o : Nat) (v : BitVec 64) (g : Fld) (j : Nat) : (d.spWrite r c o v).is g j = d.is g j := rfl
@[simp] theorem now_spWrite (d : Dev) (r c o : Nat) (v : BitVec 64) : (d.spWrite r c o v).now = d.now := rfl
@[simp] theorem coreUp_spWrite (d : Dev) (r c o : Nat) (v : BitVec 64) (die : Nat) : (d.spWrite r c o v).coreUp die = d.coreUp die := rfl
@[simp] theorem reg_spWrite (d : Dev) (r c o : Nat) (v : BitVec 64) (q : Nat) : (d.spWrite r c o v).reg q = d.reg q := rfl
@[simp] theorem cell_spWrite (d : Dev) (r c o : Nat) (v : BitVec 64) (q k : Nat) : (d.spWrite r c o v).cell q k = d.cell q k := rfl
@[simp] theorem link_spWrite (d : Dev) (r c o : Nat) (v : BitVec 64) (q : Nat) : (d.spWrite r c o v).link q = d.link q := rfl

/-! ### modLife -/

@[simp] theorem regs_modLife (d : Dev) (f : LifeSt → LifeSt) : (d.modLife f).regs = d.regs := rfl
@[simp] theorem mem_modLife (d : Dev) (f : LifeSt → LifeSt) : (d.modLife f).mem = d.mem := rfl
@[simp] theorem free_modLife (d : Dev) (f : LifeSt → LifeSt) : (d.modLife f).free = d.free := rfl
@[simp] theorem fuses_modLife (d : Dev) (f : LifeSt → LifeSt) : (d.modLife f).fuses = d.fuses := rfl
@[simp] theorem fatal_modLife (d : Dev) (f : LifeSt → LifeSt) : (d.modLife f).fatal = d.fatal := rfl
@[simp] theorem cal_modLife (d : Dev) (f : LifeSt → LifeSt) : (d.modLife f).cal = d.cal := rfl
@[simp] theorem px_modLife (d : Dev) (f : LifeSt → LifeSt) : (d.modLife f).px = d.px := rfl
@[simp] theorem evt_modLife (d : Dev) (f : LifeSt → LifeSt) : (d.modLife f).evt = d.evt := rfl
@[simp] theorem host_modLife (d : Dev) (f : LifeSt → LifeSt) : (d.modLife f).host = d.host := rfl
@[simp] theorem regions_modLife (d : Dev) (f : LifeSt → LifeSt) : (d.modLife f).regions = d.regions := rfl
@[simp] theorem tide_modLife (d : Dev) (f : LifeSt → LifeSt) : (d.modLife f).tide = d.tide := rfl
@[simp] theorem plan_modLife (d : Dev) (f : LifeSt → LifeSt) : (d.modLife f).plan = d.plan := rfl
@[simp] theorem links_modLife (d : Dev) (f : LifeSt → LifeSt) : (d.modLife f).links = d.links := rfl
@[simp] theorem ist_modLife (d : Dev) (f : LifeSt → LifeSt) : (d.modLife f).ist = d.ist := rfl
@[simp] theorem fabric_modLife (d : Dev) (f : LifeSt → LifeSt) : (d.modLife f).fabric = d.fabric := rfl
@[simp] theorem ferry_modLife (d : Dev) (f : LifeSt → LifeSt) : (d.modLife f).ferry = d.ferry := rfl
@[simp] theorem time_modLife (d : Dev) (f : LifeSt → LifeSt) : (d.modLife f).time = d.time := rfl
@[simp] theorem sec_modLife (d : Dev) (f : LifeSt → LifeSt) : (d.modLife f).sec = d.sec := rfl
@[simp] theorem launch_modLife (d : Dev) (f : LifeSt → LifeSt) : (d.modLife f).launch = d.launch := rfl
@[simp] theorem svc_modLife (d : Dev) (f : LifeSt → LifeSt) : (d.modLife f).svc = d.svc := rfl
@[simp] theorem quay_modLife (d : Dev) (f : LifeSt → LifeSt) : (d.modLife f).quay = d.quay := rfl
@[simp] theorem clk_modLife (d : Dev) (f : LifeSt → LifeSt) : (d.modLife f).clk = d.clk := rfl
@[simp] theorem pwr_modLife (d : Dev) (f : LifeSt → LifeSt) : (d.modLife f).pwr = d.pwr := rfl
@[simp] theorem side_modLife (d : Dev) (f : LifeSt → LifeSt) : (d.modLife f).side = d.side := rfl
@[simp] theorem mirrorAt_modLife (d : Dev) (f : LifeSt → LifeSt) : (d.modLife f).mirrorAt = d.mirrorAt := rfl
@[simp] theorem hbmErr_modLife (d : Dev) (f : LifeSt → LifeSt) : (d.modLife f).hbmErr = d.hbmErr := rfl
@[simp] theorem get_modLife (d : Dev) (f : LifeSt → LifeSt) (g : Fld) (j : Nat) : (d.modLife f).get g j = d.get g j := rfl
@[simp] theorem is_modLife (d : Dev) (f : LifeSt → LifeSt) (g : Fld) (j : Nat) : (d.modLife f).is g j = d.is g j := rfl
@[simp] theorem now_modLife (d : Dev) (f : LifeSt → LifeSt) : (d.modLife f).now = d.now := rfl
@[simp] theorem coreUp_modLife (d : Dev) (f : LifeSt → LifeSt) (die : Nat) : (d.modLife f).coreUp die = d.coreUp die := rfl
@[simp] theorem reg_modLife (d : Dev) (f : LifeSt → LifeSt) (q : Nat) : (d.modLife f).reg q = d.reg q := rfl
@[simp] theorem cell_modLife (d : Dev) (f : LifeSt → LifeSt) (q k : Nat) : (d.modLife f).cell q k = d.cell q k := rfl
@[simp] theorem link_modLife (d : Dev) (f : LifeSt → LifeSt) (q : Nat) : (d.modLife f).link q = d.link q := rfl

/-! ### modSide -/

@[simp] theorem regs_modSide (d : Dev) (f : SideSt → SideSt) : (d.modSide f).regs = d.regs := rfl
@[simp] theorem mem_modSide (d : Dev) (f : SideSt → SideSt) : (d.modSide f).mem = d.mem := rfl
@[simp] theorem free_modSide (d : Dev) (f : SideSt → SideSt) : (d.modSide f).free = d.free := rfl
@[simp] theorem fuses_modSide (d : Dev) (f : SideSt → SideSt) : (d.modSide f).fuses = d.fuses := rfl
@[simp] theorem fatal_modSide (d : Dev) (f : SideSt → SideSt) : (d.modSide f).fatal = d.fatal := rfl
@[simp] theorem cal_modSide (d : Dev) (f : SideSt → SideSt) : (d.modSide f).cal = d.cal := rfl
@[simp] theorem px_modSide (d : Dev) (f : SideSt → SideSt) : (d.modSide f).px = d.px := rfl
@[simp] theorem evt_modSide (d : Dev) (f : SideSt → SideSt) : (d.modSide f).evt = d.evt := rfl
@[simp] theorem life_modSide (d : Dev) (f : SideSt → SideSt) : (d.modSide f).life = d.life := rfl
@[simp] theorem host_modSide (d : Dev) (f : SideSt → SideSt) : (d.modSide f).host = d.host := rfl
@[simp] theorem regions_modSide (d : Dev) (f : SideSt → SideSt) : (d.modSide f).regions = d.regions := rfl
@[simp] theorem tide_modSide (d : Dev) (f : SideSt → SideSt) : (d.modSide f).tide = d.tide := rfl
@[simp] theorem plan_modSide (d : Dev) (f : SideSt → SideSt) : (d.modSide f).plan = d.plan := rfl
@[simp] theorem links_modSide (d : Dev) (f : SideSt → SideSt) : (d.modSide f).links = d.links := rfl
@[simp] theorem ist_modSide (d : Dev) (f : SideSt → SideSt) : (d.modSide f).ist = d.ist := rfl
@[simp] theorem fabric_modSide (d : Dev) (f : SideSt → SideSt) : (d.modSide f).fabric = d.fabric := rfl
@[simp] theorem ferry_modSide (d : Dev) (f : SideSt → SideSt) : (d.modSide f).ferry = d.ferry := rfl
@[simp] theorem time_modSide (d : Dev) (f : SideSt → SideSt) : (d.modSide f).time = d.time := rfl
@[simp] theorem sec_modSide (d : Dev) (f : SideSt → SideSt) : (d.modSide f).sec = d.sec := rfl
@[simp] theorem launch_modSide (d : Dev) (f : SideSt → SideSt) : (d.modSide f).launch = d.launch := rfl
@[simp] theorem svc_modSide (d : Dev) (f : SideSt → SideSt) : (d.modSide f).svc = d.svc := rfl
@[simp] theorem quay_modSide (d : Dev) (f : SideSt → SideSt) : (d.modSide f).quay = d.quay := rfl
@[simp] theorem clk_modSide (d : Dev) (f : SideSt → SideSt) : (d.modSide f).clk = d.clk := rfl
@[simp] theorem pwr_modSide (d : Dev) (f : SideSt → SideSt) : (d.modSide f).pwr = d.pwr := rfl
@[simp] theorem mirrorAt_modSide (d : Dev) (f : SideSt → SideSt) : (d.modSide f).mirrorAt = d.mirrorAt := rfl
@[simp] theorem hbmErr_modSide (d : Dev) (f : SideSt → SideSt) : (d.modSide f).hbmErr = d.hbmErr := rfl
@[simp] theorem get_modSide (d : Dev) (f : SideSt → SideSt) (g : Fld) (j : Nat) : (d.modSide f).get g j = d.get g j := rfl
@[simp] theorem is_modSide (d : Dev) (f : SideSt → SideSt) (g : Fld) (j : Nat) : (d.modSide f).is g j = d.is g j := rfl
@[simp] theorem now_modSide (d : Dev) (f : SideSt → SideSt) : (d.modSide f).now = d.now := rfl
@[simp] theorem coreUp_modSide (d : Dev) (f : SideSt → SideSt) (die : Nat) : (d.modSide f).coreUp die = d.coreUp die := rfl
@[simp] theorem reg_modSide (d : Dev) (f : SideSt → SideSt) (q : Nat) : (d.modSide f).reg q = d.reg q := rfl
@[simp] theorem cell_modSide (d : Dev) (f : SideSt → SideSt) (q k : Nat) : (d.modSide f).cell q k = d.cell q k := rfl
@[simp] theorem link_modSide (d : Dev) (f : SideSt → SideSt) (q : Nat) : (d.modSide f).link q = d.link q := rfl

/-! ### modClk -/

@[simp] theorem regs_modClk (d : Dev) (f : ClkSt → ClkSt) : (d.modClk f).regs = d.regs := rfl
@[simp] theorem mem_modClk (d : Dev) (f : ClkSt → ClkSt) : (d.modClk f).mem = d.mem := rfl
@[simp] theorem free_modClk (d : Dev) (f : ClkSt → ClkSt) : (d.modClk f).free = d.free := rfl
@[simp] theorem fuses_modClk (d : Dev) (f : ClkSt → ClkSt) : (d.modClk f).fuses = d.fuses := rfl
@[simp] theorem fatal_modClk (d : Dev) (f : ClkSt → ClkSt) : (d.modClk f).fatal = d.fatal := rfl
@[simp] theorem cal_modClk (d : Dev) (f : ClkSt → ClkSt) : (d.modClk f).cal = d.cal := rfl
@[simp] theorem px_modClk (d : Dev) (f : ClkSt → ClkSt) : (d.modClk f).px = d.px := rfl
@[simp] theorem evt_modClk (d : Dev) (f : ClkSt → ClkSt) : (d.modClk f).evt = d.evt := rfl
@[simp] theorem life_modClk (d : Dev) (f : ClkSt → ClkSt) : (d.modClk f).life = d.life := rfl
@[simp] theorem host_modClk (d : Dev) (f : ClkSt → ClkSt) : (d.modClk f).host = d.host := rfl
@[simp] theorem regions_modClk (d : Dev) (f : ClkSt → ClkSt) : (d.modClk f).regions = d.regions := rfl
@[simp] theorem tide_modClk (d : Dev) (f : ClkSt → ClkSt) : (d.modClk f).tide = d.tide := rfl
@[simp] theorem plan_modClk (d : Dev) (f : ClkSt → ClkSt) : (d.modClk f).plan = d.plan := rfl
@[simp] theorem links_modClk (d : Dev) (f : ClkSt → ClkSt) : (d.modClk f).links = d.links := rfl
@[simp] theorem ist_modClk (d : Dev) (f : ClkSt → ClkSt) : (d.modClk f).ist = d.ist := rfl
@[simp] theorem fabric_modClk (d : Dev) (f : ClkSt → ClkSt) : (d.modClk f).fabric = d.fabric := rfl
@[simp] theorem ferry_modClk (d : Dev) (f : ClkSt → ClkSt) : (d.modClk f).ferry = d.ferry := rfl
@[simp] theorem time_modClk (d : Dev) (f : ClkSt → ClkSt) : (d.modClk f).time = d.time := rfl
@[simp] theorem sec_modClk (d : Dev) (f : ClkSt → ClkSt) : (d.modClk f).sec = d.sec := rfl
@[simp] theorem launch_modClk (d : Dev) (f : ClkSt → ClkSt) : (d.modClk f).launch = d.launch := rfl
@[simp] theorem svc_modClk (d : Dev) (f : ClkSt → ClkSt) : (d.modClk f).svc = d.svc := rfl
@[simp] theorem quay_modClk (d : Dev) (f : ClkSt → ClkSt) : (d.modClk f).quay = d.quay := rfl
@[simp] theorem pwr_modClk (d : Dev) (f : ClkSt → ClkSt) : (d.modClk f).pwr = d.pwr := rfl
@[simp] theorem side_modClk (d : Dev) (f : ClkSt → ClkSt) : (d.modClk f).side = d.side := rfl
@[simp] theorem mirrorAt_modClk (d : Dev) (f : ClkSt → ClkSt) : (d.modClk f).mirrorAt = d.mirrorAt := rfl
@[simp] theorem hbmErr_modClk (d : Dev) (f : ClkSt → ClkSt) : (d.modClk f).hbmErr = d.hbmErr := rfl
@[simp] theorem get_modClk (d : Dev) (f : ClkSt → ClkSt) (g : Fld) (j : Nat) : (d.modClk f).get g j = d.get g j := rfl
@[simp] theorem is_modClk (d : Dev) (f : ClkSt → ClkSt) (g : Fld) (j : Nat) : (d.modClk f).is g j = d.is g j := rfl
@[simp] theorem now_modClk (d : Dev) (f : ClkSt → ClkSt) : (d.modClk f).now = d.now := rfl
@[simp] theorem coreUp_modClk (d : Dev) (f : ClkSt → ClkSt) (die : Nat) : (d.modClk f).coreUp die = d.coreUp die := rfl
@[simp] theorem reg_modClk (d : Dev) (f : ClkSt → ClkSt) (q : Nat) : (d.modClk f).reg q = d.reg q := rfl
@[simp] theorem cell_modClk (d : Dev) (f : ClkSt → ClkSt) (q k : Nat) : (d.modClk f).cell q k = d.cell q k := rfl
@[simp] theorem link_modClk (d : Dev) (f : ClkSt → ClkSt) (q : Nat) : (d.modClk f).link q = d.link q := rfl

/-! ### modHost -/

@[simp] theorem regs_modHost (d : Dev) (f : HostSt → HostSt) : (d.modHost f).regs = d.regs := rfl
@[simp] theorem mem_modHost (d : Dev) (f : HostSt → HostSt) : (d.modHost f).mem = d.mem := rfl
@[simp] theorem free_modHost (d : Dev) (f : HostSt → HostSt) : (d.modHost f).free = d.free := rfl
@[simp] theorem fuses_modHost (d : Dev) (f : HostSt → HostSt) : (d.modHost f).fuses = d.fuses := rfl
@[simp] theorem fatal_modHost (d : Dev) (f : HostSt → HostSt) : (d.modHost f).fatal = d.fatal := rfl
@[simp] theorem cal_modHost (d : Dev) (f : HostSt → HostSt) : (d.modHost f).cal = d.cal := rfl
@[simp] theorem px_modHost (d : Dev) (f : HostSt → HostSt) : (d.modHost f).px = d.px := rfl
@[simp] theorem evt_modHost (d : Dev) (f : HostSt → HostSt) : (d.modHost f).evt = d.evt := rfl
@[simp] theorem life_modHost (d : Dev) (f : HostSt → HostSt) : (d.modHost f).life = d.life := rfl
@[simp] theorem regions_modHost (d : Dev) (f : HostSt → HostSt) : (d.modHost f).regions = d.regions := rfl
@[simp] theorem tide_modHost (d : Dev) (f : HostSt → HostSt) : (d.modHost f).tide = d.tide := rfl
@[simp] theorem plan_modHost (d : Dev) (f : HostSt → HostSt) : (d.modHost f).plan = d.plan := rfl
@[simp] theorem links_modHost (d : Dev) (f : HostSt → HostSt) : (d.modHost f).links = d.links := rfl
@[simp] theorem ist_modHost (d : Dev) (f : HostSt → HostSt) : (d.modHost f).ist = d.ist := rfl
@[simp] theorem fabric_modHost (d : Dev) (f : HostSt → HostSt) : (d.modHost f).fabric = d.fabric := rfl
@[simp] theorem ferry_modHost (d : Dev) (f : HostSt → HostSt) : (d.modHost f).ferry = d.ferry := rfl
@[simp] theorem time_modHost (d : Dev) (f : HostSt → HostSt) : (d.modHost f).time = d.time := rfl
@[simp] theorem sec_modHost (d : Dev) (f : HostSt → HostSt) : (d.modHost f).sec = d.sec := rfl
@[simp] theorem launch_modHost (d : Dev) (f : HostSt → HostSt) : (d.modHost f).launch = d.launch := rfl
@[simp] theorem svc_modHost (d : Dev) (f : HostSt → HostSt) : (d.modHost f).svc = d.svc := rfl
@[simp] theorem quay_modHost (d : Dev) (f : HostSt → HostSt) : (d.modHost f).quay = d.quay := rfl
@[simp] theorem clk_modHost (d : Dev) (f : HostSt → HostSt) : (d.modHost f).clk = d.clk := rfl
@[simp] theorem pwr_modHost (d : Dev) (f : HostSt → HostSt) : (d.modHost f).pwr = d.pwr := rfl
@[simp] theorem side_modHost (d : Dev) (f : HostSt → HostSt) : (d.modHost f).side = d.side := rfl
@[simp] theorem mirrorAt_modHost (d : Dev) (f : HostSt → HostSt) : (d.modHost f).mirrorAt = d.mirrorAt := rfl
@[simp] theorem hbmErr_modHost (d : Dev) (f : HostSt → HostSt) : (d.modHost f).hbmErr = d.hbmErr := rfl
@[simp] theorem get_modHost (d : Dev) (f : HostSt → HostSt) (g : Fld) (j : Nat) : (d.modHost f).get g j = d.get g j := rfl
@[simp] theorem is_modHost (d : Dev) (f : HostSt → HostSt) (g : Fld) (j : Nat) : (d.modHost f).is g j = d.is g j := rfl
@[simp] theorem now_modHost (d : Dev) (f : HostSt → HostSt) : (d.modHost f).now = d.now := rfl
@[simp] theorem coreUp_modHost (d : Dev) (f : HostSt → HostSt) (die : Nat) : (d.modHost f).coreUp die = d.coreUp die := rfl
@[simp] theorem reg_modHost (d : Dev) (f : HostSt → HostSt) (q : Nat) : (d.modHost f).reg q = d.reg q := rfl
@[simp] theorem cell_modHost (d : Dev) (f : HostSt → HostSt) (q k : Nat) : (d.modHost f).cell q k = d.cell q k := rfl
@[simp] theorem link_modHost (d : Dev) (f : HostSt → HostSt) (q : Nat) : (d.modHost f).link q = d.link q := rfl

/-! ### modPwr -/

@[simp] theorem regs_modPwr (d : Dev) (f : PwrSt → PwrSt) : (d.modPwr f).regs = d.regs := rfl
@[simp] theorem mem_modPwr (d : Dev) (f : PwrSt → PwrSt) : (d.modPwr f).mem = d.mem := rfl
@[simp] theorem free_modPwr (d : Dev) (f : PwrSt → PwrSt) : (d.modPwr f).free = d.free := rfl
@[simp] theorem fuses_modPwr (d : Dev) (f : PwrSt → PwrSt) : (d.modPwr f).fuses = d.fuses := rfl
@[simp] theorem fatal_modPwr (d : Dev) (f : PwrSt → PwrSt) : (d.modPwr f).fatal = d.fatal := rfl
@[simp] theorem cal_modPwr (d : Dev) (f : PwrSt → PwrSt) : (d.modPwr f).cal = d.cal := rfl
@[simp] theorem px_modPwr (d : Dev) (f : PwrSt → PwrSt) : (d.modPwr f).px = d.px := rfl
@[simp] theorem evt_modPwr (d : Dev) (f : PwrSt → PwrSt) : (d.modPwr f).evt = d.evt := rfl
@[simp] theorem life_modPwr (d : Dev) (f : PwrSt → PwrSt) : (d.modPwr f).life = d.life := rfl
@[simp] theorem host_modPwr (d : Dev) (f : PwrSt → PwrSt) : (d.modPwr f).host = d.host := rfl
@[simp] theorem regions_modPwr (d : Dev) (f : PwrSt → PwrSt) : (d.modPwr f).regions = d.regions := rfl
@[simp] theorem tide_modPwr (d : Dev) (f : PwrSt → PwrSt) : (d.modPwr f).tide = d.tide := rfl
@[simp] theorem plan_modPwr (d : Dev) (f : PwrSt → PwrSt) : (d.modPwr f).plan = d.plan := rfl
@[simp] theorem links_modPwr (d : Dev) (f : PwrSt → PwrSt) : (d.modPwr f).links = d.links := rfl
@[simp] theorem ist_modPwr (d : Dev) (f : PwrSt → PwrSt) : (d.modPwr f).ist = d.ist := rfl
@[simp] theorem fabric_modPwr (d : Dev) (f : PwrSt → PwrSt) : (d.modPwr f).fabric = d.fabric := rfl
@[simp] theorem ferry_modPwr (d : Dev) (f : PwrSt → PwrSt) : (d.modPwr f).ferry = d.ferry := rfl
@[simp] theorem time_modPwr (d : Dev) (f : PwrSt → PwrSt) : (d.modPwr f).time = d.time := rfl
@[simp] theorem sec_modPwr (d : Dev) (f : PwrSt → PwrSt) : (d.modPwr f).sec = d.sec := rfl
@[simp] theorem launch_modPwr (d : Dev) (f : PwrSt → PwrSt) : (d.modPwr f).launch = d.launch := rfl
@[simp] theorem svc_modPwr (d : Dev) (f : PwrSt → PwrSt) : (d.modPwr f).svc = d.svc := rfl
@[simp] theorem quay_modPwr (d : Dev) (f : PwrSt → PwrSt) : (d.modPwr f).quay = d.quay := rfl
@[simp] theorem clk_modPwr (d : Dev) (f : PwrSt → PwrSt) : (d.modPwr f).clk = d.clk := rfl
@[simp] theorem side_modPwr (d : Dev) (f : PwrSt → PwrSt) : (d.modPwr f).side = d.side := rfl
@[simp] theorem mirrorAt_modPwr (d : Dev) (f : PwrSt → PwrSt) : (d.modPwr f).mirrorAt = d.mirrorAt := rfl
@[simp] theorem hbmErr_modPwr (d : Dev) (f : PwrSt → PwrSt) : (d.modPwr f).hbmErr = d.hbmErr := rfl
@[simp] theorem get_modPwr (d : Dev) (f : PwrSt → PwrSt) (g : Fld) (j : Nat) : (d.modPwr f).get g j = d.get g j := rfl
@[simp] theorem is_modPwr (d : Dev) (f : PwrSt → PwrSt) (g : Fld) (j : Nat) : (d.modPwr f).is g j = d.is g j := rfl
@[simp] theorem now_modPwr (d : Dev) (f : PwrSt → PwrSt) : (d.modPwr f).now = d.now := rfl
@[simp] theorem coreUp_modPwr (d : Dev) (f : PwrSt → PwrSt) (die : Nat) : (d.modPwr f).coreUp die = d.coreUp die := rfl
@[simp] theorem reg_modPwr (d : Dev) (f : PwrSt → PwrSt) (q : Nat) : (d.modPwr f).reg q = d.reg q := rfl
@[simp] theorem cell_modPwr (d : Dev) (f : PwrSt → PwrSt) (q k : Nat) : (d.modPwr f).cell q k = d.cell q k := rfl
@[simp] theorem link_modPwr (d : Dev) (f : PwrSt → PwrSt) (q : Nat) : (d.modPwr f).link q = d.link q := rfl

/-! ### modSec -/

@[simp] theorem regs_modSec (d : Dev) (f : SecSt → SecSt) : (d.modSec f).regs = d.regs := rfl
@[simp] theorem mem_modSec (d : Dev) (f : SecSt → SecSt) : (d.modSec f).mem = d.mem := rfl
@[simp] theorem free_modSec (d : Dev) (f : SecSt → SecSt) : (d.modSec f).free = d.free := rfl
@[simp] theorem fuses_modSec (d : Dev) (f : SecSt → SecSt) : (d.modSec f).fuses = d.fuses := rfl
@[simp] theorem fatal_modSec (d : Dev) (f : SecSt → SecSt) : (d.modSec f).fatal = d.fatal := rfl
@[simp] theorem cal_modSec (d : Dev) (f : SecSt → SecSt) : (d.modSec f).cal = d.cal := rfl
@[simp] theorem px_modSec (d : Dev) (f : SecSt → SecSt) : (d.modSec f).px = d.px := rfl
@[simp] theorem evt_modSec (d : Dev) (f : SecSt → SecSt) : (d.modSec f).evt = d.evt := rfl
@[simp] theorem life_modSec (d : Dev) (f : SecSt → SecSt) : (d.modSec f).life = d.life := rfl
@[simp] theorem host_modSec (d : Dev) (f : SecSt → SecSt) : (d.modSec f).host = d.host := rfl
@[simp] theorem regions_modSec (d : Dev) (f : SecSt → SecSt) : (d.modSec f).regions = d.regions := rfl
@[simp] theorem tide_modSec (d : Dev) (f : SecSt → SecSt) : (d.modSec f).tide = d.tide := rfl
@[simp] theorem plan_modSec (d : Dev) (f : SecSt → SecSt) : (d.modSec f).plan = d.plan := rfl
@[simp] theorem links_modSec (d : Dev) (f : SecSt → SecSt) : (d.modSec f).links = d.links := rfl
@[simp] theorem ist_modSec (d : Dev) (f : SecSt → SecSt) : (d.modSec f).ist = d.ist := rfl
@[simp] theorem fabric_modSec (d : Dev) (f : SecSt → SecSt) : (d.modSec f).fabric = d.fabric := rfl
@[simp] theorem ferry_modSec (d : Dev) (f : SecSt → SecSt) : (d.modSec f).ferry = d.ferry := rfl
@[simp] theorem time_modSec (d : Dev) (f : SecSt → SecSt) : (d.modSec f).time = d.time := rfl
@[simp] theorem launch_modSec (d : Dev) (f : SecSt → SecSt) : (d.modSec f).launch = d.launch := rfl
@[simp] theorem svc_modSec (d : Dev) (f : SecSt → SecSt) : (d.modSec f).svc = d.svc := rfl
@[simp] theorem quay_modSec (d : Dev) (f : SecSt → SecSt) : (d.modSec f).quay = d.quay := rfl
@[simp] theorem clk_modSec (d : Dev) (f : SecSt → SecSt) : (d.modSec f).clk = d.clk := rfl
@[simp] theorem pwr_modSec (d : Dev) (f : SecSt → SecSt) : (d.modSec f).pwr = d.pwr := rfl
@[simp] theorem side_modSec (d : Dev) (f : SecSt → SecSt) : (d.modSec f).side = d.side := rfl
@[simp] theorem mirrorAt_modSec (d : Dev) (f : SecSt → SecSt) : (d.modSec f).mirrorAt = d.mirrorAt := rfl
@[simp] theorem hbmErr_modSec (d : Dev) (f : SecSt → SecSt) : (d.modSec f).hbmErr = d.hbmErr := rfl
@[simp] theorem get_modSec (d : Dev) (f : SecSt → SecSt) (g : Fld) (j : Nat) : (d.modSec f).get g j = d.get g j := rfl
@[simp] theorem is_modSec (d : Dev) (f : SecSt → SecSt) (g : Fld) (j : Nat) : (d.modSec f).is g j = d.is g j := rfl
@[simp] theorem now_modSec (d : Dev) (f : SecSt → SecSt) : (d.modSec f).now = d.now := rfl
@[simp] theorem coreUp_modSec (d : Dev) (f : SecSt → SecSt) (die : Nat) : (d.modSec f).coreUp die = d.coreUp die := rfl
@[simp] theorem reg_modSec (d : Dev) (f : SecSt → SecSt) (q : Nat) : (d.modSec f).reg q = d.reg q := rfl
@[simp] theorem cell_modSec (d : Dev) (f : SecSt → SecSt) (q k : Nat) : (d.modSec f).cell q k = d.cell q k := rfl
@[simp] theorem link_modSec (d : Dev) (f : SecSt → SecSt) (q : Nat) : (d.modSec f).link q = d.link q := rfl

/-! ### modTime -/

@[simp] theorem regs_modTime (d : Dev) (f : TimeSt → TimeSt) : (d.modTime f).regs = d.regs := rfl
@[simp] theorem mem_modTime (d : Dev) (f : TimeSt → TimeSt) : (d.modTime f).mem = d.mem := rfl
@[simp] theorem free_modTime (d : Dev) (f : TimeSt → TimeSt) : (d.modTime f).free = d.free := rfl
@[simp] theorem fuses_modTime (d : Dev) (f : TimeSt → TimeSt) : (d.modTime f).fuses = d.fuses := rfl
@[simp] theorem fatal_modTime (d : Dev) (f : TimeSt → TimeSt) : (d.modTime f).fatal = d.fatal := rfl
@[simp] theorem cal_modTime (d : Dev) (f : TimeSt → TimeSt) : (d.modTime f).cal = d.cal := rfl
@[simp] theorem px_modTime (d : Dev) (f : TimeSt → TimeSt) : (d.modTime f).px = d.px := rfl
@[simp] theorem evt_modTime (d : Dev) (f : TimeSt → TimeSt) : (d.modTime f).evt = d.evt := rfl
@[simp] theorem life_modTime (d : Dev) (f : TimeSt → TimeSt) : (d.modTime f).life = d.life := rfl
@[simp] theorem host_modTime (d : Dev) (f : TimeSt → TimeSt) : (d.modTime f).host = d.host := rfl
@[simp] theorem regions_modTime (d : Dev) (f : TimeSt → TimeSt) : (d.modTime f).regions = d.regions := rfl
@[simp] theorem tide_modTime (d : Dev) (f : TimeSt → TimeSt) : (d.modTime f).tide = d.tide := rfl
@[simp] theorem plan_modTime (d : Dev) (f : TimeSt → TimeSt) : (d.modTime f).plan = d.plan := rfl
@[simp] theorem links_modTime (d : Dev) (f : TimeSt → TimeSt) : (d.modTime f).links = d.links := rfl
@[simp] theorem ist_modTime (d : Dev) (f : TimeSt → TimeSt) : (d.modTime f).ist = d.ist := rfl
@[simp] theorem fabric_modTime (d : Dev) (f : TimeSt → TimeSt) : (d.modTime f).fabric = d.fabric := rfl
@[simp] theorem ferry_modTime (d : Dev) (f : TimeSt → TimeSt) : (d.modTime f).ferry = d.ferry := rfl
@[simp] theorem sec_modTime (d : Dev) (f : TimeSt → TimeSt) : (d.modTime f).sec = d.sec := rfl
@[simp] theorem launch_modTime (d : Dev) (f : TimeSt → TimeSt) : (d.modTime f).launch = d.launch := rfl
@[simp] theorem svc_modTime (d : Dev) (f : TimeSt → TimeSt) : (d.modTime f).svc = d.svc := rfl
@[simp] theorem quay_modTime (d : Dev) (f : TimeSt → TimeSt) : (d.modTime f).quay = d.quay := rfl
@[simp] theorem clk_modTime (d : Dev) (f : TimeSt → TimeSt) : (d.modTime f).clk = d.clk := rfl
@[simp] theorem pwr_modTime (d : Dev) (f : TimeSt → TimeSt) : (d.modTime f).pwr = d.pwr := rfl
@[simp] theorem side_modTime (d : Dev) (f : TimeSt → TimeSt) : (d.modTime f).side = d.side := rfl
@[simp] theorem mirrorAt_modTime (d : Dev) (f : TimeSt → TimeSt) : (d.modTime f).mirrorAt = d.mirrorAt := rfl
@[simp] theorem hbmErr_modTime (d : Dev) (f : TimeSt → TimeSt) : (d.modTime f).hbmErr = d.hbmErr := rfl
@[simp] theorem get_modTime (d : Dev) (f : TimeSt → TimeSt) (g : Fld) (j : Nat) : (d.modTime f).get g j = d.get g j := rfl
@[simp] theorem is_modTime (d : Dev) (f : TimeSt → TimeSt) (g : Fld) (j : Nat) : (d.modTime f).is g j = d.is g j := rfl
@[simp] theorem now_modTime (d : Dev) (f : TimeSt → TimeSt) : (d.modTime f).now = d.now := rfl
@[simp] theorem coreUp_modTime (d : Dev) (f : TimeSt → TimeSt) (die : Nat) : (d.modTime f).coreUp die = d.coreUp die := rfl
@[simp] theorem reg_modTime (d : Dev) (f : TimeSt → TimeSt) (q : Nat) : (d.modTime f).reg q = d.reg q := rfl
@[simp] theorem cell_modTime (d : Dev) (f : TimeSt → TimeSt) (q k : Nat) : (d.modTime f).cell q k = d.cell q k := rfl
@[simp] theorem link_modTime (d : Dev) (f : TimeSt → TimeSt) (q : Nat) : (d.modTime f).link q = d.link q := rfl

/-! ### modSvc -/

@[simp] theorem regs_modSvc (d : Dev) (f : SvcSt → SvcSt) : (modSvc f d).regs = d.regs := rfl
@[simp] theorem mem_modSvc (d : Dev) (f : SvcSt → SvcSt) : (modSvc f d).mem = d.mem := rfl
@[simp] theorem free_modSvc (d : Dev) (f : SvcSt → SvcSt) : (modSvc f d).free = d.free := rfl
@[simp] theorem fuses_modSvc (d : Dev) (f : SvcSt → SvcSt) : (modSvc f d).fuses = d.fuses := rfl
@[simp] theorem fatal_modSvc (d : Dev) (f : SvcSt → SvcSt) : (modSvc f d).fatal = d.fatal := rfl
@[simp] theorem cal_modSvc (d : Dev) (f : SvcSt → SvcSt) : (modSvc f d).cal = d.cal := rfl
@[simp] theorem px_modSvc (d : Dev) (f : SvcSt → SvcSt) : (modSvc f d).px = d.px := rfl
@[simp] theorem evt_modSvc (d : Dev) (f : SvcSt → SvcSt) : (modSvc f d).evt = d.evt := rfl
@[simp] theorem life_modSvc (d : Dev) (f : SvcSt → SvcSt) : (modSvc f d).life = d.life := rfl
@[simp] theorem host_modSvc (d : Dev) (f : SvcSt → SvcSt) : (modSvc f d).host = d.host := rfl
@[simp] theorem regions_modSvc (d : Dev) (f : SvcSt → SvcSt) : (modSvc f d).regions = d.regions := rfl
@[simp] theorem tide_modSvc (d : Dev) (f : SvcSt → SvcSt) : (modSvc f d).tide = d.tide := rfl
@[simp] theorem plan_modSvc (d : Dev) (f : SvcSt → SvcSt) : (modSvc f d).plan = d.plan := rfl
@[simp] theorem links_modSvc (d : Dev) (f : SvcSt → SvcSt) : (modSvc f d).links = d.links := rfl
@[simp] theorem ist_modSvc (d : Dev) (f : SvcSt → SvcSt) : (modSvc f d).ist = d.ist := rfl
@[simp] theorem fabric_modSvc (d : Dev) (f : SvcSt → SvcSt) : (modSvc f d).fabric = d.fabric := rfl
@[simp] theorem ferry_modSvc (d : Dev) (f : SvcSt → SvcSt) : (modSvc f d).ferry = d.ferry := rfl
@[simp] theorem time_modSvc (d : Dev) (f : SvcSt → SvcSt) : (modSvc f d).time = d.time := rfl
@[simp] theorem sec_modSvc (d : Dev) (f : SvcSt → SvcSt) : (modSvc f d).sec = d.sec := rfl
@[simp] theorem launch_modSvc (d : Dev) (f : SvcSt → SvcSt) : (modSvc f d).launch = d.launch := rfl
@[simp] theorem quay_modSvc (d : Dev) (f : SvcSt → SvcSt) : (modSvc f d).quay = d.quay := rfl
@[simp] theorem clk_modSvc (d : Dev) (f : SvcSt → SvcSt) : (modSvc f d).clk = d.clk := rfl
@[simp] theorem pwr_modSvc (d : Dev) (f : SvcSt → SvcSt) : (modSvc f d).pwr = d.pwr := rfl
@[simp] theorem side_modSvc (d : Dev) (f : SvcSt → SvcSt) : (modSvc f d).side = d.side := rfl
@[simp] theorem mirrorAt_modSvc (d : Dev) (f : SvcSt → SvcSt) : (modSvc f d).mirrorAt = d.mirrorAt := rfl
@[simp] theorem hbmErr_modSvc (d : Dev) (f : SvcSt → SvcSt) : (modSvc f d).hbmErr = d.hbmErr := rfl
@[simp] theorem get_modSvc (d : Dev) (f : SvcSt → SvcSt) (g : Fld) (j : Nat) : (modSvc f d).get g j = d.get g j := rfl
@[simp] theorem is_modSvc (d : Dev) (f : SvcSt → SvcSt) (g : Fld) (j : Nat) : (modSvc f d).is g j = d.is g j := rfl
@[simp] theorem now_modSvc (d : Dev) (f : SvcSt → SvcSt) : (modSvc f d).now = d.now := rfl
@[simp] theorem coreUp_modSvc (d : Dev) (f : SvcSt → SvcSt) (die : Nat) : (modSvc f d).coreUp die = d.coreUp die := rfl
@[simp] theorem reg_modSvc (d : Dev) (f : SvcSt → SvcSt) (q : Nat) : (modSvc f d).reg q = d.reg q := rfl
@[simp] theorem cell_modSvc (d : Dev) (f : SvcSt → SvcSt) (q k : Nat) : (modSvc f d).cell q k = d.cell q k := rfl
@[simp] theorem link_modSvc (d : Dev) (f : SvcSt → SvcSt) (q : Nat) : (modSvc f d).link q = d.link q := rfl

/-! ### modLaunch -/

@[simp] theorem regs_modLaunch (d : Dev) (f : LaunchSt → LaunchSt) : (modLaunch f d).regs = d.regs := rfl
@[simp] theorem mem_modLaunch (d : Dev) (f : LaunchSt → LaunchSt) : (modLaunch f d).mem = d.mem := rfl
@[simp] theorem free_modLaunch (d : Dev) (f : LaunchSt → LaunchSt) : (modLaunch f d).free = d.free := rfl
@[simp] theorem fuses_modLaunch (d : Dev) (f : LaunchSt → LaunchSt) : (modLaunch f d).fuses = d.fuses := rfl
@[simp] theorem fatal_modLaunch (d : Dev) (f : LaunchSt → LaunchSt) : (modLaunch f d).fatal = d.fatal := rfl
@[simp] theorem cal_modLaunch (d : Dev) (f : LaunchSt → LaunchSt) : (modLaunch f d).cal = d.cal := rfl
@[simp] theorem px_modLaunch (d : Dev) (f : LaunchSt → LaunchSt) : (modLaunch f d).px = d.px := rfl
@[simp] theorem evt_modLaunch (d : Dev) (f : LaunchSt → LaunchSt) : (modLaunch f d).evt = d.evt := rfl
@[simp] theorem life_modLaunch (d : Dev) (f : LaunchSt → LaunchSt) : (modLaunch f d).life = d.life := rfl
@[simp] theorem host_modLaunch (d : Dev) (f : LaunchSt → LaunchSt) : (modLaunch f d).host = d.host := rfl
@[simp] theorem regions_modLaunch (d : Dev) (f : LaunchSt → LaunchSt) : (modLaunch f d).regions = d.regions := rfl
@[simp] theorem tide_modLaunch (d : Dev) (f : LaunchSt → LaunchSt) : (modLaunch f d).tide = d.tide := rfl
@[simp] theorem plan_modLaunch (d : Dev) (f : LaunchSt → LaunchSt) : (modLaunch f d).plan = d.plan := rfl
@[simp] theorem links_modLaunch (d : Dev) (f : LaunchSt → LaunchSt) : (modLaunch f d).links = d.links := rfl
@[simp] theorem ist_modLaunch (d : Dev) (f : LaunchSt → LaunchSt) : (modLaunch f d).ist = d.ist := rfl
@[simp] theorem fabric_modLaunch (d : Dev) (f : LaunchSt → LaunchSt) : (modLaunch f d).fabric = d.fabric := rfl
@[simp] theorem ferry_modLaunch (d : Dev) (f : LaunchSt → LaunchSt) : (modLaunch f d).ferry = d.ferry := rfl
@[simp] theorem time_modLaunch (d : Dev) (f : LaunchSt → LaunchSt) : (modLaunch f d).time = d.time := rfl
@[simp] theorem sec_modLaunch (d : Dev) (f : LaunchSt → LaunchSt) : (modLaunch f d).sec = d.sec := rfl
@[simp] theorem svc_modLaunch (d : Dev) (f : LaunchSt → LaunchSt) : (modLaunch f d).svc = d.svc := rfl
@[simp] theorem quay_modLaunch (d : Dev) (f : LaunchSt → LaunchSt) : (modLaunch f d).quay = d.quay := rfl
@[simp] theorem clk_modLaunch (d : Dev) (f : LaunchSt → LaunchSt) : (modLaunch f d).clk = d.clk := rfl
@[simp] theorem pwr_modLaunch (d : Dev) (f : LaunchSt → LaunchSt) : (modLaunch f d).pwr = d.pwr := rfl
@[simp] theorem side_modLaunch (d : Dev) (f : LaunchSt → LaunchSt) : (modLaunch f d).side = d.side := rfl
@[simp] theorem mirrorAt_modLaunch (d : Dev) (f : LaunchSt → LaunchSt) : (modLaunch f d).mirrorAt = d.mirrorAt := rfl
@[simp] theorem hbmErr_modLaunch (d : Dev) (f : LaunchSt → LaunchSt) : (modLaunch f d).hbmErr = d.hbmErr := rfl
@[simp] theorem get_modLaunch (d : Dev) (f : LaunchSt → LaunchSt) (g : Fld) (j : Nat) : (modLaunch f d).get g j = d.get g j := rfl
@[simp] theorem is_modLaunch (d : Dev) (f : LaunchSt → LaunchSt) (g : Fld) (j : Nat) : (modLaunch f d).is g j = d.is g j := rfl
@[simp] theorem now_modLaunch (d : Dev) (f : LaunchSt → LaunchSt) : (modLaunch f d).now = d.now := rfl
@[simp] theorem coreUp_modLaunch (d : Dev) (f : LaunchSt → LaunchSt) (die : Nat) : (modLaunch f d).coreUp die = d.coreUp die := rfl
@[simp] theorem reg_modLaunch (d : Dev) (f : LaunchSt → LaunchSt) (q : Nat) : (modLaunch f d).reg q = d.reg q := rfl
@[simp] theorem cell_modLaunch (d : Dev) (f : LaunchSt → LaunchSt) (q k : Nat) : (modLaunch f d).cell q k = d.cell q k := rfl
@[simp] theorem link_modLaunch (d : Dev) (f : LaunchSt → LaunchSt) (q : Nat) : (modLaunch f d).link q = d.link q := rfl

end Sys2Proof.Machine
end

