-- ==== Sys2Proof/Laws/Store.lean ====
section
/-! SUPPORT. What the table and memory operations do: a read after a write of the same key gives the value written, a
write leaves every other key alone, and every operation keeps the canonical form. -/

namespace Sys2Proof.Machine

variable {α : Type} [DecidableEq α]

/-! ### Canonical form -/

theorem tableWfFrom_none_of_some {z : α} {b : Nat} {m : SMap α} (h : tableWfFrom z (some b) m = true) :
    tableWfFrom z none m = true := by
  cases m with
  | nil => rfl
  | cons p m => simp only [tableWfFrom, Bool.and_eq_true] at h ⊢; exact ⟨⟨trivial, h.1.2⟩, h.2⟩

theorem tableWfFrom_mono {z : α} {a b : Nat} {m : SMap α} (hab : a ≤ b) (h : tableWfFrom z (some b) m = true) :
    tableWfFrom z (some a) m = true := by
  cases m with
  | nil => rfl
  | cons p m =>
    simp only [tableWfFrom, Bool.and_eq_true, decide_eq_true_eq] at h ⊢
    exact ⟨⟨by omega, h.1.2⟩, h.2⟩

/-- A key at or below the bound of a canonical table is not listed. -/
theorem tget_below {z : α} {b k : Nat} {m : SMap α} (h : tableWfFrom z (some b) m = true) (hk : k ≤ b) :
    tget z m k = z := by
  induction m generalizing b with
  | nil => rfl
  | cons p m ih =>
    simp only [tableWfFrom, Bool.and_eq_true, decide_eq_true_eq] at h
    simp only [tget]
    rw [if_neg (by omega)]
    exact ih h.2 (by omega)

theorem tableWfFrom_tput {z v : α} {lo : Option Nat} {m : SMap α} {k : Nat} (h : tableWfFrom z lo m = true)
    (hk : ∀ b, lo = some b → b < k) : tableWfFrom z lo (tput z m k v) = true := by
  induction m generalizing lo with
  | nil =>
    simp only [tput]
    split
    · exact h
    · next hv => cases lo <;> simp_all [tableWfFrom]
  | cons p m ih =>
    obtain ⟨i, x⟩ := p
    simp only [tableWfFrom, Bool.and_eq_true, decide_eq_true_eq] at h
    simp only [tput]
    split
    · next hki =>
      split
      · simp only [tableWfFrom, Bool.and_eq_true, decide_eq_true_eq]; exact h
      · next hv =>
        simp only [tableWfFrom, Bool.and_eq_true, decide_eq_true_eq]
        refine ⟨⟨?_, hv⟩, ⟨hki, h.1.2⟩, h.2⟩
        cases lo with
        | none => rfl
        | some b => simpa using hk b rfl
    · next hki =>
      split
      · next he =>
        subst he
        split
        · cases lo with
          | none => exact tableWfFrom_none_of_some h.2
          | some b => exact tableWfFrom_mono (Nat.le_of_lt (hk b rfl)) h.2
        · next hv => simp only [tableWfFrom, Bool.and_eq_true, decide_eq_true_eq]; exact ⟨⟨h.1.1, hv⟩, h.2⟩
      · next he =>
        simp only [tableWfFrom, Bool.and_eq_true, decide_eq_true_eq]
        refine ⟨h.1, ih h.2 ?_⟩
        intro b hb; cases hb; omega

/-- A write keeps the canonical form. -/
theorem tableWf_tput {z v : α} {m : SMap α} (k : Nat) (h : tableWf z m = true) : tableWf z (tput z m k v) = true :=
  tableWfFrom_tput h (by intro b hb; cases hb)

/-! ### Read after write -/

theorem tget_tput_same_from {z v : α} {lo : Option Nat} {m : SMap α} {k : Nat} (h : tableWfFrom z lo m = true) :
    tget z (tput z m k v) k = v := by
  induction m generalizing lo with
  | nil =>
    simp only [tput]
    split
    · next hv => simp [tget, hv]
    · simp [tget]
  | cons p m ih =>
    obtain ⟨i, x⟩ := p
    simp only [tableWfFrom, Bool.and_eq_true, decide_eq_true_eq] at h
    simp only [tput]
    split
    · next hki =>
      split
      · next hv =>
        simp only [tget]
        rw [if_neg (by omega), hv]
        exact tget_below h.2 (by omega)
      · simp [tget]
    · split
      · next he =>
        subst he
        split
        · next hv => rw [hv]; exact tget_below h.2 (Nat.le_refl _)
        · simp [tget]
      · next he =>
        simp only [tget]
        rw [if_neg he]
        exact ih h.2

/-- A canonical table reads what was written. -/
theorem tget_tput_same {z v : α} {m : SMap α} (k : Nat) (h : tableWf z m = true) : tget z (tput z m k v) k = v :=
  tget_tput_same_from h

/-- A write leaves every other key alone, whatever default the reader takes. -/
theorem tget_tput_other {z z' v : α} {m : SMap α} {k j : Nat} (h : j ≠ k) :
    tget z' (tput z m k v) j = tget z' m j := by
  induction m with
  | nil => simp only [tput]; split <;> simp [tget, Ne.symm h]
  | cons p m ih =>
    obtain ⟨i, x⟩ := p
    simp only [tput]
    split
    · split
      · rfl
      · simp [tget, Ne.symm h]
    · split
      · next he =>
        subst he
        split <;> simp [tget, Ne.symm h]
      · simp only [tget, ih]

/-! ### Keys alone: the register table, whose fields have defaults of their own -/

theorem risingFrom_none_of_some {β : Type} {b : Nat} {m : SMap β} (h : risingFrom (some b) m = true) :
    risingFrom none m = true := by
  cases m with
  | nil => rfl
  | cons p m => simp only [risingFrom, Bool.and_eq_true] at h ⊢; exact ⟨trivial, h.2⟩

theorem risingFrom_mono {β : Type} {a b : Nat} {m : SMap β} (hab : a ≤ b) (h : risingFrom (some b) m = true) :
    risingFrom (some a) m = true := by
  cases m with
  | nil => rfl
  | cons p m =>
    simp only [risingFrom, Bool.and_eq_true, decide_eq_true_eq] at h ⊢
    exact ⟨by omega, h.2⟩

theorem risingFrom_tput {z v : α} {lo : Option Nat} {m : SMap α} {k : Nat} (h : risingFrom lo m = true)
    (hk : ∀ b, lo = some b → b < k) : risingFrom lo (tput z m k v) = true := by
  induction m generalizing lo with
  | nil =>
    simp only [tput]
    split
    · exact h
    · cases lo <;> simp_all [risingFrom]
  | cons p m ih =>
    obtain ⟨i, x⟩ := p
    simp only [risingFrom, Bool.and_eq_true] at h
    simp only [tput]
    split
    · next hki =>
      split
      · simp only [risingFrom, Bool.and_eq_true]; exact h
      · simp only [risingFrom, Bool.and_eq_true, decide_eq_true_eq]
        refine ⟨?_, hki, h.2⟩
        cases lo with
        | none => rfl
        | some b => simpa using hk b rfl
    · next hki =>
      split
      · next he =>
        subst he
        split
        · cases lo with
          | none => exact risingFrom_none_of_some h.2
          | some b => exact risingFrom_mono (Nat.le_of_lt (hk b rfl)) h.2
        · simp only [risingFrom, Bool.and_eq_true]; exact h
      · next he =>
        simp only [risingFrom, Bool.and_eq_true]
        refine ⟨h.1, ih h.2 ?_⟩
        intro b hb; cases hb; omega

theorem rising_tput {z v : α} {m : SMap α} (k : Nat) (h : rising m = true) : rising (tput z m k v) = true :=
  risingFrom_tput h (by intro b hb; cases hb)

theorem tget_below_rising {β : Type} {z : β} {b k : Nat} {m : SMap β} (h : risingFrom (some b) m = true) (hk : k ≤ b) :
    tget z m k = z := by
  induction m generalizing b with
  | nil => rfl
  | cons p m ih =>
    simp only [risingFrom, Bool.and_eq_true, decide_eq_true_eq] at h
    simp only [tget]
    rw [if_neg (by omega)]
    exact ih h.2 (by omega)

theorem tget_tput_same_risingFrom {z v : α} {lo : Option Nat} {m : SMap α} {k : Nat} (h : risingFrom lo m = true) :
    tget z (tput z m k v) k = v := by
  induction m generalizing lo with
  | nil => simp only [tput]; split <;> simp_all [tget]
  | cons p m ih =>
    obtain ⟨i, x⟩ := p
    simp only [risingFrom, Bool.and_eq_true] at h
    simp only [tput]
    split
    · next hki =>
      split
      · next hv =>
        simp only [tget]
        rw [if_neg (by omega), hv]
        exact tget_below_rising h.2 (by omega)
      · simp [tget]
    · split
      · next he =>
        subst he
        split
        · next hv => rw [hv]; exact tget_below_rising h.2 (Nat.le_refl _)
        · simp [tget]
      · next he =>
        simp only [tget]
        rw [if_neg he]
        exact ih h.2

/-- A table with rising keys reads what was written. -/
theorem tget_tput_same_rising {z v : α} {m : SMap α} (k : Nat) (h : rising m = true) : tget z (tput z m k v) k = v :=
  tget_tput_same_risingFrom h

@[simp] theorem tget_nil {β : Type} (z : β) (k : Nat) : tget z ([] : SMap β) k = z := rfl

/-! ### Memory -/

theorem wf_mput {m : List Host.Cell} (a : Nat) (b : Byte) (h : Memory.wf m = true) : Memory.wf (mput m a b) = true :=
  tableWf_tput a h

/-- Every write of bytes keeps the canonical form of memory. -/
theorem wf_mwrite {m : List Host.Cell} (a : Nat) (bs : List Byte) (h : Memory.wf m = true) :
    Memory.wf (mwrite m a bs) = true := by
  induction bs generalizing m a with
  | nil => exact h
  | cons b bs ih => exact ih (a + 1) (wf_mput a b h)

theorem wf_mputn {m : List Host.Cell} (a n v : Nat) (h : Memory.wf m = true) : Memory.wf (mputn m a n v) = true :=
  wf_mwrite a _ h

/-- The memory of the reset state is in canonical form. -/
theorem wf_reset : Memory.wf State.reset.dev.mem = true := rfl

theorem mget_mput_same {m : List Host.Cell} (a : Nat) (b : Byte) (h : Memory.wf m = true) :
    mget (mput m a b) a = b := tget_tput_same a h

theorem mget_mput_other {m : List Host.Cell} {a x : Nat} (b : Byte) (h : x ≠ a) : mget (mput m a b) x = mget m x :=
  tget_tput_other h

/-- Bytes outside those that a write stores read as before. -/
theorem mget_mwrite_outside {m : List Host.Cell} {a x : Nat} {bs : List Byte} (h : x < a ∨ a + bs.length ≤ x) :
    mget (mwrite m a bs) x = mget m x := by
  induction bs generalizing m a with
  | nil => rfl
  | cons b bs ih =>
    simp only [List.length_cons] at h
    simp only [mwrite]
    rw [ih (by omega), mget_mput_other b (by omega)]

/-- A byte inside those that a write stores reads the byte stored there. -/
theorem mget_mwrite_inside {m : List Host.Cell} {a : Nat} {bs : List Byte} {i : Nat} (h : Memory.wf m = true)
    (hi : i < bs.length) : mget (mwrite m a bs) (a + i) = bs[i] := by
  induction bs generalizing m a i with
  | nil => simp at hi
  | cons b bs ih =>
    simp only [mwrite]
    cases i with
    | zero =>
      rw [mget_mwrite_outside (by omega)]
      exact mget_mput_same a b h
    | succ i =>
      simp only [List.length_cons] at hi
      have := ih (m := mput m a b) (a := a + 1) (i := i) (wf_mput a b h) (by omega)
      rw [show a + (i + 1) = a + 1 + i by omega, this]
      rfl

theorem length_mbytes (m : List Host.Cell) (a n : Nat) : (mbytes m a n).length = n := by
  induction n generalizing a with
  | zero => rfl
  | succ n ih => simp [mbytes, ih]

theorem getElem_mbytes (m : List Host.Cell) (a n i : Nat) (h : i < (mbytes m a n).length) :
    (mbytes m a n)[i] = mget m (a + i) := by
  induction n generalizing a i with
  | zero => simp [mbytes] at h
  | succ n ih =>
    cases i with
    | zero => rfl
    | succ i =>
      simp only [mbytes, List.getElem_cons_succ]
      rw [ih]
      congr 1; omega

/-- What was written reads back. -/
theorem mbytes_mwrite {m : List Host.Cell} (a : Nat) (bs : List Byte) (h : Memory.wf m = true) :
    mbytes (mwrite m a bs) a bs.length = bs := by
  apply List.ext_getElem
  · exact length_mbytes _ _ _
  · intro i h1 h2
    rw [getElem_mbytes]
    exact mget_mwrite_inside h h2

/-! ### Numbers as bytes -/

theorem length_leBytes (n v : Nat) : (leBytes n v).length = n := by
  induction n generalizing v with
  | zero => rfl
  | succ n ih => simp [leBytes, ih]

theorem leNat_leBytes (n v : Nat) : leNat (leBytes n v) = v % 256 ^ n := by
  induction n generalizing v with
  | zero => simp [leBytes, leNat, Nat.mod_one]
  | succ n ih =>
    simp only [leBytes, leNat, ih, BitVec.toNat_ofNat]
    rw [show (256 : Nat) ^ (n + 1) = 256 * 256 ^ n by rw [Nat.pow_succ, Nat.mul_comm], Nat.mod_mul]

/-- A number written to memory reads back. -/
theorem mnum_mputn {m : List Host.Cell} (a n v : Nat) (h : Memory.wf m = true) :
    mnum (mputn m a n v) a n = v % 256 ^ n := by
  have := mbytes_mwrite a (leBytes n v) h
  rw [length_leBytes] at this
  simp only [mnum, mputn, this, leNat_leBytes]

theorem flag_le (b : Bool) : flag b ≤ 1 := by cases b <;> decide

theorem length_insertBy {β : Type} (le : β → β → Bool) (x : β) (l : List β) :
    (insertBy le x l).length = l.length + 1 := by
  induction l with
  | nil => rfl
  | cons y l ih => simp only [insertBy]; split <;> simp [ih]

end Sys2Proof.Machine
end

