-- ==== Sys2Proof/Laws/Ops.lean ====
section
/-! SUPPORT. What the shared operations do, said once: a register field read after a write, what a command asks of its
die, and what each kind of command leaves of the block. -/

namespace Sys2Proof.Machine

/-! ### Register fields -/

theorem regsWf_set {d : Dev} (f : Fld) (i v : Nat) (h : d.regsWf = true) : (d.set f i v).regsWf = true :=
  rising_tput _ h

theorem get_set_same {d : Dev} (f : Fld) (i v : Nat) (h : d.regsWf = true) :
    (d.set f i v).get f i = v % 2 ^ f.width :=
  tget_tput_same_rising (z := f.rst) _ h

theorem get_set_other {d : Dev} {f g : Fld} {i j : Nat} (v : Nat) (h : g.key j ≠ f.key i) :
    (d.set f i v).get g j = d.get g j :=
  tget_tput_other h

/-- Two fields at one key are of one word, one instance and one place, where instances and places are in range. -/
theorem key_inj {f g : Fld} {i j : Nat} (hi : i < 65536) (hj : j < 65536) (hf : f.lo < 64) (hg : g.lo < 64)
    (h : f.key i = g.key j) : f.word = g.word ∧ i = j ∧ f.lo = g.lo := by
  simp only [Fld.key] at h
  omega

/-- A write to an instance leaves the other instances of the field alone. -/
theorem get_set_instance {d : Dev} (f : Fld) {i j : Nat} (v : Nat) (h : j ≠ i) : (d.set f i v).get f j = d.get f j := by
  apply get_set_other
  simp only [Fld.key]
  omega

@[simp] theorem is_set_same {d : Dev} (f : Fld) (i v : Nat) (h : d.regsWf = true) :
    (d.set f i v).is f i = decide (v % 2 ^ f.width = 1) := by
  simp [Dev.is, get_set_same f i v h]

/-- A class S counter (R7) changes the count and the sat bit alone: the register table is all that it touches. -/
theorem incRaw_frame (d : Dev) (c : Counter) (i n : Nat) :
    (d.incRaw c i n).1.mem = d.mem ∧ (d.incRaw c i n).1.regions = d.regions ∧ (d.incRaw c i n).1.links = d.links := by
  simp only [Dev.incRaw]
  split <;> simp

/-! ### Dies and FATAL -/

@[simp] theorem onCore_up {die : Nat} {f : Dev → Dev} {d : Dev} (h : d.coreUp die = true) : onCore die f d = f d := by
  simp [onCore, h]

@[simp] theorem onCore_held {die : Nat} {f : Dev → Dev} {d : Dev} (h : d.coreUp die = false) : onCore die f d = d := by
  simp [onCore, h]

@[simp] theorem unlessFatal_live {f : Dev → Dev} {d : Dev} (h : d.fatal = false) : unlessFatal f d = f d := by
  simp [unlessFatal, h]

@[simp] theorem unlessFatal_fatal {f : Dev → Dev} {d : Dev} (h : d.fatal = true) : unlessFatal f d = d := by
  simp [unlessFatal, h]

/-! ### Kinds of command -/

theorem lift_next (f : Dev → Dev) (s : State) : lift f s = .next { s with dev := f s.dev } := rfl

theorem settled_next (f : Dev → Dev) (s : State) : settled f s = .next { s with dev := after (f s.dev) } := rfl

theorem estuary_up {f : Dev → Dev} {s : State} (h : s.dev.coreUp 1 = true) :
    estuary f s = .next { s with dev := after (f s.dev) } := by
  simp [estuary, settled, lift, h]

theorem onDie_up {die : Nat} {f : Dev → Dev} {s : State} (h : s.dev.coreUp die = true) :
    onDie die f s = .next { s with dev := after (f s.dev) } := by
  simp [onDie, settled, lift, h]

theorem active_up {die : Nat} {f : Dev → Dev} {s : State} (h : s.dev.coreUp die = true) (hf : s.dev.fatal = false) :
    active die f s = .next { s with dev := after (f s.dev) } := by
  simp [active, settled, lift, h, hf]

theorem active_fatal {die : Nat} {f : Dev → Dev} {s : State} (hf : s.dev.fatal = true) :
    active die f s = .next { s with dev := after s.dev } := by
  simp only [active, settled, lift, onCore]
  split <;> simp [hf]

theorem liftMeter_next (f : MeterSt → MeterSt) (s : State) : liftMeter f s = .next { s with meter := f s.meter } := rfl

theorem liftBoth_next (f : Dev × MeterSt → Dev × MeterSt) (s : State) :
    liftBoth f s = .next { s with dev := (f (s.dev, s.meter)).1, meter := (f (s.dev, s.meter)).2 } := rfl

/-! ### Events -/

/-- The queue of events that a NOTE masked in the ring leaves: its count alone (R504). -/
theorem recordEvent_masked {d : Dev} {e : Ev} {r i : Option Nat}
    (h : ((d.noteSeverity e.sev).keepSevere e r).masked e = true) :
    (d.recordEvent e r i).1 = (((d.noteSeverity e.sev).keepSevere e r).incRaw C.EVT_COUNTS_masked).1 := by
  simp [Dev.recordEvent, h]

theorem updateAlert_regions (d : Dev) : d.updateAlert.regions = d.regions := rfl

theorem noteSeverity_mem (d : Dev) (s : Sev) : (d.noteSeverity s).mem = d.mem := by cases s <;> rfl

theorem keepSevere_mem (d : Dev) (e : Ev) (r : Option Nat) : (d.keepSevere e r).mem = d.mem := by
  simp only [Dev.keepSevere]; split <;> rfl

end Sys2Proof.Machine
end

