-- ==== Sys2Proof/Safety.lean ====
section
/-! DEFINITION. What counts as a safe run and a sound state, in the terms that statements use. -/

namespace Sys2Proof

/-- The commands of the plan and of drift, which a FATAL event stops (Table 0.5a, R500). -/
def Instr.planOrDrift : Instr → Bool
  | .tideMark .. | .regionWake .. | .tideStart .. | .planTick .. | .tideEnd .. | .holdTick .. | .crossingArrival ..
  | .landingGraceExpiry .. | .tideDeadlineExpiry .. | .holdLimitExpiry .. | .armedStart .. | .clear .. | .mac ..
  | .wload .. | .wswap .. | .drain .. | .add .. | .sub .. | .mul .. | .fma .. | .max .. | .min .. | .exp2 ..
  | .log2 .. | .rcp .. | .rsqrt .. | .cvt .. | .ld .. | .st .. | .rdacc .. | .cmp .. | .topk .. | .sample ..
  | .reduce .. | .start .. | .step .. | .setpos .. | .gather .. | .scatter .. | .csend .. | .bsend .. | .xsend ..
  | .xrecv .. | .lsend .. | .land .. | .lread .. | .loopf .. | .loopb .. | .jmp .. | .planEnd .. | .dload ..
  | .dbase .. | .cntsrc .. | .cntld .. | .cntset .. | .pcix .. | .plog .. | .pvec .. | .pcnt ..
  | .macContribution .. | .wloadComplete .. | .vectorResult .. | .stWrite .. | .transferDelivery ..
  | .ringPageFill .. | .slipPeriod .. | .hbmReadArrival .. | .hbmWriteAccept .. | .istEntryArrival .. | .read ..
  | .write .. | .readResp .. | .writeAck .. | .bounce .. | .relay .. | .mgmtReq .. | .mgmtResp ..
  | .driftForward .. | .driftReqTimeout .. | .launchStart .. | .launchSend .. | .launchRecord .. | .launchAck ..
  | .launchWaitExpiry .. | .launchHostWaitExpiry .. | .routerCrcFail .. => true
  | _ => false

/-- The commands that reach the sealed meter: the feed, the energy samples, its time base, supply, seal and test port, and
the mirror path (R479). -/
def Instr.ofMeter : Instr → Bool
  | .feedCountRecord .. | .feedIdleFrame .. | .feedInterruption .. | .recordIntervalEnd .. | .recordSigned ..
  | .meterPowerRestore .. | .mirrorRefresh .. | .energySample .. | .meterTimebaseFail .. | .meterTimebaseRestore ..
  | .meterSupplyWarning .. | .sealOpen .. | .sealClose .. | .readRecord .. | .readCustomerSnapshot ..
  | .readLiveTotals .. | .readCertificate .. | .writeParameterSet .. | .setMeterSeconds .. => true
  | _ => false

end Sys2Proof

namespace Sys2Proof.Machine

/-- No plan fault has been recorded and no FATAL event stands (R9, R62). -/
def Dev.healthy (d : Dev) : Bool := decide (d.get R.TIDE_STATUS_state ≠ tsFaulted) && !d.fatal

/-- Neither a plan fault nor a FATAL event stops the block. -/
def State.safe (s : State) : Bool := s.dev.healthy

/-! ### Nothing to settle -/

/-- A link has nothing to settle: no plan flit waits on one that is down; on one that is up the store is within its
limits or already dealt with, and CW_REPLAY shows it. -/
def Dev.linkSettled (d : Dev) (l : Nat) : Prop :=
  if d.linkUp l = true then
    ((d.link l).held ≤ d.storeSize l ∨ (d.link l).planQueue = []) ∧
    (d.storeFull l = false ∨ d.is R.CW_STATUS_drift_stopped l = true) ∧
    d.get R.CW_REPLAY_store l + d.get R.CW_REPLAY_spill l = (d.link l).held
  else (d.link l).planQueue = []

/-- The Quay ports have nothing to settle: no received pause has run out, each port pauses its sender as its buffer asks,
and no READ waits (R414, R416). -/
def Dev.quaySettled (d : Dev) : Prop :=
  (∀ q, q < 2 → ¬ (d.is R.QUAY_PORT_paused q = true ∧ tdiff d.now (tget 0 d.quay.pauseEnd q) ≥ 0) ∧
    ((d.quayUp q = true ∧ d.quayHeld q > quayFull) ↔ q ∈ d.quay.pausing)) ∧
  ∀ e ∈ d.quay.qps, e.2.waiting = []

/-- The Ferry does not wait to resume, or may not yet (R452). -/
def Dev.ferrySettled (d : Dev) : Prop :=
  d.ferry.resumes = false ∨ d.pwr.quiesceN = true ∨ d.get R.SVC_STATUS_state = svServing ∨
    d.get R.SVC_STATUS_state = svSwitching

/-- No launch send has failed, and no report of this device's subtree is due (R386). -/
def Dev.launchSettled (d : Dev) : Prop :=
  d.launch.failed = [] ∧
  (d.launch.tide = none ∨ d.launch.reported = true ∨ d.launch.asked.isSome = true ∨
    d.launch.children.any (fun c => c.ack.isNone && !c.lost) = true)

/-- Nothing follows a command: the links, the launch, serving's first step, the Quay ports, the Ferry, the power state
and the quiesce sequence have nothing to act on. -/
def Dev.nothingToSettle (d : Dev) : Prop :=
  (∀ l, l < 6 → d.linkSettled l) ∧ d.launchSettled ∧ d.quaySettled ∧ d.ferrySettled ∧
  ¬ (d.get R.SVC_STATUS_state = svSwitching ∧ d.get R.TIDE_STATUS_state = tsRunning ∧ d.svc.loading = none) ∧
  ¬ (d.powerState = psServe ∧ d.planHeld = false) ∧ ¬ (d.powerState = psIdle ∧ d.planHeld = true) ∧
  ¬ (d.pwr.quiesceStep = 1 ∧ d.quiet = true)

/-! ### The sealed meter -/

/-- One record follows another (R490): its number is the next, and `previous` is the digest of the whole record before. -/
def MeterRecord.follows (r' r : MeterRecord) : Prop :=
  r'.number = r.number + 1 ∧ (r'.bytes.drop 0xC0).take 32 = shake256 r.bytes 32

/-- A record's bytes show its number and the digest of its customer table (Table 18.2). -/
def MeterRecord.sound (r : MeterRecord) : Prop :=
  leNat ((r.bytes.drop 8).take 8) = r.number % 2 ^ 64 ∧
  (r.bytes.drop 0xA0).take 32 = shake256 (totalsBytes 4096 r.customers) 32

/-- What the sealed meter always holds (R490 to R493): the store is the last 1,024 records at most, each sound and each
following the one before; an open seal, a degraded time base and an overrange are flagged in the interval in progress;
no more OTP banks are used than there are. The totals' tables and the copies to be signed are in their forms. -/
structure MeterSt.Inv (m : MeterSt) : Prop where
  customers : tableWf {} m.customers = true
  tenants : tableWf {} m.tenants = true
  copies : ∀ x ∈ m.signing, x.energy.length = 6
  size : m.store.length ≤ 1024
  sound : ∀ r ∈ m.store, r.sound
  chain : ∀ k r r', m.store[k]? = some r → m.store[k + 1]? = some r' → r'.follows r
  sealFlag : m.sealOpen = true → bit m.flags mfSealOpen = true
  timebaseFlag : m.degraded = true → bit m.flags mfTimebase = true
  overrangeFlag : m.overrange ≠ 0 → bit m.flags mfOverrange = true
  banks : m.banks ≤ 32

/-- A class S count of `w` bits with its sat bit above them never falls: the count is no lower, and a sat bit that was
set is set. -/
def stickLe (w x y : Nat) : Prop := x % 2 ^ w ≤ y % 2 ^ w ∧ (bit x w = true → bit y w = true)

/-- A customer's or tenant's totals have not fallen (R483). -/
def TokenTotal.le (x y : TokenTotal) : Prop := stickLe 63 x.delivered y.delivered ∧ stickLe 63 x.expired y.expired

/-! ### Numbers -/

/-- The rational value of a finite value; 0 for the others. -/
def Val.rat : Val → Rat
  | .fin neg m e => (if neg then -1 else 1) * (m : Rat) * (2 : Rat) ^ e
  | _ => 0

end Sys2Proof.Machine
end

