-- ==== Sys2Proof/Certificates/Slice0/Obligations.lean ====
section
/-! DEFINITION. The statements for the provers. A completion statement names the command, the conditions on the state
and the operands under which the spec gives it its own effect, and the device that results; `after` is what follows every
command (it changes nothing on a device that has nothing to settle, as `Obligations.NothingToSettleChangesNothing` says).
Because the conclusion is the whole next state, it is the command's frame as well. -/

namespace Sys2Proof.Machine

/-! ### What the statements share -/

/-- The command answers a next state: the device given, with what follows every command; the queue and the meter as
they were. -/
def Becomes (i : Instr) (s : State) (d : Dev) : Prop := exec i s = .next { s with dev := after d }

/-- The command answers a next state in which the meter alone has changed. -/
def MeterBecomes (i : Instr) (s : State) (m : MeterSt) : Prop := exec i s = .next { s with meter := m }

/-- The command answers a next state in which the device and the meter are those given. -/
def BothBecome (i : Instr) (s : State) (d : Dev) (m : MeterSt) : Prop :=
  exec i s = .next { s with dev := d, meter := m }

end Sys2Proof.Machine

open Sys2Proof Sys2Proof.Machine

namespace Sys2Proof.Machine

/-! ### Control-word slots: what a word of one slot does around its slot -/

/-- The region at the edge with which the tick of a new word begins; landings completed in a hold are counted (R47). -/
def slotAt (r : Nat) (d : Dev) : Dev :=
  countLate r ((clearRep r d).modReg r (fun u => { u with began := u.edge }))

/-- The region where the first tick of a word begins: what was due for it has landed, and a hold is over. -/
def slotStart (r : Nat) (d : Dev) : Dev := settle r (resume r (slotAt r d))

/-- The device on which the slot acts; `f` is what a loop slot changes of the region. -/
def slotBegun (r : Nat) (g : Gov) (f : RegionSt → RegionSt) (d : Dev) : Dev :=
  let b := beginWord r g (slotStart r d)
  b.setReg r (f (b.reg r))

/-- What the slot's unit sees of the tick. -/
def slotCtx (r : Nat) (g : Gov) (f : RegionSt → RegionSt) (d : Dev) : Ctx :=
  let a := slotStart r d
  let b := beginWord r g a
  wordCtx r (a.reg r).planTicks (a.reg r).planTicks (a.imagePc r) true (f (b.reg r)).loopShadow b

/-- The target cells in which the tick is not shadow (R72). -/
def Ctx.live (x : Ctx) : List Nat := x.cells.filter (fun c => !x.isShadow c)

/-- No access of the tick meets a wrong bit or a segment of the other class (R153 to R155). -/
def accessesClean (d : Dev) (r : Nat) (own arriving : List Acc) : Prop :=
  classOk d r own = true ∧
  ∀ p ∈ eccTargets d r (own ++ arriving), (codeWords d r p.1 p.2).all (fun o => (d.cell r p.1).wrong o = 0) = true

/-- A word of one slot executes normally: its die is out of reset and no FATAL event stands (R500), no slip is to be spent
(R145), the word is well formed (R68), nothing holds it (R39, R45), its target is present (R26), and no active loop ends
inside it (R91). -/
def SlotRuns (r : Nat) (g : Gov) (f : RegionSt → RegionSt) (slot : Slot) (own : List Acc) (d : Dev) : Prop :=
  d.coreUp (dieOf r) = true ∧ d.fatal = false ∧ (d.reg r).slip = none ∧ CWord.wf { rep := 0, gov := g, slots := [slot] } = true ∧
  (slotAt r d).holdOf r { rep := 0, gov := g, slots := [slot] } = none ∧
  ((slotStart r d).targets r).any (fun c => !bit ((slotStart r d).presentCells r) c) = false ∧
  (f ((beginWord r g (slotStart r d)).reg r)).loops.any (fun k =>
    decide ((slotStart r d).imagePc r < k.last ∧ k.last < (slotStart r d).imagePc r + 7)) = false ∧
  accessesClean (slotBegun r g f d) r own (arrivingAccs (slotBegun r g f d) r (slotCtx r g f d).tick)

/-- The device after the word: `effect` is what the slot made of `slotBegun`, `own` its scratchpad accesses, `mid` the
predicates and counts it writes at the end of the tick. The writes take place, the tick and its shares are counted, slip
begins where a bank has surplus accesses, and the address of the next word is set. -/
def slotDone (r : Nat) (g : Gov) (f : RegionSt → RegionSt) (slot : Slot) (own : List Acc) (clamped : Bool)
    (mid : Dev → Dev) (effect d : Dev) : Dev :=
  let x := slotCtx r g f d
  let all := own ++ arrivingAccs (slotBegun r g f d) r x.tick
  let e := applyWrites r own effect
  let e := noteShare r (e.reg r).tideTick (usedBy all (routersOf x { rep := 0, gov := g, slots := [slot] })) e
  enterSlip r d.now
    (endTick r (banksOf all) (slipOf e r x.pc (e.reg r).tideTick all) (closeTick x 0 7 clamped (mid e)))

/-- The tile reads of the WLOADs in progress, which take place in every tick (R551). -/
def readTiles (x : Ctx) (t : Trial) : Trial := wloadReads x.r x.tick x.cells t

/-- A slot that makes no scratchpad access of its own and enters no loop: what it does before the tick's tile reads, and
after them. -/
def SlotGives (i : Instr) (s : State) (r : Region) (g : Gov) (slot : Slot) (early late : Ctx → Dev → Dev) : Prop :=
  let x := slotCtx r.val g id s.dev
  let t := readTiles x { d := early x (slotBegun r.val g id s.dev) }
  SlotRuns r.val g id slot t.accs s.dev →
  Becomes i s (slotDone r.val g id slot t.accs false id (late x t.d) s.dev)

/-- A slot whose unit can refuse its operands, given by its trial: where the trial meets no fault, the device is the
trial's, with its accesses made. -/
def SlotTries (i : Instr) (s : State) (r : Region) (g : Gov) (slot : Slot) (trial : Ctx → Trial → Trial) : Prop :=
  let t := trial (slotCtx r.val g id s.dev) { d := slotBegun r.val g id s.dev }
  t.errs = [] → SlotRuns r.val g id slot t.accs s.dev →
  Becomes i s (slotDone r.val g id slot t.accs false id t.d s.dev)

/-- Nothing. -/
def unchanged (_ : Ctx) (d : Dev) : Dev := d

/-- In each live cell a vector result is put on its way: lane by lane the value of `f`, rounded once (R123 to R125). -/
def alu (port : Nat) (bf16 : Bool) (vd va vb vc : BitVec 5) (lat : Nat) (f : Val → Val → Val → Val) (x : Ctx)
    (d : Dev) : Dev :=
  x.live.foldl (fun d c => d.modCell x.r c (fun u =>
    let lane := fun (v : BitVec 5) (i : Nat) => laneVal bf16 ((regLanes bf16 (u.vreg v.toNat)).getD i 0)
    { u with vfly := u.vfly ++ [
      { due := x.tick + lat - 1, issue := x.tick, port := port, vd := vd.toNat, shift := 0,
        data := regOfLanes bf16 ((List.range (laneCount bf16)).map (fun i =>
          toLane bf16 (f (lane va i) (lane vb i) (lane vc i)))) }] })) d

/-- The same for an operation over whole registers. -/
def aluAll (port : Nat) (bf16 : Bool) (vd va vb : BitVec 5) (lat : Nat) (f : List Nat → List Nat → List Nat) (x : Ctx)
    (d : Dev) : Dev :=
  x.live.foldl (fun d c => d.modCell x.r c (fun u =>
    { u with vfly := u.vfly ++ [
      { due := x.tick + lat - 1, issue := x.tick, port := port, vd := vd.toNat, shift := 0,
        data := regOfLanes bf16 (f (regLanes bf16 (u.vreg va.toNat)) (regLanes bf16 (u.vreg vb.toNat))) }] })) d

end Sys2Proof.Machine

/-- CLEAR (R113, R114), WSWAP (R75) and MAC (R110, R149) with the word around them. It rests on the choices of
notes/assumptions, entry 98. -/
def Obligations.ArraySlotsComplete : Prop :=
  (∀ (s : State) (r : Region) (g : Gov) (a : Fin 8) (acc : BitVec 2) (win : BitVec 8),
    SlotGives (.clear r g a acc win) s r g (.arr a (.clear acc win)) unchanged (fun x d =>
      x.live.foldl (fun d c => d.modSet r.val c a.val acc.toNat (fun _ => { win := win.toInt })) d)) ∧
  (∀ (s : State) (r : Region) (g : Gov) (a : Fin 8),
    (wswapSlot (slotCtx r.val g id s.dev) a.val
      (readTiles (slotCtx r.val g id s.dev) { d := slotBegun r.val g id s.dev })).errs = [] →
    SlotGives (.wswap r g a) s r g (.arr a .wswap) unchanged (fun x d =>
      x.live.foldl (fun d c => d.modArr r.val c a.val (fun y => { y with active := y.standby, standby := y.active })) d)) ∧
  (∀ (s : State) (r : Region) (g : Gov) (a : Fin 8) (xport acc : BitVec 2), xport.toNat ≤ 1 →
    SlotTries (.mac r g a xport acc) s r g (.arr a (.mac xport acc)) (fun x t =>
      readTiles x (x.cells.foldl (macCell x xport.toNat [(a.val, acc.toNat)]) t)))

/-- ADD, SUB, MUL, FMA (R123), MAX, MIN, CMP (R125) and CVT (R127) on V0. It rests on the choices of
notes/assumptions, entry 100. -/
def Obligations.LaneOperationsComplete : Prop :=
  ∀ (s : State) (r : Region) (g : Gov) (bf16 : Bool) (vd va vb vc m : BitVec 5),
    SlotGives (.add r g 0 bf16 vd va vb) s r g (.vec 0 ⟨.add, bf16, vd, va, vb, 0, 0, 0⟩)
      unchanged (alu 0 bf16 vd va vb 0 3 (fun a b _ => addVal a b)) ∧
    SlotGives (.sub r g 0 bf16 vd va vb) s r g (.vec 0 ⟨.sub, bf16, vd, va, vb, 0, 0, 0⟩)
      unchanged (alu 0 bf16 vd va vb 0 3 (fun a b _ => addVal a (negVal b))) ∧
    SlotGives (.mul r g 0 bf16 vd va vb) s r g (.vec 0 ⟨.mul, bf16, vd, va, vb, 0, 0, 0⟩)
      unchanged (alu 0 bf16 vd va vb 0 3 (fun a b _ => mulVal a b)) ∧
    SlotGives (.fma r g 0 bf16 vd va vb vc) s r g (.vec 0 ⟨.fma, bf16, vd, va, vb, vc, 0, 0⟩)
      unchanged (alu 0 bf16 vd va vb vc 4 fmaVal) ∧
    SlotGives (.max r g 0 bf16 vd va vb) s r g (.vec 0 ⟨.max, bf16, vd, va, vb, 0, 0, 0⟩)
      unchanged (alu 0 bf16 vd va vb 0 3 (fun a b _ => maxVal a b)) ∧
    SlotGives (.min r g 0 bf16 vd va vb) s r g (.vec 0 ⟨.min, bf16, vd, va, vb, 0, 0, 0⟩)
      unchanged (alu 0 bf16 vd va vb 0 3 (fun a b _ => minVal a b)) ∧
    SlotGives (.cmp r g 0 bf16 vd va vb m) s r g (.vec 0 ⟨.cmp, bf16, vd, va, vb, 0, m, 0⟩)
      unchanged (alu 0 bf16 vd va vb 0 3 (fun a b _ => if cmpVal m.toNat a b then .fin false 1 0 else .fin false 0 0)) ∧
    (∀ row, fmtRow m.toNat = some row → row.cvt = true → ¬ (row.code = 0x12 ∧ bf16 = true) →
      SlotGives (.cvt r g 0 bf16 vd va m) s r g (.vec 0 ⟨.cvt, bf16, vd, va, 0, 0, m, 0⟩)
        unchanged (alu 0 bf16 vd va 0 0 3 (fun a _ _ => decodeElem row (encodeElem row a))))

/-- EXP2, LOG2, RCP, RSQRT (R77, R124), TOPK (R130) and REDUCE (R126). It rests on the choices of notes/assumptions,
entry 95. -/
def Obligations.SpecialFunctionsComplete : Prop :=
  ∀ (s : State) (r : Region) (g : Gov) (p : Fin 2) (bf16 : Bool) (vd va vb m : BitVec 5),
    let taken := fun (x : Ctx) (f : Val → Val) (d : Dev) =>
      x.live.foldl (fun d c =>
        alu p.val bf16 vd va 0 0 (if bf16 then 14 else 10) (fun a _ _ => f a) { x with cells := [c], shadow := [] }
          (d.modCell r.val c (fun u => { u with sfuFree := x.tick + if bf16 then 8 else 4 }))) d
    let free := fun (op : VecOp) => (vecSlot (slotCtx r.val g id s.dev) p.val ⟨op, bf16, vd, va, 0, 0, 0, 0⟩
      (readTiles (slotCtx r.val g id s.dev) { d := slotBegun r.val g id s.dev })).errs = []
    (free .exp2 → SlotGives (.exp2 r g p bf16 vd va) s r g (.vec p ⟨.exp2, bf16, vd, va, 0, 0, 0, 0⟩)
      unchanged (fun x d => taken x exp2Val d)) ∧
    (free .log2 → SlotGives (.log2 r g p bf16 vd va) s r g (.vec p ⟨.log2, bf16, vd, va, 0, 0, 0, 0⟩)
      unchanged (fun x d => taken x log2Val d)) ∧
    (free .rcp → SlotGives (.rcp r g p bf16 vd va) s r g (.vec p ⟨.rcp, bf16, vd, va, 0, 0, 0, 0⟩)
      unchanged (fun x d => taken x rcpVal d)) ∧
    (free .rsqrt → SlotGives (.rsqrt r g p bf16 vd va) s r g (.vec p ⟨.rsqrt, bf16, vd, va, 0, 0, 0, 0⟩)
      unchanged (fun x d => taken x rsqrtVal d)) ∧
    SlotGives (.topk r g 0 false vd va vb m) s r g (.vec 0 ⟨.topk, false, vd, va, vb, 0, m, 0⟩)
      unchanged (aluAll 0 false vd va vb 8 (topkLanes (m.toNat + 1))) ∧
    SlotGives (.reduce r g 0 bf16 vd va m) s r g (.vec 0 ⟨.reduce, bf16, vd, va, 0, 0, m, 0⟩)
      unchanged (aluAll 0 bf16 vd va 0 6 (fun a _ => reduceLanes bf16 m.toNat a))

/-- LD (R128), ST (R129), RDACC (R121), SAMPLE (R131), GATHER and SCATTER (R79, R149, R547), WLOAD (R551), DRAIN
(R119). It rests on the choices of notes/assumptions, entries 9, 12, 14 and 99. -/
def Obligations.DataSlotsComplete : Prop :=
  ∀ (s : State) (r : Region) (g : Gov) (bf16 : Bool) (p : Fin 2) (a : Fin 8) (vd va vb vc m : BitVec 5) (h : BitVec 16)
    (gen acc : BitVec 2) (unit : BitVec 4) (mask : BitVec 8) (sparse : Bool),
    SlotTries (.ld r g 1 bf16 vd h) s r g (.vec 1 ⟨.ld, bf16, vd, 0, 0, 0, 0, h⟩)
      (fun x t => x.cells.foldl (ldCell x 1 ⟨.ld, bf16, vd, 0, 0, 0, 0, h⟩) (readTiles x t)) ∧
    SlotTries (.st r g 1 bf16 va m h) s r g (.vec 1 ⟨.st, bf16, 0, va, 0, 0, m, h⟩)
      (fun x t => stSlot x ⟨.st, bf16, 0, va, 0, 0, m, h⟩ (readTiles x t)) ∧
    SlotTries (.rdacc r g 1 false vd m) s r g (.vec 1 ⟨.rdacc, false, vd, 0, 0, 0, m, 0⟩)
      (fun x t => rdaccSlot x 1 ⟨.rdacc, false, vd, 0, 0, 0, m, 0⟩ (readTiles x t)) ∧
    SlotTries (.sample r g 0 false vd va vb vc h) s r g (.vec 0 ⟨.sample, false, vd, va, vb, vc, 0, h⟩)
      (fun x t => sampleSlot x 0 ⟨.sample, false, vd, va, vb, vc, 0, h⟩ (readTiles x t)) ∧
    SlotTries (.gather r g p gen unit mask) s r g (.xbar p ⟨false, gen, unit, mask⟩)
      (fun x t => readTiles x (gatherSlot x p.val ⟨false, gen, unit, mask⟩ t)) ∧
    SlotTries (.scatter r g p gen unit mask) s r g (.xbar p ⟨true, gen, unit, mask⟩)
      (fun x t => scatterSlot x p.val ⟨true, gen, unit, mask⟩ (readTiles x t)) ∧
    SlotTries (.wload r g a sparse h) s r g (.arr a (.wload sparse h)) (fun x t => readTiles x (wloadSlot x a.val sparse h t)) ∧
    SlotTries (.drain r g a acc gen h) s r g (.arr a (.drain acc gen h)) (fun x t => drainSlot x a.val acc gen h (readTiles x t))

namespace Sys2Proof.Machine

/-- A loop slot: `f` is what it makes of the region. -/
def SlotLoops (i : Instr) (s : State) (r : Region) (g : Gov) (slot : Slot) (f : RegionSt → RegionSt) (clamped : Bool) :
    Prop :=
  let t := readTiles (slotCtx r.val g f s.dev) { d := slotBegun r.val g f s.dev }
  SlotRuns r.val g f slot t.accs s.dev →
  Becomes i s (slotDone r.val g f slot t.accs clamped id t.d s.dev)

/-- A slot that writes predicates or counts at the end of the tick. -/
def SlotEnds (i : Instr) (s : State) (r : Region) (g : Gov) (slot : Slot) (mid : Ctx → Dev → Dev) : Prop :=
  let x := slotCtx r.val g id s.dev
  let t := readTiles x { d := slotBegun r.val g id s.dev }
  SlotRuns r.val g id slot t.accs s.dev →
  Becomes i s (slotDone r.val g id slot t.accs false (mid x) t.d s.dev)

/-- A predicate is written in every live cell (R84). -/
def predicates (pd : BitVec 4) (v : Dev → Nat → Bool) (x : Ctx) (d : Dev) : Dev :=
  x.live.foldl (fun d c => d.modCell x.r c (fun u =>
    { u with preds := BitVec.ofNat 16 (setBit u.preds.toNat pd.toNat (v d c)) })) d

end Sys2Proof.Machine

/-- START, STEP, SETPOS (R78). It rests on the choices of notes/assumptions, entry 92. -/
def Obligations.GeneratorSlotsComplete : Prop :=
  ∀ (s : State) (r : Region) (g : Gov) (k : Fin 4),
    let b := slotBegun r.val g id s.dev
    let put := fun (v : GenState) (_ : Ctx) (d : Dev) =>
      d.modReg r.val (fun u => { u with gens := tput none u.gens k.val (some v) })
    (∀ (h : BitVec 16) (desc : Desc) (sel : Nat), b.resolve r.val h (slotCtx r.val g id s.dev).start = .ok (desc, sel) →
      SlotGives (.start r g k h) s r g (.gen k (.start h)) (put { desc := desc, select := sel, pos := 0 }) unchanged) ∧
    (∀ (n : BitVec 24) (v : GenState), tget none (b.reg r.val).gens k.val = some v →
      SlotGives (.step r g k n) s r g (.gen k (.step n)) (put { v with pos := (v.pos + n.toNat) % v.desc.total })
        unchanged ∧
      SlotGives (.setpos r g k n) s r g (.gen k (.setpos n)) (put { v with pos := n.toNat % v.desc.total }) unchanged)

/-- CSEND and BSEND (R80), XSEND and XRECV (R38, R548), LSEND (R392, R548), LAND (R44), LREAD (R548). It rests on the
choices of notes/assumptions, entries 13, 15 and 62. -/
def Obligations.TransferSlotsComplete : Prop :=
  ∀ (s : State) (r : Region) (g : Gov) (p : Fin 2) (h : BitVec 16) (cell channel link : BitVec 3) (block : BitVec 2)
    (source : BitVec 4) (index : BitVec 16) (stream landing : BitVec 8),
    SlotTries (.csend r g p cell h) s r g (.xfer p (.csend cell h)) (fun x t =>
      readTiles x (cellSend x p.val 0 4 (fun c => c / blockSize r.val * blockSize r.val + cell.toNat) cell.toNat h t)) ∧
    SlotTries (.bsend r g p block cell h) s r g (.xfer p (.bsend block cell h)) (fun x t =>
      readTiles x (cellSend x p.val 1 10 (fun _ => block.toNat * blockSize r.val + cell.toNat) cell.toNat h t)) ∧
    SlotTries (.xsend r g p channel) s r g (.xfer p (.xsend channel)) (fun x t =>
      readTiles x (xsendSlot x p.val channel.toNat t)) ∧
    SlotTries (.xrecv r g p source channel h) s r g (.xfer p (.xrecv source channel h)) (fun x t =>
      readTiles x (xrecvSlot x p.val source.toNat channel.toNat h t)) ∧
    SlotTries (.lsend r g p link index stream h) s r g (.xfer p (.lsend link index stream h)) (fun x t =>
      readTiles x (lsendSlot x p.val link.toNat index.toNat stream.toNat h t)) ∧
    SlotTries (.lread r g p landing h) s r g (.xfer p (.lread landing h)) (fun x t =>
      readTiles x (lreadSlot x p.val landing.toNat h t)) ∧
    (((slotBegun r.val g id s.dev).landing r.val landing.toNat).isSome →
      SlotGives (.land r g p landing) s r g (.xfer p (.land landing)) unchanged unchanged)

/-- LOOPF (R86), LOOPB (R87, R88), JMP and END (R92). -/
def Obligations.LoopSlotsComplete : Prop :=
  ∀ (s : State) (r : Region) (g : Gov) (last target : BitVec 21) (count : BitVec 20) (n : BitVec 4)
    (ceiling : BitVec 16),
    let a := slotStart r.val s.dev
    let b := beginWord r.val g a
    let u := b.reg r.val
    let ia := a.imagePc r.val
    let lia := b.lastPage r.val (ia / 32768) (last.toNat / 32768) * 32768 + last.toNat % 32768
    let shadow := u.loopShadow || (match b.leadCell r.val with
      | some c => b.govShadow r.val c
      | none => true)
    let tally := if shadow then 0 else b.get R.SEQ_LOOP_COUNT_count (r.val * 16 + n.toNat)
    let enter := fun (k : LoopFrame) (u : RegionSt) => { u with loops := k :: u.loops }
    ((a.reg r.val).skipL = false → u.loops.length < 8 → ia ≤ lia → (∀ k ∈ u.loops.head?, lia ≤ k.last) →
      SlotLoops (.loopf r g last count) s r g (.loop (.loopf last count))
        (enter ⟨false, ia, lia, count.toNat + 1, count.toNat + 1, 0⟩) false ∧
      SlotLoops (.loopb r g false last n ceiling) s r g (.loop (.loopb false last n ceiling))
        (enter ⟨true, ia, lia, ceiling.toNat, Nat.min tally ceiling.toNat, 0⟩) (decide (tally > ceiling.toNat))) ∧
    ((a.reg r.val).skipL = false → ∀ q, b.jumpPage r.val (ia / 32768) (target.toNat / 32768) = some q →
      (∀ k ∈ u.loops.head?, k.start < q * 32768 + target.toNat % 32768 ∧ q * 32768 + target.toNat % 32768 ≤ k.last) →
      (∀ k ∈ u.loops, k.last ≠ ia) →
      SlotLoops (.jmp r g target) s r g (.loop (.jmp target))
        (fun u => { u with jump := some (q * 32768 + target.toNat % 32768) }) false) ∧
    ((a.reg r.val).skipL = false → u.loops = [] →
      SlotLoops (.planEnd r g) s r g (.loop .done) (fun u => { u with endPending := true }) false) ∧
    ((a.reg r.val).skipL = true →
      SlotLoops (.loopf r g last count) s r g (.loop (.loopf last count)) id false)

/-- DLOAD, DBASE, CNTSRC, CNTLD, CNTSET (R82, R83). It rests on the choices of notes/assumptions, entry 94. -/
def Obligations.DescriptorSlotsComplete : Prop :=
  ∀ (s : State) (r : Region) (g : Gov) (gen : BitVec 2) (h : BitVec 16) (dim : BitVec 3) (n : BitVec 4)
    (value : BitVec 24),
    let x := slotCtx r.val g id s.dev
    SlotTries (.dload r g gen h) s r g (.desc (.dload gen h)) (fun x t =>
      descReads x gen.toNat 8 (readTiles x t) (fun ws t => { t with d := tableWrite x h ⟨ws⟩ t.d })) ∧
    SlotTries (.dbase r g gen h) s r g (.desc (.dbase gen h)) (fun x t =>
      descReads x gen.toNat 1 (readTiles x t) (fun ws t =>
        let old := (t.d.reg x.r).latest (h.toNat % 4096)
        { t with d := tableWrite x h ⟨(List.range 8).map (fun i => if i = 0 then ws.headD 0 else old.words.getD i 0)⟩ t.d })) ∧
    SlotEnds (.cntsrc r g dim h) s r g (.desc (.cntsrc dim h)) unchanged ∧
    (x.leadShadow = false →
      SlotEnds (.cntset r g value n) s r g (.desc (.cntset value n)) (fun _ d =>
        d.setRw R.SEQ_LOOP_COUNT_count (r.val * 16 + n.toNat) value.toNat) ∧
      ∀ desc sel, (slotBegun r.val g id s.dev).resolve r.val h x.start = .ok (desc, sel) →
        SlotEnds (.cntld r g dim n h) s r g (.desc (.cntld dim n h)) (fun _ d =>
          d.setRw R.SEQ_LOOP_COUNT_count (r.val * 16 + n.toNat) (desc.extent dim.toNat))) ∧
    (x.leadShadow = true →
      SlotEnds (.cntset r g value n) s r g (.desc (.cntset value n)) unchanged ∧
      SlotEnds (.cntld r g dim n h) s r g (.desc (.cntld dim n h)) unchanged)

/-- PCIX, PLOG, PVEC, PCNT (R84). It rests on the choices of notes/assumptions, entry 16. -/
def Obligations.PredicateSlotsComplete : Prop :=
  ∀ (s : State) (r : Region) (g : Gov) (pd pa pb n : BitVec 4) (select op : BitVec 2) (cmp : BitVec 3)
    (imm : BitVec 24) (reg : BitVec 5) (lane : BitVec 7),
    SlotEnds (.pcix r g pd select cmp imm) s r g (.pred (.pcix pd select cmp imm)) (predicates pd (fun d c =>
      let v := d.cix r.val c select.toNat
      if cmp = 0 then decide (v = imm.toNat) else if cmp = 1 then decide (v ≠ imm.toNat)
      else if cmp = 2 then decide (v < imm.toNat) else decide (v ≥ imm.toNat))) ∧
    SlotEnds (.plog r g pd pa pb op) s r g (.pred (.plog pd pa pb op)) (predicates pd (fun d c =>
      let a := (d.cell r.val c).pred pa.toNat
      let b := (d.cell r.val c).pred pb.toNat
      if op = 0 then a && b else if op = 1 then a || b else if op = 2 then a != b else a && !b)) ∧
    SlotEnds (.pcnt r g pd n imm) s r g (.pred (.pcnt pd n imm)) (predicates pd (fun d _ =>
      decide (d.get R.SEQ_LOOP_COUNT_count (r.val * 16 + n.toNat) > imm.toNat))) ∧
    SlotEnds (.pvec r g pd reg lane) s r g (.pred (.pvec pd reg lane)) (fun x d =>
      x.live.foldl (fun d c =>
        let v := pvecBit ((d.cell r.val c).vreg reg.toNat) lane.toNat (bit (d.planFree r.val (some c) x.tick 130) 0)
        d.modCell r.val c (fun u =>
          { u with preds := BitVec.ofNat 16 (setBit u.preds.toNat pd.toNat v) })) d)

/-- DEV_FUNC_MODE_WRITE (R23, R24), MODE_CHANGE_EFFECT (R23), KEEPER_ACCESS (R17), KEEPER_RESTART_DONE (R19),
ABSENT_ENGINE_ACCESS (R28). It rests on the choices of notes/assumptions, entry 58. -/
def Obligations.DeviceCommandsComplete : Prop :=
  (∀ (s : State) (v : BitVec 10), Becomes (.devFuncModeWrite v) s
    ((List.range 10).foldl (fun d fn => d.set (modeField fn) 0 (bits v.toNat fn 1)) s.dev)) ∧
  (∀ (s : State) (fn : Fin 10),
    let active := s.dev.get R.DEV_FUNC_MODE_ACTIVE_active
    let want := s.dev.get (modeField fn.val)
    let e := if fn.val = 1 then modeLinks s.dev else s.dev
    flag (bit active fn.val) ≠ want → e.modeQuiet fn.val = true →
    let d := e.set R.DEV_FUNC_MODE_ACTIVE_active 0 (setBit active fn.val (decide (want = 1)))
    Becomes (.modeChangeEffect fn) s
      ((if fn.val = 2 then d.modTime (fun x => { x with adjSince := d.now })
        else if fn.val = 9 then modSvc (fun v => { v with refillAt := d.now, refills := 0 }) d else d).raise
        E.MODE_CHANGED none (some fn.val))) ∧
  (∀ (s : State) (a : Word),
    (s.dev.keeperBarred a.toNat = true → Becomes (.keeperAccess a) s (s.dev.raise E.KEEPER_ACCESS)) ∧
    (s.dev.keeperBarred a.toNat = false → Becomes (.keeperAccess a) s s.dev)) ∧
  (∀ s : State, s.dev.coreUp 1 = true → s.dev.fabric.keeperRestart = true →
    Becomes .keeperRestartDone s (s.dev.fabric.mgmt.foldl (fun d w => keeperAnswer w.1 w.2 d)
      { s.dev with fabric := { s.dev.fabric with mgmt := [], keeperRestart := false } })) ∧
  (∀ (s : State) (off : BitVec 25) (wr : Bool) (w : RegWord) (i : Nat), regAt (off.toNat / 8 * 8) = some (w, i) →
    (∀ r c, cellOfWord w.word i = some (r, c) → s.dev.cellPresent r c = false →
      Becomes (.absentEngineAccess off wr) s (s.dev.raise E.ABSENT_ENGINE (some r) (some c))) ∧
    (cellOfWord w.word i = none → s.dev.absentReg w.word i = true →
      Becomes (.absentEngineAccess off wr) s (s.dev.raise E.ABSENT_ENGINE)))

/-- TIDE_CONFIG_WRITE (R31), TIDE_CTL_WRITE (Table 2.7), SEQ_LOOP_COUNT_WRITE (Table 3.16), COUNTER_CLEAR (R8). -/
def Obligations.TideRegisterWritesComplete : Prop :=
  (∀ (s : State) (v : Word), s.dev.coreUp 1 = true →
    (s.dev.get R.TIDE_STATUS_state = tsStopped →
      Becomes (.tideConfigWrite true v) s (s.dev.set R.TIDE_ORIGIN_origin 0 v.toNat) ∧
      let p := v.toNat % 2 ^ 21
      ((p % 16 = 0 ∧ 65536 ≤ p ∧ p ≤ 1048576) →
        Becomes (.tideConfigWrite false v) s (showCapacity (s.dev.set R.TIDE_PERIOD_period 0 p))) ∧
      (¬ (p % 16 = 0 ∧ 65536 ≤ p ∧ p ≤ 1048576) →
        Becomes (.tideConfigWrite false v) s (s.dev.raise E.TIDE_CONFIG_REFUSED))) ∧
    (s.dev.get R.TIDE_STATUS_state ≠ tsStopped → ∀ origin,
      Becomes (.tideConfigWrite origin v) s (s.dev.raise E.TIDE_CONFIG_REFUSED))) ∧
  (∀ (s : State) (v : Word), s.dev.coreUp 1 = true →
    Becomes (.tideCtlWrite v) s (((((s.dev.store R.TIDE_CTL_overrun_policy 0 (bits v.toNat 0 1)).store
      R.TIDE_CTL_lag_limit 0 (bits v.toNat 4 4)).store R.TIDE_CTL_landing_grace 0 (bits v.toNat 8 12)).store
      R.TIDE_CTL_tick_cap 0 (Nat.max 256 (bits v.toNat 20 14))).store R.TIDE_CTL_wake_lead 0
      (Nat.max 16 (bits v.toNat 40 8)))) ∧
  (∀ (s : State) (r : Region) (n : Fin 16) (v : BitVec 32), s.dev.coreUp (dieOf r.val) = true →
    let st := s.dev.get R.TIDE_STATUS_state
    ((st ≠ tsArmed ∧ st ≠ tsRunning) → Becomes (.seqLoopCountWrite r n v) s
      (s.dev.store R.SEQ_LOOP_COUNT_count (r.val * 16 + n.val) v.toNat)) ∧
    ((st = tsRunning ∨ st = tsArmed) → Becomes (.seqLoopCountWrite r n v) s (s.dev.raise E.SEQ_WRITE_REFUSED (some r.val)))) ∧
  (∀ (s : State) (off : BitVec 25) (w : RegWord) (i : Nat), regAt off.toNat = some (w, i) →
    s.dev.absentReg w.word i = false → s.dev.regHeld w i = false → w.clears = true →
    Becomes (.counterClear off) s (clearCounters w.word i s.dev))

/-- TIDE_MARK (R30, R303), REGION_WAKE (R34), TIDE_START and TIDE_END (R36), ARMED_START (R56), TIDE_DEADLINE_EXPIRY
(R48 to R50), HOLD_LIMIT_EXPIRY (R55), LANDING_GRACE_EXPIRY (R45), CROSSING_ARRIVAL (R38). It rests on the choices of
notes/assumptions, entries 62, 91 and 108. -/
def Obligations.TideOccasionsComplete : Prop :=
  ∀ (s : State) (t : Time), s.dev.fatal = false →
    let d := s.dev.advance t
    let st := d.get R.TIDE_STATUS_state
    let k := d.get R.TIDE_NUMBER_tide
    (s.dev.coreUp 1 = true →
      (∀ n, d.markAt t = some n →
        let e := if st = tsStopped ∨ st = tsArmed then d.set R.TIDE_NUMBER_tide 0 n else d
        Becomes (.tideMark t) s (markServing t (((List.range 6).filter (fun l => e.linkUp l)).foldl (fun d l =>
          d.modLink l (fun x => { x with syncDue := true })) e))) ∧
      (∀ e, d.tide.ended = some e → st = tsRunning → d.svc.due = none →
        let start := if tdiff (d.markOf (k + 1)) e ≥ 0 then d.markOf (k + 1) else e
        tdiff t start ≥ 0 → Becomes (.tideStart t) s (startTide (k + 1) start d)) ∧
      (st = tsArmed → d.tide.quiesce = false → tdiff t (d.markOf (d.get R.TIDE_LAUNCH_launch_tide)) ≥ 0 →
        Becomes (.armedStart t) s
          (startTide (d.get R.TIDE_LAUNCH_launch_tide) (d.markOf (d.get R.TIDE_LAUNCH_launch_tide))
            (d.set R.TIDE_STATUS_state 0 tsRunning))) ∧
      (d.tideEnds = true → (endTide t d).get R.TIDE_STATUS_state ≠ tsFaulted →
        Becomes (.tideEnd t) s (noteStepEnd k t (endTide t d))) ∧
      (st = tsRunning → d.tide.ended = none → d.is R.TIDE_STATUS_deferred = false →
        tdiff t d.tide.startTime ≥ (d.get R.TIDE_PERIOD_period : Nat) →
        (d.tide.policy = 0 → Becomes (.tideDeadlineExpiry t) s (d.raise E.TIDE_OVERRUN)) ∧
        (d.tide.policy ≠ 0 → Becomes (.tideDeadlineExpiry t) s
          (((d.set R.TIDE_STATUS_deferred 0 1).inc C.TIDE_COUNTS_overruns).raise E.TIDE_DEFERRED)))) ∧
    (∀ r : Region, s.dev.coreUp (dieOf r.val) = true →
      (∀ h, (d.reg r.val).hold = some h → tdiff t h.since > (d.get R.TIDE_HOLD_LIMIT_limit : Nat) →
        Becomes (.holdLimitExpiry r t) s (d.raise E.HOLD_LIMIT (some r.val))) ∧
      (∀ h, (d.reg r.val).hold = some h → h.landTicks ≥ d.tide.grace →
        Becomes (.landingGraceExpiry r t) s ((h.lands.filter (d.landOpen r.val)).foldl (fun d id =>
          (d.missLanding r.val id (d.get R.TIDE_NUMBER_tide)).raise E.LANDING_MISSED (some r.val)) d)) ∧
      (∀ (ch : Fin 8) f rest, (s.dev.chan r.val ch.val).flying = f :: rest → f.ist = false →
        Becomes (.crossingArrival r ch) s (s.dev.modChan r.val ch.val (fun c =>
          { c with flying := rest, fifo := c.fifo ++ [f.data] }))) ∧
      (tableWf ({} : RegionSt) s.dev.regions = true → r.val ∈ d.usedRegions →
        tdiff t (if st = tsArmed then d.markOf (d.get R.TIDE_LAUNCH_launch_tide) else d.markOf (k + 1)) ≥
          -((d.tide.wakeLead * nsU : Nat) : Int) → (st = tsArmed ∨ st = tsRunning) →
        ((d.reg r.val).phase = .dark ∨ (d.reg r.val).phase = .done) → (d.reg r.val).started = false →
        Becomes (.regionWake r t) s
          (clearGates r.val (d.modReg r.val (fun u => { u with phase := .wake, edge := t })))))

/-- PLAN_TICK (R69), HOLD_TICK (R39, R40), SLIP_PERIOD (R145, R146). It rests on the choices of notes/assumptions,
entries 93 and 96. -/
def Obligations.RegionPeriodsComplete : Prop :=
  ∀ (s : State) (r : Region) (t : Time) (us : List Upset), s.dev.fatal = false → s.dev.coreUp (dieOf r.val) = true →
    let d := s.dev.advance t
    let struck := takeUpsets r.val us d
    let since := (struck.reg r.val).edge
    let e' := struck.modReg r.val (fun u => { u with began := u.edge, edge := struck.now })
    let e := countLate r.val e'
    let b' := e'.modReg r.val (fun u => { u with phase := .run })
    let b := countLate r.val b'
    (d.running r.val = true → (d.reg r.val).slip = none → (d.reg r.val).tideTick < d.plan.ticks →
      (b'.is R.SEQ_STATUS_ended r.val = true →
        Becomes (.planTick r t us) s (finishTide r.val (enterSlip r.val b'.now (idleTick r.val b')))) ∧
      (b'.is R.SEQ_STATUS_ended r.val = false → ∀ w n, b'.fetch r.val = .word w n →
        (b.holdOf r.val w = none → Becomes (.planTick r t us) s (finishTide r.val (enterSlip r.val b'.now
          (wordTick r.val w n (b'.reg r.val).repLeft.isNone (resume r.val b))))) ∧
        (b.holdOf r.val w = some .recv → Becomes (.planTick r t us) s (finishTide r.val (enterSlip r.val b'.now
          (holdRegion r.val .recv [] since b)))))) ∧
    (∀ h, (d.reg r.val).hold = some h → h.kind ≠ .slip → e'.is R.SEQ_STATUS_ended r.val = false →
      ∀ w n, e'.fetch r.val = .word w n →
        (e.holdOf r.val w = none → Becomes (.holdTick r t us) s (finishTide r.val (enterSlip r.val e'.now
          (wordTick r.val w n (e'.reg r.val).repLeft.isNone (resume r.val e))))) ∧
        (e.holdOf r.val w = some .send → Becomes (.holdTick r t us) s (finishTide r.val (enterSlip r.val e'.now
          (holdRegion r.val .send [] since e))))) ∧
    (∀ x, (d.reg r.val).slip = some x → x.recorded = true →
      let p := holdPeriod r.val (d.modReg r.val (fun u => { u with began := u.edge, edge := d.now }))
      (x.left > 1 → Becomes (.slipPeriod r t) s (p.modReg r.val (fun u =>
        { u with slip := some { x with left := x.left - 1, recorded := true } }))) ∧
      (x.left ≤ 1 → Becomes (.slipPeriod r t) s
        (finishTide r.val (endHold r.val (p.modReg r.val (fun u => { u with slip := none }))))))

/-- MAC_CONTRIBUTION (R115, R140), VECTOR_RESULT and ST_WRITE (R133), TRANSFER_DELIVERY (R80, R144), WLOAD_COMPLETE
(R74), RING_PAGE_FILL (R97, R99). It rests on the choices of notes/assumptions, entry 97. -/
def Obligations.DeliveriesComplete : Prop :=
  ∀ (s : State) (r : Region), s.dev.coreUp (dieOf r.val) = true → s.dev.fatal = false →
    let tick := (s.dev.reg r.val).planTicks
    (tick ≠ 0 →
      Becomes (.macContribution r) s ((s.dev.targets r.val).foldl (fun d c => (List.range 8).foldl (fun d a =>
        let x := d.arr r.val c a
        if x.flying.all (fun f => decide (¬ f.due < tick)) then d
        else
          let y := x.enterDue (tick - 1)
          let d := d.modArr r.val c a (fun _ => y.1)
          if y.2 = 0 then d else d.inc C.SEQ_ARITH_below r.val y.2) d) s.dev) ∧
      Becomes (.vectorResult r) s ((s.dev.targets r.val).foldl (fun d c =>
        if (d.cell r.val c).vfly = [] then d else d.modCell r.val c (fun x => x.landResults (tick - 1))) s.dev) ∧
      Becomes (.wloadComplete r) s ((s.dev.targets r.val).foldl (fun d c =>
        (List.range 8).foldl (fun d a => finishLoad r.val c a (tick - 1) d) d) s.dev)) ∧
    Becomes (.stWrite r) s ((s.dev.targets r.val).foldl (fun d c =>
      let due := dueBefore (d.cell r.val c).stores tick
      if due = [] then d
      else (landItems r.val c tick due d).modCell r.val c (fun x =>
        { x with stores := x.stores.filter (fun w => decide (¬ w.due < tick)) })) s.dev) ∧
    Becomes (.transferDelivery r) s ((s.dev.targets r.val).foldl (fun d c =>
      let due := dueBefore (d.cell r.val c).deliveries tick
      if due = [] then d
      else (landItems r.val c tick due d).modCell r.val c (fun x =>
        { x with deliveries := x.deliveries.filter (fun w => decide (¬ w.due < tick)) })) s.dev) ∧
    (let u := s.dev.reg r.val
     let q := u.nextFill
     let p := s.dev.planPage r.val q
     let old := tget 0 u.ring p
     u.streamRun = true → s.dev.get R.SEQ_STREAM_ring_pages r.val ≠ 0 →
     s.dev.get R.SEQ_STREAM_resident_pages r.val ≤ q → q < u.imagePages →
     (old = 0 ∨ (old ≤ u.leftPages ∧ old - 1 ≠ s.dev.get R.SEQ_STREAM_pc_page r.val ∧
       ∀ f ∈ u.loops, f.start / 32768 ≠ old - 1)) →
     let die := bits (u.pagesAt + q * 65536) 39 1
     let a := bits (u.pagesAt + q * 65536) 0 39
     let x := hbmRead byPlan (some r.val) die a 65536 s.dev
     (x.2 = true → Becomes (.ringPageFill r) s x.1) ∧
     (x.2 = false → Becomes (.ringPageFill r) s
       (({ x.1 with mem := copyMem x.1.mem (hbmKey die a) 65536 (planKey r.val (p * 65536)) x.1.mem }.modReg r.val
         (fun u => { u with ring := tput 0 u.ring p (q + 1), nextFill := q + 1 })).set R.SEQ_STREAM_fill_page r.val q)))

/-- SP_PATROL_SCRUB (R156), SEG_CLASS_WRITE and SEG_REINIT_DONE (R152, R523), HARBOUR_WRITE (R160, R164). It rests on
the choices of notes/assumptions, entries 17 and 102. -/
def Obligations.ScratchpadCommandsComplete : Prop :=
  ∀ (s : State) (r : Region), s.dev.coreUp (dieOf r.val) = true →
    (∀ us, Becomes (.spPatrolScrub r us) s
      (let d := takeUpsets r.val us s.dev
       ((cellsOf r.val).filter (d.cellPresent r.val)).foldl (fun d c =>
        let row := (d.cell r.val c).scrubRow
        let mine := distinct ((((d.cell r.val c).spErr.map (fun e => e.1 * 8)).filter (fun o =>
          decide (rowOf o = row) && !(d.cell r.val c).reinit.getLsbD (segOf o))).map (codeBase d r.val c))
        (mine.foldl (fun d o =>
          if (codeWords d r.val c o).all (fun w => (d.cell r.val c).wrong w = 0) then d
          else
            let x := eccRead r.val c o d
            if x.2 then x.1.raise E.SP_SCRUB_UE (some r.val) (some c) else x.1) d).modCell r.val c (fun x =>
              { x with scrubRow := (row + 1) % (spSize r.val / 2048) })) d)) ∧
    (∀ (c : Fin 32) (v : Word), s.dev.cellPresent r.val c.val = true →
      let i := cellIx r.val c.val
      let m := if r.val < 8 then v.toNat % 2 ^ 64 else v.toNat % 2 ^ 32
      ((s.dev.get R.TIDE_STATUS_state = tsStopped ∧ s.dev.admitLocked (dieOf r.val) = false) →
        Becomes (.segClassWrite r c v) s ((s.dev.set R.SP_SEG_CLASS_weight i m).modCell r.val c.val (fun x =>
          { x with
            reinit := x.reinit ||| BitVec.ofNat 64 (Nat.xor (s.dev.get R.SP_SEG_CLASS_weight i) m)
            loaded := ((List.range (spSize r.val / 65536)).filter (fun g =>
              bit (s.dev.get R.SP_SEG_CLASS_weight i) g ≠ bit m g)).foldl (fun m g => tput none m g none) x.loaded }))) ∧
      (¬ (s.dev.get R.TIDE_STATUS_state = tsStopped ∧ s.dev.admitLocked (dieOf r.val) = false) →
        Becomes (.segClassWrite r c v) s s.dev)) ∧
    (∀ (c : Fin 32) (seg : Fin 64), (s.dev.cell r.val c.val).reinit.getLsbD seg.val = true →
      let lo := spKey r.val c.val (seg.val * 65536)
      Becomes (.segReinitDone r c seg) s
        ({ s.dev with mem := s.dev.mem.filter (fun p => !decide (lo ≤ p.1 ∧ p.1 < lo + 65536)) }.modCell r.val c.val
          (fun x => { x with reinit := x.reinit &&& ~~~ (1#64 <<< seg.val),
                             spErr := x.spErr.filter (fun e => !decide (e.1 / 8192 = seg.val)) }))) ∧
    (∀ (c : Fin 32) (w : Fin 8) (v : Word) (bar2 : Bool), s.dev.cellPresent r.val c.val = true →
      let i := cellIx r.val c.val * 8 + w.val
      let base := bits v.toNat 16 16
      let size := bits v.toNat 32 17
      let bad := bit v.toNat 0 && decide (size = 0 ∨ (base + size) * 64 > spSize r.val)
      let d := ((((s.dev.store R.SP_HARBOUR_open i (flag (bit v.toNat 0 && !bad))).store R.SP_HARBOUR_write_rights i
        (bits v.toNat 4 4)).store R.SP_HARBOUR_read_rights i (bits v.toNat 8 4)).store R.SP_HARBOUR_base i base).store
        R.SP_HARBOUR_size i size
      (bad = false → Becomes (.harbourWrite r c w v bar2) s d) ∧
      (bad = true → Becomes (.harbourWrite r c w v bar2) s (d.raise E.HARBOUR_CONFIG (some r.val) (some c.val))))

/-- HBM_PATROL_SCRUB (R172), HBM_READ_ARRIVAL (R175, R171), HBM_WRITE_ACCEPT (R176), HB_AREA_WRITE (R169, R523). It
rests on the choices of notes/assumptions, entries 17 and 63. -/
def Obligations.HbmCommandsComplete : Prop :=
  (∀ (s : State) (st : Stack) (a len : BitVec 39) us, s.dev.coreUp (dieOfStack st.val) = true →
    s.dev.powerState ≠ psPark → s.dev.stackTrains st.val = false →
    let d := takeHbmUpsets us s.dev
    (d.is R.HB_SCRUB_enable = true → Becomes (.hbmPatrolScrub st a len us) s
      ((d.hbmErr.filter (fun e => let x := e.1 % 2 ^ 34 * 32
        decide (e.1 / 2 ^ 34 = dieOfStack st.val ∧ stackOf (dieOfStack st.val) x = st.val ∧ a.toNat ≤ x ∧
          x < a.toNat + len.toNat))).foldl (fun d e => (readHalf byScrub none e.1 e.2 d).1) d)) ∧
    (d.is R.HB_SCRUB_enable = false → Becomes (.hbmPatrolScrub st a len us) s d)) ∧
  (∀ (s : State) (r : Region) (id : BitVec 8) us l n, s.dev.coreUp (dieOf r.val) = true → s.dev.fatal = false →
    s.dev.streamLines r.val id.toNat 64 = [] →
    let d := takeHbmUpsets us s.dev
    let j := d.get R.TIDE_NUMBER_tide
    let from0 := d.streamAt l + 64 * n
    let x := hbmRead byPlan (some r.val) (dieOf r.val) from0 64 d
    d.landing r.val id.toNat = some l → d.streamReady l = true → (d.reg r.val).streamRun = true →
    d.landedUnits l j = n →
    64 * n < l.bytes →
    (x.2 = true → Becomes (.hbmReadArrival r id us) s x.1) ∧
    (x.2 = false → Becomes (.hbmReadArrival r id us) s (x.1.landWrite l 0 j 0 (fun n => 64 * n)
      (mbytes x.1.mem (hbmKey (dieOf r.val) from0) (Nat.min 64 (l.bytes - 64 * n))) ((l.bytes + 63) / 64)))) ∧
  (∀ (s : State) (r : Region) (id : BitVec 8) (c : Fin 32) (off : BitVec 22) l j n,
    s.dev.coreUp (dieOf r.val) = true → s.dev.fatal = false → s.dev.streamLines r.val id.toNat 8 = [] →
    s.dev.landing r.val id.toNat = some l → l.kind = 2 → (s.dev.reg r.val).streamRun = true →
    s.dev.cellPresent r.val c.val = true → off.toNat + 8 ≤ spSize r.val →
    dueTide l (s.dev.get R.TIDE_NUMBER_tide) = some j →
    s.dev.landedUnits l j = n →
    8 * n < l.bytes →
    let src := off.toNat / 8 * 8
    let x := eccWords r.val c.val [src] s.dev
    (x.2 = true → Becomes (.hbmWriteAccept r id c off) s (x.1.raise E.SP_UNCORRECTABLE (some r.val) (some c.val))) ∧
    (x.2 = false → Becomes (.hbmWriteAccept r id c off) s
      ((hbmWrite (dieOf r.val) (s.dev.streamAt l + 8 * n) (mbytes x.1.mem (spKey r.val c.val src) 8) x.1).landWrite
        l 0 j 0 (fun _ => 0) [] ((l.bytes + 7) / 8)))) ∧
  (∀ (s : State) (die : Die) (a : Fin 8) (v : Word), s.dev.coreUp die.val = true →
    let base := bits v.toNat 0 24
    let size := bits v.toNat 24 24
    let i := die.val * 8 + a.val
    let clash := ∃ o < 8, o ≠ a.val ∧ 0 < (s.dev.area die.val o).2 ∧ 0 < size ∧
      base * 65536 < (s.dev.area die.val o).1 + (s.dev.area die.val o).2 ∧
      (s.dev.area die.val o).1 < base * 65536 + size * 65536
    (s.dev.bootLocked die.val = true → Becomes (.hbAreaWrite die a v) s s.dev) ∧
    (s.dev.bootLocked die.val = false →
      ((¬ clash ∧ (base + size) * 65536 ≤ hbmSize die.val) →
        Becomes (.hbAreaWrite die a v) s ((s.dev.set R.HB_AREA_base i base).set R.HB_AREA_size i size)) ∧
      (¬ (¬ clash ∧ (base + size) * 65536 ≤ hbmSize die.val) →
        Becomes (.hbAreaWrite die a v) s (s.dev.raise E.HB_AREA_CONFIG none (some i)))))

/-- FETCH, PUSH, RECV, EVICT (R181, R182, R195), MIRROR (R198), REHASH (R201), FERRY_FORMAT and FERRY_RING_TAIL_WRITE
(R181). -/
def Obligations.FerryCommandsStart : Prop :=
  (∀ (s : State) (v : Word), s.dev.coreUp 1 = true →
    Becomes (.ferryRingTailWrite v) s (s.dev.set R.FERRY_RING_TAIL_tail 0 v.toNat)) ∧
  (∀ (s : State) (t : Time) (i : Nat), s.dev.coreUp 1 = true →
    let d := s.dev.advance t
    d.freeRun = some i →
    (∀ c, d.nextFerry = some (c, true) →
      let own := d.ownNext fcPush
      let d := startRun i c (passEntry (readFront d))
      (c.op = fcFetch → Becomes (.fetch false t) s d) ∧ (c.op = fcPush → own = none → Becomes (.push t) s d) ∧
      (c.op = fcRecv → Becomes (.recv false t) s d) ∧ (c.op = fcMirror → Becomes (.mirror false t) s d) ∧
      (c.op = fcEvict → Becomes (.evict t) s d) ∧ (c.op = fcRehash → Becomes (.rehash false t) s d)) ∧
    (∀ c op, d.ownNext op = some c →
      let d := startRun i c { d with ferry := { d.ferry with own := d.ferry.own.erase c } }
      (op = fcFetch → Becomes (.fetch true t) s d) ∧ (op = fcPush → Becomes (.push t) s d) ∧
      (op = fcRecv → Becomes (.recv true t) s d) ∧ (op = fcMirror → Becomes (.mirror true t) s d)) ∧
    (∀ k, d.unhashed = some k → d.ferry.stopped = false → Becomes (.rehash true t) s
      (startRun i (ownCmd fcRehash (k / 2 ^ 32) (k % 2 ^ 32) 0 0 0 0) d)) ∧
    (∀ c, d.nextFerry = some (c, false) → Becomes (.ferryFormat t) s
      (afterFailed c fsFormat (reportCmd c fsFormat (passEntry (readFront d))))))

/-- FERRY_BLOCK_RECEIVED (R183) and FERRY_COMMAND_DONE (R184, R185, R198, R201). It rests on the choices of
notes/assumptions, entries 106 and 125. -/
def Obligations.FerryCommandsProceed : Prop :=
  ∀ (s : State) (i : Fin 8), s.dev.coreUp 1 = true →
    (∀ r, s.dev.run i.val = some r → s.dev.pushLines i.val = [] → r.fail = none →
      (r.cmd.op = fcFetch ∨ r.cmd.op = fcPush ∨ r.cmd.op = fcRecv) →
      (s.dev.diesOf r.cmd.model).any s.dev.dieTrains = false →
      (r.header = [] → ∀ d bs r', nextBytes r 2048 s.dev = (d, some (.ok (bs, r'))) →
        r'.header = [] → Becomes (.ferryBlockReceived i) s (takeHeader i.val r' bs d)) ∧
      (r.header ≠ [] → r.cipher.length < hdrLength r.header →
        ∀ d bs r', nextBytes r 65536 s.dev = (d, some (.ok (bs, r'))) →
        r'.header ≠ [] → Becomes (.ferryBlockReceived i) s (takeBlock i.val r' bs d)) ∧
      (r.header = [] → ∀ d e, nextBytes r 2048 s.dev = (d, some (.error e)) →
        Becomes (.ferryBlockReceived i) s (d.setRun i.val (some { r with fail := some e })))) ∧
    (∀ (t : Time) (lost relayLost bad : Bool) r,
      let d := s.dev.advance t
      let load := r.cmd.op = fcFetch ∨ r.cmd.op = fcPush ∨ r.cmd.op = fcRecv
      d.run i.val = some r →
      (∀ f, r.fail = some f →
        Becomes (.ferryCommandDone i lost relayLost bad t) s
          (afterFailed r.cmd f (reportCmd r.cmd f (d.setRun i.val none)))) ∧
      (r.fail = none → d.ferryWaits r = false → load → (r.header = [] ∨ r.cipher.length < hdrLength r.header) → lost = true →
        Becomes (.ferryCommandDone i lost relayLost bad t) s
          (shardFailed r.cmd (reportCmd r.cmd fsSourceLost (relayHeld r (d.setRun i.val none))))) ∧
      (r.fail = none → d.ferryWaits r = false → load → r.header ≠ [] → hdrLength r.header ≤ r.cipher.length →
        Becomes (.ferryCommandDone i lost relayLost bad t) s (completeLoad i.val r relayLost (loadStatus r bad d))) ∧
      (r.fail = none → d.ferryWaits r = false → r.cmd.op = fcMirror → Becomes (.ferryCommandDone i lost relayLost bad t) s
        (completeLoad i.val r false (mirrorStatus r.cmd bad d))) ∧
      (r.fail = none → d.ferryWaits r = false → r.cmd.op = fcRehash →
        d.ferry.runs.any (fun e => match e.2 with
          | some w => w.cmd.writes && decide (w.cmd.model = r.cmd.model ∧ w.cmd.shard = r.cmd.shard)
          | none => false) = false →
        let x := rehashStatus r.cmd bad (d.setRun i.val none)
        Becomes (.ferryCommandDone i lost relayLost bad t) s (reportCmd r.cmd x.2 x.1)) ∧
      (r.fail = none → d.ferryWaits r = false → r.cmd.op = fcEvict → d.modelState r.cmd.model ≠ msEvicting →
        let e := reportCmd r.cmd fsVerified (d.setRun i.val none)
        (e.hosted 4 = true → Becomes (.ferryCommandDone i lost relayLost bad t) s (retryLoads e)) ∧
        (e.hosted 4 = false → Becomes (.ferryCommandDone i lost relayLost bad t) s e)))

/-- MODEL_REGISTER, MODEL_LOAD and MODEL_UNREGISTER (R189), EVICTION_DONE (R193, R195), FERRY_HOST_WAIT_EXPIRY (R186,
R188, R200), REHASH_INTERVAL_EXPIRY (R201), SLOW_TIER_FILL_DONE (R202). -/
def Obligations.ResidencyCommandsComplete : Prop :=
  ∀ (s : State) (m : BitVec 7) (t : Time), s.dev.coreUp 1 = true →
    let d := s.dev.advance t
    (s.dev.modelState m.toNat = msEmpty →
      Becomes (.modelRegister m) s (s.dev.set R.FERRY_MODEL_state m.toNat msRegistered)) ∧
    ((d.modelState m.toNat = msRegistered ∨ d.modelState m.toNat = msFailed) →
      Becomes (.modelLoad m t) s (loadModel m.toNat d)) ∧
    ((s.dev.modelState m.toNat = msRegistered ∨ s.dev.modelState m.toNat = msFailed) →
      Becomes (.modelUnregister m) s ((forgetModel m.toNat s.dev).set R.FERRY_MODEL_state m.toNat msEmpty)) ∧
    (s.dev.modelState m.toNat = msEvicting → (s.dev.isthmusUp = true ∨ (s.dev.diesOf m.toNat).contains 0 = false) →
      let e := endEvict m.toNat s.dev
      (e.hosted 4 = true → Becomes (.evictionDone m) s e) ∧
      (e.hosted 4 = false → Becomes (.evictionDone m) s (retryLoads e))) ∧
    (∀ w since, (let limit := (d.get R.FERRY_CTL_host_wait * msU : Nat)
        d.ferry.waits.filter (fun w => decide (w.1 = m.toNat ∧ tdiff t w.2.2 ≥ limit)) = [(m.toNat, w, since)]) →
      let e := { d with ferry := { d.ferry with
          waits := d.ferry.waits.filter (fun x => !decide (x = (m.toNat, w, since))) } }
      ((w = .load ∨ ∃ n, w = .shard n) → e.modelState m.toNat = msLoading → Becomes (.ferryHostWaitExpiry m t) s
        ((modelFail m.toNat e).raise E.HOST_WAIT_EXPIRED_FERRY none (some m.toNat))) ∧
      (w = .evict → e.modelState m.toNat = msLoading →
        Becomes (.ferryHostWaitExpiry m t) s (modelFail m.toNat e)) ∧
      (∀ n, w = .repair n → e.modelState m.toNat = msRepairing →
        Becomes (.ferryHostWaitExpiry m t) s (repairNext m.toNat n e))) ∧
    (s.dev.powerState ≠ psPark → tdiff t d.ferry.rehashAt ≥ (d.get R.FERRY_CTL_rehash_interval * 3600 * secU : Nat) →
      let e := { d with ferry := { d.ferry with
        rehashAt := t, shards := d.ferry.shards.map (fun e => (e.1, { e.2 with hashed := 0 })) } }
      (d.unhashed = none → Becomes (.rehashIntervalExpiry t) s e) ∧
      (d.unhashed ≠ none → Becomes (.rehashIntervalExpiry t) s (e.raise E.REHASH_BEHIND))) ∧
    (∀ (bs : List (List Byte)) (plains : List (List Byte)) st, tget none s.dev.ferry.slow m.toNat = some st →
      bs.map (fun b => slowPlain m.toNat b s.dev) = plains.map some → plains.flatten.length = st.size →
      let next := (st.inUse + 1) % 2
      let e := hbmWrite 1 (if next = 0 then st.base0 else st.base1) plains.flatten s.dev
      Becomes (.slowTierFillDone m bs) s { e with ferry := { e.ferry with
        slow := tput none e.ferry.slow m.toNat (some { st with ready := setBit st.ready next true }) } })

/-- STEP_BOUNDARY (R212 to R215, Table 7.1) and STEP_LOST (R237). It rests on the choices of notes/assumptions,
entries 28 and 107. -/
def Obligations.StepBoundaryCompletes : Prop :=
  ∀ (s : State) (t : Time), s.dev.coreUp 1 = true → s.dev.svc.endAll = false →
    let d := s.dev.advance t
    let st := d.get R.SVC_STATUS_state
    (∀ tb, s.dev.intakeLines = [] → d.svc.due = some tb → (st = svServing ∨ st = svQuiesced) →
      let c := putCtl d.svc.ctl d
      let n := c.get R.SVC_STATUS_step
      let p := c.get R.SVC_STATUS_plan
      let k := c.get R.TIDE_NUMBER_tide
      let e := noteUse k (modSvc (fun v => { v with overwrote := false }) c)
      let ends := fun e => noteBoundary (putCtl d.svcCtl e)
      (collect n e = none → Becomes (.stepBoundary t) s (ends (loseStep (e.raise E.SVC_RESULT)))) ∧
      (∀ dec pre, collect n e = some (dec, pre) →
        let last := e.svc.stepStart + Nat.max 1 (e.get R.SVC_PLAN_step_tides p)
        let a := modSvc (fun v => { v with due := none, published := false, steps := v.steps + 1 }) e
        let b := phaseCommit tb n (dec ++ pre.filter (fun r => decide (r.outcome = 2))) (takeChunks pre a)
        let c := noteUse k (phaseAdmit tb n (phaseJoin n (phaseFree n b)))
        Becomes (.stepBoundary t) s
          (ends (noteLow (phasesNext tb n ((n + 1) % 2 ^ 48) last (some p) (c.set R.SVC_STATUS_step 0 (n + 1))))))) ∧
    (d.get R.TIDE_STATUS_state = tsFaulted → d.svc.loading = none →
      (st = svServing ∨ st = svSwitching ∨ st = svQuiesced) →
      let n := d.get R.SVC_STATUS_step
      let p := d.get R.SVC_STATUS_plan
      let e := (d.inc C.SVC_COUNTS_steps_lost).raise E.SVC_STEP_LOST
      let e := logAdd 0x07 n (leBytes 8 n ++ leBytes 1 e.svc.reruns) e
      let e := modSvc (fun v => { v with due := none, published := false }) e
      e.svc.reruns < e.get R.SVC_CTL_retry →
      let f := modSvc (fun v => { v with reruns := v.reruns + 1, republish := true }) e
      Becomes (.stepLost t) s (switchTo p (f.switchTide f.now) f))

/-- SVC_PLAN_WRITE (R207), ADMIT_ACCEPT, ADMIT_REJECT and ADMIT_HOST_WAIT_EXPIRY (R220), HANDOFF_COPY_DONE (R224),
KV_SPILL_DONE and KV_STAGE_DONE (R230), REFILL_PERIOD_EXPIRY (R259), BUDGET_ADJUST (R261), METER_FEED_STALL_EXPIRY
(R267), SVC_OUT_ENABLE_WRITE (R412). It rests on the choices of notes/assumptions, entries 26 and 73. -/
def Obligations.ServingCommandsComplete : Prop :=
  ∀ (s : State) (t : Time), s.dev.coreUp 1 = true →
    let u := s.dev
    let d := u.advance t
    (∀ (p : Fin 16) (v : Word),
      (u.is R.SVC_PLAN_enable p = true → ∀ w, Becomes (.svcPlanWrite p w v) s (u.raise E.SVC_CONFIG none (some p.val))) ∧
      (u.is R.SVC_PLAN_enable p = false →
        Becomes (.svcPlanWrite p 0 v) s (u.set R.SVC_PLAN_image p v.toNat) ∧
        Becomes (.svcPlanWrite p 1 v) s ((((((((u.set R.SVC_PLAN_model p (bits v.toNat 0 7)).set R.SVC_PLAN_quantum p
          (Nat.max 1 (bits v.toNat 8 8))).set R.SVC_PLAN_step_tides p (Nat.max 1 (bits v.toNat 16 16))).set
          R.SVC_PLAN_decode_width p (Nat.min 256 (bits v.toNat 32 9))).set R.SVC_PLAN_prefill_width p
          (Nat.min 32 (bits v.toNat 41 6))).set R.SVC_PLAN_prefill_units p (Nat.min 32 (bits v.toNat 47 6))).set
          R.SVC_PLAN_layers p (Nat.max 1 (bits v.toNat 53 8))).store R.SVC_PLAN_enable p (bits v.toNat 63 1)) ∧
        Becomes (.svcPlanWrite p 2 v) s (((u.set R.SVC_PLAN_page_ceiling p (Nat.max 1 (bits v.toNat 0 16))).set
          R.SVC_PLAN_tokens_per_page p (Nat.max 1 (bits v.toNat 16 16))).set R.SVC_PLAN_eos p (bits v.toNat 32 32)))) ∧
    (∀ i : Fin 16, bit (u.get R.SVC_ADMIT_PENDING_rings) i = true →
      Becomes (.admitAccept i) s (modRing i (fun r => { r with decision := some true }) u) ∧
      Becomes (.admitReject i) s (modRing i (fun r => { r with decision := some false }) u)) ∧
    (∀ (i : Fin 16) since, (d.svcRing i).askedAt = some since → (d.svcRing i).decision = none →
      (d.svcRing i).accepted = false → (d.svcRing i).timedOut = false →
      tdiff t since > (d.get R.SVC_CTL_host_wait * msU : Nat) →
      Becomes (.admitHostWaitExpiry i t) s
        ((modRing i (fun r => { r with timedOut := true }) d).raise E.HOST_WAIT_EXPIRED_SVC none (some i.val))) ∧
    (∀ (slot : BitVec 8) (q : BitVec 24) x, u.slot slot.toNat = some x → x.copies.contains q.toNat = true →
      u.onIsthmus (fun b => b.ofSlot slot.toNat (fun p => decide (p = q.toNat))) = false →
      Becomes (.handoffCopyDone slot q) s (modSlot slot.toNat (fun x =>
        { x with copies := x.copies.filter (fun y => !decide (y = q.toNat)) }) u)) ∧
    (∀ (slot : BitVec 8) (q : BitVec 24) f fr,
      u.svc.spills.find? (fun x => decide (x.1 = slot.toNat ∧ x.2.1 = q.toNat)) = some (slot.toNat, q.toNat, f) →
      ((u.slot slot.toNat).bind (fun x => tget none x.est.pages q.toNat)).bind (fun p => p.frame) = some fr →
      let x := hbmRead byFerry none 1 (fr * frameSize) frameSize u
      let e := modSvc (fun v =>
        { v with spills := v.spills.filter (fun x => !decide (x = (slot.toNat, q.toNat, f))) }) x.1
      let bytes := mbytes e.mem (hbmKey 1 (fr * frameSize)) frameSize
      (x.2 = true → Becomes (.kvSpillDone slot q) s e) ∧
      (x.2 = false → Becomes (.kvSpillDone slot q) s (setPage slot.toNat 1 q.toNat
        (some { frame := none, slow := some f, staged := false })
        (modSvc (fun v => { v with spilled := v.spilled ++ [(e.slowAddr f, bytes)] }) e)))) ∧
    (∀ (slot : BitVec 8) (q : BitVec 24) (data : List Byte) f,
      u.svc.stages.find? (fun x => decide (x.1 = slot.toNat ∧ x.2.1 = q.toNat)) = some (slot.toNat, q.toNat, f) →
      let slow := ((u.slot slot.toNat).bind (fun x => tget none x.est.pages q.toNat)).bind (fun p => p.slow)
      Becomes (.kvStageDone slot q data) s (setPage slot.toNat 1 q.toNat
        (some { frame := some f, slow := slow, staged := true }) (modSvc (fun v => { v with
          stages := v.stages.filter (fun x => !decide (x = (slot.toNat, q.toNat, f))),
          staged := v.staged ++ [(slot.toNat, q.toNat, f)] })
          (hbmWrite 1 (f * frameSize) (data.take frameSize) u)))) ∧
    (∀ (c : BitVec 12) (n : BitVec 48), Becomes (.budgetAdjust c n) s (modSvc (fun v =>
      { v with adjust := tput 0 v.adjust c.toNat (sat48 (tget 0 v.adjust c.toNat + sext 48 n.toNat)) }) u)) ∧
    (d.hosted 9 = false →
      let period := Nat.max 1 (d.get R.SVC_BUDGET_CTL_refill_period) * msU
      let n := (tdiff t d.svc.refillAt).toNat / period
      Becomes (.refillPeriodExpiry t) s (modSvc (fun v =>
        { v with refills := v.refills + n, refillAt := v.refillAt + BitVec.ofNat 64 (n * period) }) d)) ∧
    (∀ (i : Fin 16) (v : Word),
      let e := ((u.set R.SVC_OUT_size i (bits v.toNat 0 4)).store R.SVC_OUT_enable i (bits v.toNat 4 1)).set
        R.SVC_OUT_vector i (bits v.toNat 5 6)
      ((e.is R.SVC_OUT_enable i = true ∧ u.is R.SVC_OUT_enable i = false) → Becomes (.svcOutEnableWrite i v) s
        (modRing i (fun r => { r with phase := true }) (e.set R.SVC_OUT_tail i (e.get R.SVC_OUT_head i)))) ∧
      ((e.is R.SVC_OUT_enable i = false ∨ u.is R.SVC_OUT_enable i = true) → Becomes (.svcOutEnableWrite i v) s e)) ∧
    ((∃ r ∈ d.svc.feed, tdiff t r.since > (secU : Nat)) → d.is R.SVC_METER_FEED_stalled = false →
      Becomes (.meterFeedStallExpiry t) s ((d.set R.SVC_METER_FEED_stalled 0 1).raise E.METER_FEED_STALL))

/-- IST_ENTRY_ARRIVAL (R273), IST_CRC_FAIL (R275), IST_RETRAIN_DONE (R276, R277), SIDEBAND_FRAME (R278 to R280). It
rests on the choices of notes/assumptions, entries 20, 83, 109, 110 and 112. -/
def Obligations.IsthmusCommandsComplete : Prop :=
  ∀ (s : State) (t : Time), s.dev.coreUp 0 = true →
    let d := s.dev.advance t
    (∀ (toE : Bool) r rest, s.dev.fatal = false →
      let e := d.istSync
      let x := e.istDir toE
      e.isthmusUp = true → x.sent = r :: rest →
      Becomes (.istEntryArrival toE t) s (deliverEntry r (e.setIstDir toE
        { x with sent := if r.count ≤ 1 then rest else r.drop 1 :: rest, replays := 0 }))) ∧
    (∀ (toE : Bool) (flit : BitVec 8), d.isthmusUp = true →
      let x := d.istDir toE
      let n := if x.flit = flit then x.replays else 0
      let struck := fun at0 => (({ d with ist := { d.ist with crcAt := at0 } }).setIstDir toE
        { x with flit := flit, replays := n + 1 }).inc C.IST_COUNTS_crc_errors
      (∀ t0, d.ist.crcAt = some t0 → tdiff d.now t0 < (secU : Nat) →
        let e := struck (some t0)
        (e.get R.IST_CTL_replay_limit ≤ n → Becomes (.istCrcFail ⟨toE, flit, t⟩) s (beginRetrain e)) ∧
        (n < e.get R.IST_CTL_replay_limit → Becomes (.istCrcFail ⟨toE, flit, t⟩) s e)) ∧
      (d.ist.crcAt = none →
        let e := (struck (some d.now)).raise E.IST_CRC
        (e.get R.IST_CTL_replay_limit ≤ n → Becomes (.istCrcFail ⟨toE, flit, t⟩) s (beginRetrain e)) ∧
        (n < e.get R.IST_CTL_replay_limit → Becomes (.istCrcFail ⟨toE, flit, t⟩) s e))) ∧
    (∀ (up : BitVec 8) reps, d.get R.IST_STATUS_state = isTraining →
      let c := (reps.foldl (fun d x => d.lifeLane (0x100 + x.module.val) x.lane.toNat x.toEstuary) d).inc
        C.IST_COUNTS_lane_repairs 0 reps.length
      let before := popCount (c.get R.IST_STATUS_modules) 8
      (up = 0 →
        let e := ({ c with ist := { c.ist with fails := c.ist.fails + 1 } }.set R.IST_STATUS_modules 0 0).set
          R.IST_RESERVE_capacity 0 0
        let e := if 6 < before then e.raise E.IST_BUDGET_BREACH else e
        (e.get R.IST_CTL_retrain_max ≤ c.ist.fails + 1 →
          Becomes (.istRetrainDone up reps t) s ((e.set R.IST_STATUS_state 0 isDown).raise E.IST_DOWN)) ∧
        (c.ist.fails + 1 < e.get R.IST_CTL_retrain_max → Becomes (.istRetrainDone up reps t) s (beginRetrain e))) ∧
      (up ≠ 0 →
        let now := popCount up.toNat 8
        let f := setModules up.toNat { c with ist := { c.ist with fails := 0 } }
        ((now = 7 ∧ 7 < c.ist.width) → Becomes (.istRetrainDone up reps t) s (f.raise E.IST_DEGRADED)) ∧
        ((now ≤ 6 ∧ 6 < before) → Becomes (.istRetrainDone up reps t) s (f.raise E.IST_BUDGET_BREACH)) ∧
        (¬ (now = 7 ∧ 7 < c.ist.width) → ¬ (now ≤ 6 ∧ 6 < before) → Becomes (.istRetrainDone up reps t) s f))) ∧
    (∀ (toE crcOk : Bool) (seq : BitVec 16) (sent : BitVec 32) (drift delay : BitVec 16),
      let x := if toE then d.ist.sideE else d.ist.sideH
      let y := sideFrame x crcOk seq (d.beaconStates toE) sent
      let e := { d with ist := if toE then { d.ist with sideE := y.1 } else { d.ist with sideH := y.1 } }
      let e := e.setB R.IST_STATUS_sb_locked 0 (e.ist.sideE.locked && e.ist.sideH.locked)
      (y.2 = true →
        (toE = true → Becomes (.sidebandFrame toE crcOk seq ⟨sent, drift, delay⟩ t) s e) ∧
        (toE = false → Becomes (.sidebandFrame toE crcOk seq ⟨sent, drift, delay⟩ t) s
          (headlandTime sent drift (if x.locked then e else e.set R.IST_SB_delay 0 delay.toNat)))) ∧
      (y.2 = false →
        let f := e.inc C.IST_COUNTS_sb_frames_lost
        (y.1.losses = 4 → Becomes (.sidebandFrame toE crcOk seq ⟨sent, drift, delay⟩ t) s (f.raise E.IST_SIDEBAND)) ∧
        (y.1.losses = 64 → Becomes (.sidebandFrame toE crcOk seq ⟨sent, drift, delay⟩ t) s (f.raise E.IST_SIDEBAND_LOST)) ∧
        (y.1.losses ≠ 4 ∧ y.1.losses ≠ 64 → Becomes (.sidebandFrame toE crcOk seq ⟨sent, drift, delay⟩ t) s f)))

/-- ACK_FLIT (R295, R302), NAK_FLIT (R296), CREDIT_SYNC_FLIT (R303), LANE_FLIT (R304 to R306), PLAN_FLIT and DRIFT_FLIT
(R292, R301, R302), FLIT_CRC_FAIL (R292, R293), INIT_FLIT (R310). -/
def Obligations.FlitsReceived : Prop :=
  ∀ (s : State) (l : Link) (t : Time), s.dev.coreUp (dieOfLink l.val) = true →
    let d := s.dev.advance t
    (∀ (dev : BitVec 20) (k : BitVec 3) bs, d.get R.CW_STATUS_state l.val = lsTraining →
      Becomes (.initFlit l dev k bs t) s ((((d.set R.CW_PEER_device l.val dev.toNat).set R.CW_PEER_link l.val k.toNat).set
        R.CW_PEER_valid l.val 1).modLink l.val (fun x => { x with initSeen := true }))) ∧
    (d.hears l.val = true →
      Becomes (.flitCrcFail l t) s (askNak l.val (d.inc C.CW_COUNTS_crc_errors l.val)) ∧
      (∀ h : FlitHead,
        let e := noteBeacon l.val h (applyHead l.val h d)
        (∀ v, Becomes (.ackFlit l h v t) s (applyTotals l.val v e)) ∧
        (∀ q, (e.link l.val).store.any (fun x => x.seq = q) = true →
          Becomes (.nakFlit l h q t) s (startReplay l.val q e)) ∧
        (∀ m v, h.ackValid = true → (∀ i < 4,
            let after := ((e.link l.val).store.filter (fun x => match x.body with
              | .drift f => decide (f.vc = i)
              | .plan _ => false)).length
            (v.received.getD i 0).toNat =
              (e.get R.CW_CREDIT_sent (l.val * 4 + i) + 65536 - after % 65536) % 65536) →
          Becomes (.creditSyncFlit l h m v t) s (applyTotals l.val v e)) ∧
        (∀ n : Fin 9,
          (bit (e.get R.CW_LANES_tx_failed l.val) n.val = false → Becomes (.laneFlit l h n 0 t) s
            (laneFailed l.val n.val true ((e.set R.CW_LANES_tx_failed l.val
              (setBit (e.get R.CW_LANES_tx_failed l.val) n.val true)).modLink l.val (fun x =>
                { x with txPend := x.txPend ++ [n.val] })))) ∧
          Becomes (.laneFlit l h n 1 t) s (e.modLink l.val (fun x => { x with spareTx := true })) ∧
          Becomes (.laneFlit l h n 2 t) s (e.modLink l.val (fun x => { x with txPend := x.txPend ++ [n.val] }))) ∧
        (∀ (tide : BitVec 16) (stream : BitVec 8) (ix : BitVec 16) (vc : BitVec 2) (first last : Bool) (data : BitVec 1920),
          let e := applyHead l.val h d
          let diff := sdiff16 h.seq (e.link l.val).expected
          let n := (e.link l.val).accepted + 1
          let a := noteBeacon l.val h (e.modLink l.val (fun x =>
            { x with expected := x.expected + 1, nakAt := none, accepted := n,
                     ackDue := x.ackDue || decide (n ≥ 64) }))
          (diff = 0 →
            Becomes (.planFlit l h tide stream ix data t) s
              (takePlanFlit l.val tide.toNat stream.toNat ix.toNat data a) ∧
            Becomes (.driftFlit l h vc first last data t) s (a.modLink l.val (fun x =>
              { x with
                received := tput 0 x.received vc.toNat ((tget 0 x.received vc.toNat + 1) % 65536),
                inBuf := tput [] x.inBuf vc.toNat (tget [] x.inBuf vc.toNat ++
                  [{ vc := vc.toNat, first := first, last := last, pkt := 0, enters := false, data := data }]) }))) ∧
          (diff < 0 → ∀ i, (i = .planFlit l h tide stream ix data t ∨ i = .driftFlit l h vc first last data t) →
            Becomes i s (e.modLink l.val (fun x => { x with ackDue := true }))) ∧
          (0 < diff → ∀ i, (i = .planFlit l h tide stream ix data t ∨ i = .driftFlit l h vc first last data t) →
            Becomes i s (askNak l.val e)))))

/-- FLIT_SLOT_SEND (R286, R289 to R291, R310), ACK_TIMEOUT (R296), ACK_INTERVAL_EXPIRY (R294). It rests on the choices
of notes/assumptions, entries 18, 82, 113 and 116. -/
def Obligations.FlitsSent : Prop :=
  ∀ (s : State) (l : Link) (t : Time), s.dev.coreUp (dieOfLink l.val) = true →
    let d := s.dev.advance t
    let x := d.link l.val
    (d.get R.CW_STATUS_state l.val = lsTraining → Becomes (.flitSlotSend l t) s (sendInit l.val t d)) ∧
    (d.linkUp l.val = true →
      let room := x.store.length < 32767
      (∀ q, x.replayAt = some q → Becomes (.flitSlotSend l t) s (sendReplay l.val q d)) ∧
      (x.replayAt = none →
        (∀ f, d.planFlitNow l.val t = some f → room → Becomes (.flitSlotSend l t) s
          (sendNew l.val (.plan f) (fun d => d.modLink l.val (fun x => { x with planQueue := x.planQueue.drop 1 })) d)) ∧
        ((d.planFlitNow l.val t = none ∨ ¬ room) →
          (x.syncDue = true →
            let m := (d.markOf (d.latestMark d.now (d.get R.TIDE_NUMBER_tide))).toNat
            Becomes (.flitSlotSend l t) s
              ((sendFlit l.val 5 0 false none (m % 65536) (m / 65536 % 65536) (d.totalsPayload l.val) d).modLink l.val
                (fun x => { x with syncDue := false }))) ∧
          (x.syncDue = false → ∀ q naks, x.nakDue = q :: naks →
            let c := nextCredit l.val d
            Becomes (.flitSlotSend l t) s ((sendFlit l.val 3 0 false (some c.2) 0 q.toNat [] c.1).modLink l.val
              (fun y => { y with nakDue := naks, nakAt := some (q, t) }))) ∧
          (x.syncDue = false → x.nakDue = [] →
            (∀ n a rest, x.laneOut = (n, a) :: rest → Becomes (.flitSlotSend l t) s
              (sendFlit l.val 4 0 false none 0 (n + 16 * a) [] (d.modLink l.val (fun x =>
                { x with laneOut := rest, laneAt := if a = 0 then t else x.laneAt })))) ∧
            (x.laneOut = [] →
              (x.ackDue = true → Becomes (.flitSlotSend l t) s (sendAck l.val d)) ∧
              (x.ackDue = false →
                (∀ p rest, x.timeOut = p :: rest → Becomes (.flitSlotSend l t) s
                  (sendFlit l.val 6 0 false none 0 0 (leBytes 8 t.toNat ++ p.drop 8)
                    (d.modLink l.val (fun x => { x with timeOut := rest })))) ∧
                (x.timeOut = [] →
                  (∀ f, d.driftFlitNow l.val = some f → room → Becomes (.flitSlotSend l t) s (sendDrift l.val f d)) ∧
                  ((d.driftFlitNow l.val = none ∨ ¬ room) →
                    Becomes (.flitSlotSend l t) s (sendAck l.val d)))))))) ∧
      (∀ o rest, x.store = o :: rest → tdiff t x.timerAt ≥ (d.get R.CW_CTL_ack_timeout l.val * 1600 : Nat) →
        Becomes (.ackTimeout l t) s (startReplay l.val o.seq d)) ∧
      (tdiff t x.ackAt ≥ 3200 →
        Becomes (.ackIntervalExpiry l t) s (d.modLink l.val (fun x => { x with ackDue := true }))))

/-- LANE_FAIL and LANE_REPORT_REPEAT (R304), LANE_MAP_CHANGE and CW_CMD_DROP (R305), CW_CMD_SPARE (R306), LOCK_LOST,
LOCK_REGAINED and DOWN_TIME_EXPIRY (R307), CW_CMD_DOWN (R308). -/
def Obligations.LaneCommandsComplete : Prop :=
  ∀ (s : State) (l : Link) (t : Time), s.dev.coreUp (dieOfLink l.val) = true →
    let d := s.dev.advance t
    let x := d.link l.val
    d.linkUp l.val = true →
    (∀ (n : Fin 9) (k : BitVec 32),
      let e := d.incP R.CW_FEC_corrected l.val k.toNat
      let now := bit (e.get R.CW_LANES_rx_failed l.val) n.val = false ∧
        (k = 0 ∨ e.get R.CW_CTL_lane_err_limit l.val < k.toNat)
      (now → Becomes (.laneFail l n k t) s (laneFailed l.val n.val false
        ((e.set R.CW_LANES_rx_failed l.val (setBit (e.get R.CW_LANES_rx_failed l.val) n.val true)).modLink l.val (fun x =>
          { x with laneOut := x.laneOut ++ [(n.val, 0)], rxPend := x.rxPend ++ [n.val] })))) ∧
      (¬ now → Becomes (.laneFail l n k t) s e)) ∧
    (tdiff t x.laneAt ≥ (10 * usU : Nat) → Becomes (.laneReportRepeat l t) s (d.modLink l.val (fun x => { x with
      laneOut := x.laneOut ++ (x.rxPend.filter (fun n => !x.laneOut.contains (n, 0))).map (fun n => (n, 0)) }))) ∧
    ((let n := newLanes (d.get R.CW_LANES_tx_active l.val) x.txPend x.txSpare (!x.hosted || x.spareTx)
      let e := (d.modLink l.val (fun x => { x with txPend := [], txSpare := n.2.1, spareTx := false })).set
        R.CW_LANES_tx_active l.val n.1
      let f := if n.2.2 then e.set R.CW_LANES_tx_spare_used l.val 1 else e
      Becomes (.laneMapChange l true t) s
        (settleWidth l.val (goodLanes (d.get R.CW_LANES_tx_active l.val)) (goodLanes n.1) f)) ∧
     (let n := newLanes (d.get R.CW_LANES_rx_active l.val) x.rxPend x.rxSpare (!x.hosted || x.spareRx)
      let e := (d.modLink l.val (fun x => { x with rxPend := [], rxSpare := n.2.1, spareRx := false })).set
        R.CW_LANES_rx_active l.val n.1
      let f := if n.2.2 then e.set R.CW_LANES_rx_spare_used l.val 1 else e
      Becomes (.laneMapChange l false t) s
        (settleWidth l.val (goodLanes (d.get R.CW_LANES_rx_active l.val)) (goodLanes n.1) f))) ∧
    Becomes (.cwCmdSpare l t) s (d.modLink l.val (fun y => { y with
      spareTx := y.spareTx || d.lanesShort l.val true, spareRx := y.spareRx || d.lanesShort l.val false,
      wait := if y.wait.map (·.1) = some .spare then none else y.wait,
      laneOut := y.laneOut ++ (match x.rxSpare with
        | some lane => if d.lanesShort l.val false then [(lane, 1)] else []
        | none => []) })) ∧
    (∀ n : Fin 9, bit (d.get R.CW_LANES_rx_active l.val) n.val = true → Becomes (.cwCmdDrop l n t) s
      (d.modLink l.val (fun x => { x with
        wait := if x.wait.map (·.1) = some .spare then none else x.wait,
        rxPend := x.rxPend ++ [n.val], laneOut := x.laneOut ++ [(n.val, 2)] }))) ∧
    Becomes (.cwCmdDown l t) s (linkDown l.val dcHost d) ∧
    (d.is R.CW_STATUS_lock l.val = true → ∀ k : BitVec 32, Becomes (.lockLost l k t) s
      (((d.incP R.CW_FEC_UE_uncorrectable l.val k.toNat).set R.CW_STATUS_lock l.val 0).modLink l.val (fun x =>
        { x with lockLostAt := some t, rxPend := [] }))) ∧
    (d.is R.CW_STATUS_lock l.val = false →
      (d.lockGone l.val t = true →
        Becomes (.lockRegained l t) s (linkDown l.val dcLockLost d) ∧
        Becomes (.downTimeExpiry l t) s (linkDown l.val dcLockLost d)) ∧
      (d.lockGone l.val t = false →
        let again := (List.range 9).filter (fun n =>
          bit (d.get R.CW_LANES_rx_failed l.val) n && bit (d.get R.CW_LANES_rx_active l.val) n)
        Becomes (.lockRegained l t) s ((d.set R.CW_STATUS_lock l.val 1).modLink l.val (fun x =>
          { x with lockLostAt := none, rxPend := again, laneOut := x.laneOut ++ again.map (fun n => (n, 0)) }))))

/-- TRAIN_RETRY_EXPIRY (R309), TRAINING_DONE (R310, R311), TRAIN_TIMEOUT (R310), DAMP_EXPIRY (R312), CW_CMD_TRAIN (R309,
R312), CW_HOST_WAIT_EXPIRY (R306, R309), FENCE_WRITE (R313). -/
def Obligations.TrainingCommandsComplete : Prop :=
  ∀ (s : State) (l : Link) (t : Time), s.dev.coreUp (dieOfLink l.val) = true →
    let d := s.dev.advance t
    let x := d.link l.val
    let st := d.get R.CW_STATUS_state l.val
    let free := d.is R.CW_FENCE_fence l.val = false
    (∀ r, x.retryAt = some r → st = lsDown → free → tdiff t r ≥ 0 → Becomes (.trainRetryExpiry l t) s
      (seekTraining l.val (d.modLink l.val (fun x => { x with retryAt := none })))) ∧
    (∀ u, x.dampUntil = some u → st = lsDamped → tdiff t u ≥ 0 → Becomes (.dampExpiry l t) s
      (seekTraining l.val ((d.modLink l.val (fun x => { x with dampUntil := none })).set R.CW_STATUS_state l.val lsDown))) ∧
    (∀ rx tx : BitVec 9, st = lsTraining → x.initSeen = true → free →
      let wrong := d.is R.CW_PEER_EXPECT_check l.val = true ∧
        (d.get R.CW_PEER_device l.val ≠ d.get R.CW_PEER_EXPECT_device l.val ∨
          d.get R.CW_PEER_link l.val ≠ d.get R.CW_PEER_EXPECT_link l.val)
      (¬ wrong → 4 ≤ goodLanes rx.toNat → 4 ≤ goodLanes tx.toNat →
        Becomes (.trainingDone l rx tx t) s (linkRises l.val rx.toNat tx.toNat d)) ∧
      (wrong →
        let e := (failTraining l.val dcMiswired d).modLink l.val (fun x => { x with miswired := true })
        (x.miswired = true → Becomes (.trainingDone l rx tx t) s e) ∧
        (x.miswired = false → Becomes (.trainingDone l rx tx t) s (e.raise E.CW_MISWIRED none (some l.val))))) ∧
    (∀ t0, x.trainAt = some t0 → st = lsTraining →
      tdiff t t0 ≥ (d.get R.CW_TRAIN_train_timeout l.val * msU : Nat) →
      Becomes (.trainTimeout l t) s (failTraining l.val dcTrainFailed d)) ∧
    (free → (st = lsDown ∨ st = lsDamped) → Becomes (.cwCmdTrain l t) s
      (beginTraining l.val (d.modLink l.val (fun x => { x with dampUntil := none, initSeen := false })))) ∧
    (∀ t0, tdiff t t0 ≥ (d.get R.CW_TRAIN_host_wait l.val * msU : Nat) →
      let e := d.modLink l.val (fun x => { x with wait := none })
      (x.wait = some (.spare, t0) → Becomes (.cwHostWaitExpiry l t) s
        ((e.modLink l.val (fun x => { x with
          spareTx := x.spareTx || e.lanesShort l.val true, spareRx := x.spareRx || e.lanesShort l.val false })).raise
          E.HOST_WAIT_EXPIRED_CW none (some l.val))) ∧
      (x.wait = some (.train, t0) → e.get R.CW_STATUS_state l.val = lsDown → e.is R.CW_FENCE_fence l.val = false →
        Becomes (.cwHostWaitExpiry l t) s ((beginTraining l.val e).raise E.HOST_WAIT_EXPIRED_CW none (some l.val)))) ∧
    (∀ v : Word,
      (bit v.toNat 0 = true →
        let e := d.set R.CW_FENCE_fence l.val 1
        (e.linkUp l.val = true → Becomes (.fenceWrite l v t) s (linkDown l.val dcFenced e)) ∧
        (e.linkUp l.val = false → Becomes (.fenceWrite l v t) s ((e.modLink l.val (fun x =>
          { x with trainAt := none, retryAt := none, dampUntil := none, wait := none, initSeen := false })).set
          R.CW_STATUS_state l.val lsFenced))) ∧
      (bit v.toNat 0 = false →
        let e := d.set R.CW_FENCE_fence l.val 0
        ((d.is R.CW_FENCE_fence l.val = true ∧
            (e.get R.CW_STATUS_state l.val = lsFenced ∨ e.get R.CW_STATUS_state l.val = lsDown)) →
          Becomes (.fenceWrite l v t) s (seekTraining l.val (e.set R.CW_STATUS_state l.val lsDown))) ∧
        (d.is R.CW_FENCE_fence l.val = false → Becomes (.fenceWrite l v t) s e)))

/-- READ and WRITE (R161, R162, R321 to R323, R475, Table 17.8), RELAY (R182), MGMT_REQ (R19, R199). It rests on the
choices of notes/assumptions, entries 50, 56 and 103. -/
def Obligations.DriftRequestsAnswered : Prop :=
  ∀ (s : State) (p : Packet) (t : Time), s.dev.coreUp 1 = true → s.dev.fatal = false →
    let e := s.dev.advance t
    let d := unqueue p e
    p.dest.toNat = e.get R.DEV_ADDR_address →
    (packetOk p = false →
      (p.opcode.toNat = opRead → Becomes (.read p t) s (malformed d)) ∧
      (p.opcode.toNat = opWrite → Becomes (.write p t) s (malformed d)) ∧
      (p.opcode.toNat = opRelay → Becomes (.relay p t) s (malformed d)) ∧
      (p.opcode.toNat = opMgmtReq → ∀ a, Becomes (.mgmtReq p a t) s (malformed d))) ∧
    (packetOk p = true → e.unitWaits p = true →
      (p.opcode.toNat = opRead → Becomes (.read p t) s (enqueueSelf p e)) ∧
      (p.opcode.toNat = opWrite → Becomes (.write p t) s (enqueueSelf p e)) ∧
      (p.opcode.toNat = opRelay → Becomes (.relay p t) s (enqueueSelf p e))) ∧
    (packetOk p = true → e.unitWaits p = false →
      (p.opcode.toNat = opRead →
        let n := 8 * p.words.toNat
        let to0 := d.driftTarget p.addr.toNat n
        (to0 = .range → Becomes (.read p t) s (drainRequests (bounce p stRange d))) ∧
        (to0 = .refused → Becomes (.read p t) s (drainRequests (bounce p stRefused (refuseAccess d)))) ∧
        (to0 = .absent → Becomes (.read p t) s (drainRequests (bounce p stAbsent d))) ∧
        (to0 = .silent → Becomes (.read p t) s (drainRequests d)) ∧
        (∀ die a, to0 = .hbm die a → d.hallLines p.addr.toNat n = [] →
          let x := hbmRead byDrift none die a n (wakeFor die a n d)
          (x.2 = true → Becomes (.read p t) s (drainRequests (bounce p stUncorrectable x.1))) ∧
          (x.2 = false → Becomes (.read p t) s
            (drainRequests (respond p opReadResp stOk (mbytes x.1.mem (hbmKey die a) n) x.1)))) ∧
        (∀ r c off, to0 = .sp r c off → Becomes (.read p t) s (drainRequests (bankEnqueue
          { packet := p, source := d.sourceOf p, region := r, cell := c, off := off, size := n, rows := rowsOf off n } d))) ∧
        (∀ off, to0 = .regs off →
          let x := (regOffsets off n).foldl (fun (acc : Dev × List Byte) o =>
            let y := readDriftReg o acc.1
            (y.1, acc.2 ++ leBytes 8 y.2)) (d, [])
          Becomes (.read p t) s (drainRequests (respond p opReadResp stOk x.2 x.1)))) ∧
      (p.opcode.toNat = opWrite →
        let n := p.data.length
        let to0 := d.driftTarget p.addr.toNat n
        (to0 = .range → Becomes (.write p t) s (drainRequests (bounce p stRange d))) ∧
        (to0 = .refused → Becomes (.write p t) s (drainRequests (bounce p stRefused (refuseAccess d)))) ∧
        (to0 = .absent → Becomes (.write p t) s (drainRequests (bounce p stAbsent d))) ∧
        (to0 = .silent → Becomes (.write p t) s (drainRequests d)) ∧
        (∀ die a, to0 = .hbm die a → d.hallLines p.addr.toNat n = [] → Becomes (.write p t) s
          (drainRequests (respond p opWriteAck stOk [] (hbmWrite die a p.data (wakeFor die a n d))))) ∧
        (∀ r c off, to0 = .sp r c off → Becomes (.write p t) s (drainRequests (bankEnqueue
          { packet := p, source := d.sourceOf p, region := r, cell := c, off := off, size := n, rows := rowsOf off n } d))) ∧
        (∀ off, to0 = .regs off →
          (d.is R.SEC_CTL_remote_bar2 = false →
            Becomes (.write p t) s (drainRequests (bounce p stRefused (refuseAccess d)))) ∧
          (d.is R.SEC_CTL_remote_bar2 = true → off % 8 ≠ 0 →
            Becomes (.write p t) s (drainRequests (respond p opWriteAck stOk [] (countRefused d)))) ∧
          (d.is R.SEC_CTL_remote_bar2 = true → off % 8 = 0 → Becomes (.write p t) s (drainRequests
            (respond p opWriteAck stOk [] ((List.range (n / 8)).foldl (fun d k =>
              writeBar2 (off + 8 * k) .full (3 + p.src.toNat) (leNat ((p.data.drop (8 * k)).take 8)) d.now d) d)))))) ∧
      (p.opcode.toNat = opRelay →
        (∀ i r, d.recvRun p = some i → d.run i = some r → d.powerState ≠ psPark →
          Becomes (.relay p t) s (drainRequests (respond p opWriteAck stOk []
            { d with ferry := { d.ferry with runs := tput none d.ferry.runs i (some { r with rx := r.rx ++ p.data }) } }))) ∧
        (d.recvRun p = none → Becomes (.relay p t) s (drainRequests (bounce p stRefused d))))) ∧
    (packetOk p = true → p.opcode.toNat = opMgmtReq → ∀ a : Option (BitVec 7 × BitVec 32),
      let q := a.map (fun x => (x.1.toNat, x.2.toNat))
      (d.fabric.keeperRestart = true → Becomes (.mgmtReq p a t) s (drainRequests
        { d with fabric := { d.fabric with mgmt := d.fabric.mgmt ++ [(p, q)] } })) ∧
      (d.fabric.keeperRestart = false → Becomes (.mgmtReq p a t) s (drainRequests (keeperAnswer p q d))))

/-- READ_RESP, WRITE_ACK, BOUNCE and MGMT_RESP (R333), DRIFT_REQ_TIMEOUT (R334), DRIFT_FORWARD (R322, R325 to R330).
It rests on the choices of notes/assumptions, entries 51 and 53. -/
def Obligations.DriftResponsesAndForwarding : Prop :=
  ∀ (s : State) (t : Time), s.dev.coreUp 1 = true → s.dev.fatal = false →
    let e := s.dev.advance t
    (∀ p : Packet, p.dest.toNat = e.get R.DEV_ADDR_address → packetOk p = true →
      let d := unqueue p e
      let answers := fun (i : Instr) (ops : List Nat) =>
        (∀ r, d.answered p ops = some r → Becomes i s (drainRequests (completeReq r p.status.toNat p.data d))) ∧
        (d.answered p ops = none →
          (∀ r, d.endedNow p ops = some r →
            Becomes i s (drainRequests (responseStands r p.status.toNat p.data d))) ∧
          (d.endedNow p ops = none → Becomes i s (drainRequests (d.inc C.DRIFT_COUNTS2_stale))))
      (p.opcode.toNat = opReadResp → answers (.readResp p t) [opRead]) ∧
      (p.opcode.toNat = opWriteAck → answers (.writeAck p t) [opWrite, opRelay]) ∧
      (p.opcode.toNat = opBounce → answers (.bounce p t) [opRead, opWrite, opRelay, opMgmtReq, opLaunch]) ∧
      (p.opcode.toNat = opMgmtResp → answers (.mgmtResp p t) [opMgmtReq, opLaunch])) ∧
    (∀ (q : BitVec 4) (tag : BitVec 12) r,
      e.fabric.reqs.find? (fun r => decide (r.requester = q.toNat ∧ r.packet.tag.toNat = tag.toNat)) = some r →
      tdiff t r.issued ≥ (e.before R.DRIFT_CTL_req_timeout * usU : Nat) →
      Becomes (.driftReqTimeout q tag t) s (drainRequests (raiseOncePerSecond 2 E.DRIFT_TIMEOUT none
        (completeReq r stTimeout [] (noteEnded r (e.inc C.DRIFT_COUNTS_timeouts)))))) ∧
    (∀ (via : Link) (vc : BitVec 2) (far : Bool) fs,
      let x := e.link via.val
      let gone := leaveBuffer via.val vc.toNat fs.length far e
      frontPacket (tget [] (if far then x.transit else x.inBuf) vc.toNat) = some fs →
      (markersOk fs = false → Becomes (.driftForward via vc far t) s (malformed gone)) ∧
      (markersOk fs = true → parsePacket vc.toNat (fs.map (·.data)) = none →
        Becomes (.driftForward via vc far t) s (malformed gone)) ∧
      (∀ p, markersOk fs = true → parsePacket vc.toNat (fs.map (·.data)) = some p →
        (∀ b, e.route p (some via.val) = (.here, b) → e.unitWaits p = false → Becomes (.driftForward via vc far t) s
          { gone with fabric := { gone.fabric with selfQ := gone.fabric.selfQ ++ [p] } }) ∧
        (∀ b, e.route p (some via.val) = (.noRoute, b) → Becomes (.driftForward via vc far t) s (noRoutePacket p gone)) ∧
        (∀ l q enters b, e.route p (some via.val) = (.out l q enters, b) →
          ((far = true ∨ dieOfLink l = dieOfLink via.val) → Becomes (.driftForward via vc far t) s
            (queueOn l q enters (if b then gone.inc C.DRIFT_COUNTS_detours else gone))) ∧
          (far = false → dieOfLink l ≠ dieOfLink via.val → 
            (tget [] x.transit vc.toNat).length + e.onWayTo via.val vc.toNat + fs.length ≤ 4 →
            Becomes (.driftForward via vc far t) s (gone.istQueue (decide (dieOfLink l = 1)) (icDrift vc.toNat) 0 0
              p.addr.toNat (4 * fs.length) (.drift via.val vc.toNat fs))))))

/-- ARB_GRANT (R339 to R341), ARB_STARVE_LIMIT (R342), ARB_WITHDRAW (R343), ARB_MASK (R344). It rests on the choices
of notes/assumptions, entries 103 and 115. -/
def Obligations.ArbiterCommandsComplete : Prop :=
  ∀ (s : State) (i : Fin 600), s.dev.coreUp (arbDie i.val) = true → s.dev.arbPresent i.val = true →
    let d := s.dev
    (∀ (m : BitVec 16) (w : Nat),
      let asks := d.arbAsks i.val m.toNat
      d.arbWinner i.val (d.arbReady i.val asks) = some w →
      let e := if d.get R.ARB_MODE_mode i = 0 then d.inc C.ARB_WATCH_grants (i.val * 16 + w) else d
      let f := (arbRequesters i.val).foldl (fun d q =>
        if q = w ∨ bit (d.get R.ARB_STATUS_masked i) q then d
        else if bit asks q then waitCycle i.val q d
        else d.setWait i.val q 0) ((arbAdvance i.val w e).setWait i.val w 0)
      let left := ((arbRequesters i.val).filter (fun q => bit asks q && decide (q ≠ w))).foldl
        (fun m q => setBit m q true) 0
      let g := f.set R.ARB_STATUS_pending i left
      ((i.val < 512 ∧ w = 1 ∧ g.fatal = false) → Becomes (.arbGrant i m) s
        (showBank (i.val / 32) (i.val % 32) (bankGrant (i.val / 32) (i.val % 32) g))) ∧
      (¬ (i.val < 512 ∧ w = 1 ∧ g.fatal = false) → Becomes (.arbGrant i m) s g)) ∧
    (∀ q : Fin 16, (arbRequesters i.val).contains q.val = true →
      (d.get R.ARB_MODE_starve_limit i ≤ d.arbWait i.val q.val → bit (d.get R.ARB_STATUS_starved i) q.val = false →
        Becomes (.arbStarveLimit i q) s ((d.setWc R.ARB_STATUS_starved i (2 ^ q.val)).raise E.ARB_STARVED none (some i.val))) ∧
      (let e := (arbAdvance i.val q.val d).setWait i.val q.val 0
       Becomes (.arbWithdraw i q) s (e.set R.ARB_STATUS_pending i (setBit (e.get R.ARB_STATUS_pending i) q.val false))) ∧
      (let e := (d.set R.ARB_STATUS_masked i (setBit (d.get R.ARB_STATUS_masked i) q.val true)).setWait i.val q.val 0
       Becomes (.arbMask i ⟨q, true⟩) s
         (e.set R.ARB_STATUS_pending i (setBit (e.get R.ARB_STATUS_pending i) q.val false))) ∧
      Becomes (.arbMask i ⟨q, false⟩) s
        (d.set R.ARB_STATUS_masked i (setBit (d.get R.ARB_STATUS_masked i) q.val false)))

/-- TIME_EXCHANGE_SEND (R353), TIME_FLIT (R354), SERVO_UPDATE (R356), TIME_ADJ_WRITE and TIME_HOST_WAIT_EXPIRY (R357),
TIME_PARENT_WRITE (R351), TIME_LINK_LOSS (R352). It rests on the choices of notes/assumptions, entries 19, 84 and 118.
-/
def Obligations.HallTimeCommandsComplete : Prop :=
  ∀ (s : State) (t : Time), s.dev.coreUp 1 = true →
    let d := s.dev.advance t
    (due d.time.sentAt d.exchangePeriod t = true → Becomes (.timeExchangeSend t) s (((List.range 6).filter (fun l => d.linkUp l)).foldl (fun d l =>
      let p := d.timePayload l
      let d := d.modLink l (fun x => { x with timeOut := x.timeOut ++ [p] })
      d.modTimeLink l (fun x => { x with seq := x.seq + 1, sent := x.sent ++ [(x.seq, t)] }))
      (d.modTime (fun x => { x with sentAt := some t })))) ∧
    (∀ (l : Link) (h : FlitHead) bs arrival, s.dev.coreUp (dieOfLink l.val) = true → d.hears l.val = true →
      Becomes (.timeFlit l h bs arrival t) s (takeTimeFlit l.val bs arrival (noteBeacon l.val h (applyHead l.val h d)))) ∧
    (due d.time.updateAt (125 * usU * 2 ^ d.time.servoPeriod) t = true →
     let e := showOffset (latchTimeCtl d)
     let own := freeRate (chooseSource true (ownUpdate e))
     let host := freeRate (chooseSource true (hostUpdate e))
     ((e.hosted 2 = true ∧ e.time.byItself = false) → Becomes (.servoUpdate t) s
       (host.modTime (fun x => { x with theta := none, byItself := false, updateAt := some host.now }))) ∧
     (¬ (e.hosted 2 = true ∧ e.time.byItself = false) → Becomes (.servoUpdate t) s
       (own.modTime (fun x => { x with theta := none, byItself := false, updateAt := some own.now })))) ∧
    (∀ v : Word, Becomes (.timeAdjWrite v t) s (d.modTime (fun x =>
      { x with adj := some (sext 32 (bits v.toNat 0 32), sext 28 (bits v.toNat 32 28), bit v.toNat 60),
               adjSince := t }))) ∧
    (d.hosted 2 = true → d.time.adj = none → tdiff t d.time.adjSince ≥ (d.time.hostWait * msU : Nat) →
      Becomes (.timeHostWaitExpiry t) s
        ((d.modTime (fun x => { x with byItself := true, adjSince := t })).raise E.HOST_WAIT_EXPIRED_TIME)) ∧
    (∀ v : Word,
      let p := bits v.toNat 0 4
      let f := bits v.toNat 4 4
      ((p < 10 ∧ f < 10) → Becomes (.timeParentWrite v) s
        ((s.dev.set R.TIME_PARENT_primary 0 p).set R.TIME_PARENT_fallback 0 f)) ∧
      (¬ (p < 10 ∧ f < 10) → Becomes (.timeParentWrite v) s (s.dev.raise E.TIME_CONFIG))) ∧
    (∀ l : Link, d.usable (l.val + 1) = false → Becomes (.timeLinkLoss l t) s (chooseSource false d))

/-- PTP_SYNC, PTP_FOLLOW_UP, PTP_DELAY_REQ_SEND, PTP_DELAY_RESP, PTP_ANNOUNCE, PTP_ANNOUNCE_TIMEOUT (R360 to R362),
PPS_EDGE (R363), PPS_LOSS_TIMEOUT (R352), CAPTURE_EDGE and CAPTURE_VALUE_READ (R364), PULSE_ARM and PULSE_FIRE (R365),
CALENDAR_SYNC (R366). It rests on the choices of notes/assumptions, entries 84 and 88. -/
def Obligations.TimeSourceCommandsComplete : Prop :=
  ∀ (s : State) (t : Time), s.dev.coreUp 1 = true →
    let d := s.dev.advance t
    (∀ (q : Fin 2) (m : PtpHead) (origin : PtpTime) (arrival : Time), d.ptpTakes q.val m = true →
      Becomes (.ptpSync q m true origin arrival t) s (d.modPtp q.val (fun x =>
        { x with waiting := some (m.seq, arrival, corrUnits m.correction) })) ∧
      Becomes (.ptpSync q m false origin arrival t) s (ptpMeasure q.val (d.modPtp q.val (fun x =>
        { x with sync := some (d.ptpUnits origin + corrUnits m.correction, (arrival.toNat : Int)) }))) ∧
      (∀ c, (d.ptp q.val).waiting = some (m.seq, arrival, c) → Becomes (.ptpFollowUp q m origin t) s
        (ptpMeasure q.val (d.modPtp q.val (fun x =>
          { x with waiting := none,
                   sync := some (d.ptpUnits origin + c + corrUnits m.correction, (arrival.toNat : Int)) })))) ∧
      (∀ t1 t2, (d.ptp q.val).req = some (m.seq, arrival) → (d.ptp q.val).sync = some (t1, t2) →
        let t4 := d.ptpUnits origin - corrUnits m.correction
        Becomes (.ptpDelayResp q m origin t) s (ptpMeasure q.val (d.modPtp q.val (fun x =>
          { x with req := none, delay := some (((t2 - t1) + (t4 - (arrival.toNat : Int))) / 2) }))))) ∧
    (∀ (q : Fin 2) (m : PtpHead) (utc : BitVec 16) (log : BitVec 8),
      let f := if (d.quayUp q.val = true ∧ d.get R.TIME_PTP_gm_identity q = 0 ∧ (d.ptp q.val).gm = none) ∧
            d.is R.TIME_PTP_enable q = true ∧ m.domain.toNat = d.get R.TIME_PTP_domain q ∧
            m.udp = d.is R.TIME_PTP_transport q then
          d.modPtp q.val (fun x => { x with gm := some m.gm }) else d
      f.ptpTakes q.val m = true →
      let e := log.toInt
      let gap := if e ≥ 0 then secU * 2 ^ e.toNat else secU / 2 ^ (-e).toNat
      let a := f.modPtp q.val (fun x => { x with announceAt := some t, interval := gap })
      let b := if a.get R.TIME_PTP_state q = ptLost then
          (a.modPtp q.val (fun x => { x with sync := none, delay := none, waiting := none })).set R.TIME_PTP_state q ptListen
        else a
      Becomes (.ptpAnnounce q m true utc log t) s ((b.setRw R.TIME_UTC_utc_offset 0 utc.toNat).set R.TIME_UTC_from_ptp 0 1) ∧
      Becomes (.ptpAnnounce q m false utc log t) s b) ∧
    (∀ q : Fin 2, d.is R.TIME_PTP_enable q = true → d.quayUp q.val = true →
      due ((d.ptp q.val).sent.getLast?.map (·.2)) (secU * 2 ^ d.get R.TIME_PTP_delay_req_log q / 128) t = true →
      Becomes (.ptpDelayReqSend q t) s
      (d.modPtp q.val (fun x => { x with req := some (x.seq, t), seq := x.seq + 1, sent := x.sent ++ [(x.seq, t)] }))) ∧
    (∀ (q : Fin 2) t0, (d.ptp q.val).announceAt = some t0 →
      (d.get R.TIME_PTP_state q = ptListen ∨ d.get R.TIME_PTP_state q = ptTracking) →
      tdiff t t0 ≥ (d.get R.TIME_PTP_announce_timeout q * (d.ptp q.val).interval : Nat) →
      Becomes (.ptpAnnounceTimeout q t) s
        (chooseSource false ((d.modPtp q.val (fun x => { x with gm := none })).set R.TIME_PTP_state q ptLost))) ∧
    (∀ falling : Bool, d.is R.TIME_PPS_enable = true → d.is R.TIME_PPS_edge = falling →
      let e := d.modTime (fun x => { x with ppsAt := some t })
      let r := t.toNat % secU
      let theta : Int := if r ≤ secU / 2 then (r : Int) else (r : Int) - secU
      ((e.get R.TIME_STATUS_source = 9 ∧ e.time.lost = false) → Becomes (.ppsEdge falling t) s
        (e.modTime (fun x => { x with theta := some theta, delay := 0 }))) ∧
      (¬ (e.get R.TIME_STATUS_source = 9 ∧ e.time.lost = false) →
        Becomes (.ppsEdge falling t) s (chooseSource false e))) ∧
    (d.usable 9 = false → Becomes (.ppsLossTimeout t) s (chooseSource false d)) ∧
    (∀ falling : Bool,
      let x := edgeTime t s.dev
      x.1.is R.TIME_CAPTURE_enable = true → x.1.is R.TIME_CAPTURE_edge = falling →
      let e := ((x.1.set R.TIME_CAPTURE_value 0 x.2.toNat).incW R.TIME_CAPTURE_count).modTime
        (fun x => { x with unread := true })
      (x.1.time.unread = false → Becomes (.captureEdge falling t) s e) ∧
      (x.1.time.unread = true → Becomes (.captureEdge falling t) s
        ((e.setWc R.TIME_CAPTURE_overrun 0 1).raise E.TIME_CAPTURE_OVERRUN))) ∧
    (let e := s.dev.modTime (fun x => { x with unread := false })
     Becomes .captureValueRead s { e with host := { e.host with
       readData := e.host.readData ++ [leBytes 8 (e.get R.TIME_CAPTURE_value)] } }) ∧
    (∀ p : Fin 4,
      (let a := (d.noteWrite R.TIME_PULSE_arm p 0).set R.TIME_PULSE_arm p 1
       Becomes (.pulseArm p t) s (armPulse p.val (BitVec.ofNat 64 (a.get R.TIME_PULSE_start p)) a)) ∧
      (let start := tget 0 d.time.pulseAt p.val
       let e := d.modTime (fun x => { x with pulses := x.pulses ++ [(p.val, start, d.get R.TIME_PULSE_width p)] })
       d.is R.TIME_PULSE_armed p = true → tdiff t start ≥ 0 →
        (e.get R.TIME_PULSE_period p = 0 → Becomes (.pulseFire p t) s ((e.set R.TIME_PULSE_armed p 0).clearWs R.TIME_PULSE_arm p)) ∧
        (e.get R.TIME_PULSE_period p ≠ 0 → Becomes (.pulseFire p t) s (e.modTime (fun x => { x with
          pulseAt := tput 0 x.pulseAt p.val (start + BitVec.ofNat 64 (e.get R.TIME_PULSE_period p)) }))))) ∧
    (d.calendarGood = true → due d.time.calendarAt (3600 * secU) d.now = true → Becomes (.calendarSync t) s (setCalendar d))

/-- ADMIT and ADMIT_COMPLETE (R379, R400), ADMIT_RELEASE (R63), LAUNCH_START (R383), LAUNCH_RECORD (R382), LAUNCH_ACK
(R386), LAUNCH_SEND and LAUNCH_HOST_WAIT_EXPIRY (R387), LAUNCH_WAIT_EXPIRY (R385). It rests on the choices of
notes/assumptions, entries 21, 24 and 89. -/
def Obligations.LaunchCommandsComplete : Prop :=
  ∀ (s : State) (t : Time), s.dev.coreUp 1 = true →
    let d := s.dev.advance t
    let still := fun e : Dev => e.get R.TIDE_STATUS_state = tsStopped ∨ e.get R.TIDE_STATUS_state = tsFaulted
    (still d → d.get R.DEV_ADMIT_STATUS_state ≠ asLoading → Becomes (.admitPlan t) s (d.set R.DEV_ADMIT_STATUS_state 0 asLoading)) ∧
    (∀ n : BitVec 5, d.get R.DEV_ADMIT_STATUS_state = asLoading → d.reinitPending = false →
      let map := d.get R.DEV_ADMIT_MAP_map
      (∀ image, d.svc.loading = some image → Becomes (.admitComplete n t) s
        (afterAdmission (svcAdmitted (takeHeld (admitPlan image map n.toNat d))))) ∧
      (d.svc.loading = none → Becomes (.admitComplete n t) s
        (afterAdmission (takeHeld (admitPlan (d.get R.DEV_ADMIT_IMAGE_image) map n.toNat d))))) ∧
    (still s.dev → Becomes .admitRelease s (gateService { releasePlan s.dev with launch :=
      { held := s.dev.launch.held, heldStart := s.dev.launch.heldStart } })) ∧
    (s.dev.fatal = false →
      (∀ n : BitVec 48, d.is R.TIDE_LAUNCH_valid = false → d.get R.DEV_ADMIT_STATUS_state ≠ asLoading →
        (d.admitted = true → Becomes (.launchStart n t) s (takeLaunch n.toNat d.plan.virtualDevice none d)) ∧
        (d.admitted = false → Becomes (.launchStart n t) s (d.raise E.LAUNCH_REFUSED))) ∧
      (∀ p : Packet, p.opcode.toNat = opLaunch → p.dest.toNat = d.get R.DEV_ADDR_address → packetOk p = true →
        (p.data.getD 28 0 = 0 → Becomes (.launchRecord p t) s (drainRequests (launchRecord p (unqueue p d)))) ∧
        (p.data.getD 28 0 = 1 → Becomes (.launchAck p t) s (drainRequests (launchAck p (unqueue p d))))) ∧
      (∀ v : BitVec 15, d.hosted 5 = true → d.launch.tide.isSome = true → v.toNat < d.plan.deviceCount →
        (∀ c ∈ d.launch.children, c.index ≠ v.toNat) → Becomes (.launchSend v t) s
          (settleLaunch (sendRecord v.toNat (modLaunch (fun x => { x with asked := none }) d)))) ∧
      (∀ (v : BitVec 15) c, d.launch.children.find? (fun c => decide (c.index = v.toNat)) = some c →
        tdiff t c.sentAt ≥ (d.get R.DEV_LAUNCH_CTL_launch_wait * usU : Nat) →
        Becomes (.launchWaitExpiry v t) s (settleLaunch (loseChild v.toNat d))) ∧
      (∀ since, d.launch.asked = some since → tdiff t since ≥ (d.get R.DEV_LAUNCH_CTL_host_wait * msU : Nat) →
        Becomes (.launchHostWaitExpiry t) s (settleLaunch (relayAll
          ((modLaunch (fun x => { x with asked := none }) d).raise E.HOST_WAIT_EXPIRED_LAUNCH)))))

/-- PERST and PERST_RELEASE (R404, R412), HOST_LINK_DOWN and HOST_LINK_UP (R402, R411), HOST_MEM_WRITE (R405, R407),
HOST_MEM_READ and BI_SNOOP_RESPONSE (R405, R406), CXL_CACHE_COMPLETION (R413), DOE_DISCOVERY and CDAT_READ (R410),
HDM_DECODER_COMMIT (R405). -/
def Obligations.HostPortCommandsComplete : Prop :=
  ∀ (s : State) (t : Time),
    let u := s.dev
    let d := u.advance t
    (let e := (List.range 16).foldl (fun d i => d.setRw R.SVC_OUT_enable i 0) (hostDown d)
     Becomes (.perst t) s (drainRequests (onCore 1 takeReady
      ((resetHp e).modHost (fun h => { h with held := true, perst := true }))))) ∧
    Becomes (.perstRelease t) s (d.modHost (fun h =>
      { h with perst := false, held := decide (d.get R.PWR_STATE_state = 3 ∧ d.get R.SEC_BOOT_stage = 0) })) ∧
    Becomes (.hostLinkDown t) s (drainRequests (onCore 1 takeReady (hostDown d))) ∧
    (∀ wide fast : Bool, d.host.held = false → d.is R.HOST_STATUS_link_up = false →
      Becomes (.hostLinkUp wide fast t) s ((sendPending (((d.set R.HOST_STATUS_link_up 0 1).set R.HOST_STATUS_width 0
        (if wide then 16 else 8)).setB R.HOST_STATUS_rate 0 fast)).raise E.HOST_LINK_UP)) ∧
    (∀ (die : Die) (a : BitVec 39) (dirty : Option (List Byte)),
      let l := hostLine die.val a.toNat
      let drop := fun (xs : List Nat) => xs.filter (fun x => !decide (x = l))
      d.host.snoopOut.contains l = true →
      let e := match dirty with
        | some bs => hbmWrite die.val (a.toNat / 64 * 64) (bs.take 64) d
        | none => d
      let f := showSnoop (e.modHost (fun h => { h with snoop := drop h.snoop, snoopOut := drop h.snoopOut }))
      let go := fun d => drainRequests (onCore 1 takeReady (freePackets (fun d p => d.packetLines p) d))
      (f.host.waitReads = [] → Becomes (.biSnoopResponse die a dirty t) s (go f)) ∧
      (∀ r rest, f.host.waitReads = r :: rest → Becomes (.biSnoopResponse die a dirty t) s
        (go (cachedRead r (f.modHost (fun h => { h with waitReads := rest })))))) ∧
    (u.is R.HOST_STATUS_link_up = true →
      (∀ (a : Word) bs die x, u.hdmAt a.toNat bs.length = some (die, x) → u.coreUp die = true →
        (die = 0 ∨ u.isthmusUp = true) → u.bytesTrain die x bs.length = false →
        let e := wakeFor die x bs.length u
        e.hdmAt a.toNat bs.length = some (die, x) → e.is R.HOST_STATUS_link_up = true →
        Becomes (.hostMemWrite a bs false) s (hbmWrite die x bs e) ∧
        Becomes (.hostMemWrite a bs true) s ((e.inc C.HOST_COUNTS_poisoned).raise E.HOST_POISON)) ∧
      (∀ (a : Word) us die x, u.hdmAt (a.toNat / 64 * 64) 64 = some (die, x) → u.coreUp die = true →
        (die = 0 ∨ u.isthmusUp = true) → u.bytesTrain die x 64 = false →
        let e := takeHbmUpsets us (wakeFor die x 64 u)
        e.hdmAt (a.toNat / 64 * 64) 64 = some (die, x) → e.is R.HOST_STATUS_link_up = true →
        Becomes (.hostMemRead a false us) s (answerRead (hbmKey die x) e) ∧
        Becomes (.hostMemRead a true us) s (cachedRead (hostLine die x) e)) ∧
      (∀ (n : Fin 4) (base : Word), u.hdmSize n.val ≠ 0 → u.host.held = false → Becomes (.hdmDecoderCommit n base) s
        (((u.set R.HOST_HDM_size n (u.hdmSize n.val)).set R.HOST_HDM_base n (base.toNat / 0x10000000)).set
          R.HOST_HDM_committed n 1)) ∧
      (∀ (m : Fin 2) (i : BitVec 8),
        let l := u.doeTypes m.val
        let e := l.getD i.toNat (0xFFFF, 0)
        Becomes (.doeDiscovery m i) s (doeAnswer m.val (leBytes 2 e.1 ++ leBytes 1 e.2 ++
          leBytes 1 (if i.toNat + 1 < l.length then i.toNat + 1 else 0)) u)) ∧
      (∀ n : BitVec 16, n.toNat < 4 → Becomes (.cdatRead n) s (doeAnswer 0 (cdatEntry n.toNat) u))) ∧
    (u.coreUp 1 = true → ∀ (use : CxlUse) (off : BitVec 32) bs, u.cacheOpen use = true →
      Becomes (.cxlCacheCompletion use off false bs) s (noteCache use off.toNat false bs u) ∧
      Becomes (.cxlCacheCompletion use off true bs) s (cacheLost use (noteCache use off.toNat true bs u)))

/-- ARP_REQUEST and FCS_FAILED_FRAME (R415), ROCE_READ_RESPONSE and ROCE_ACK_TIMEOUT (R416, R418), PFC_PAUSE (R414),
QUAY_TARGET_ENABLE and QUAY_TARGET_DISABLE (R417), QUAY_LINK_DOWN and QUAY_LINK_UP (R419). It rests on the choices of
notes/assumptions, entries 85 and 119. -/
def Obligations.QuayCommandsComplete : Prop :=
  ∀ (s : State) (t : Time), s.dev.coreUp 1 = true → s.dev.quayPresent = true →
    let u := s.dev
    let d := u.advance t
    d.quayPresent = true →
    (∀ (q : Fin 2) (ip from0 : BitVec 32) (mac : BitVec 48), u.quayUp q.val = true →
      ip.toNat = u.get R.QUAY_PORT_ipv4 q → Becomes (.arpRequest q ip mac from0) s (sendQuay (.arp q.val mac from0) u)) ∧
    (∀ q : Fin 2, u.quayUp q.val = true →
      Becomes (.fcsFailedFrame q .fcs) s (u.inc C.QUAY_COUNTS_fcs_errors q) ∧
      Becomes (.fcsFailedFrame q .icrc) s (u.inc C.QUAY_COUNTS_icrc_errors q) ∧
      Becomes (.fcsFailedFrame q .other) s u) ∧
    (∀ (k : Fin 64) (psn : BitVec 24) (marked : Bool) bs r rest, d.get R.QUAY_TARGET_state k = qsReady →
      d.quayUp (d.get R.QUAY_TARGET_port k) = true →
      let e := if marked then sendCnp k.val d else d
      let want := r.psn + BitVec.ofNat 24 r.got
      (e.qp k.val).reads = r :: rest →
      (psn = want → bs.length = Nat.min quayMtu (r.len - quayMtu * r.got) →
        Becomes (.roceReadResponse k psn marked bs t) s (takeResponse k.val r rest bs e)) ∧
      (psn ≠ want → (psn - want).toInt > 0 → (e.qp k.val).again = false →
        Becomes (.roceReadResponse k psn marked bs t) s (retryReads k.val e))) ∧
    (∀ k : Fin 64, d.get R.QUAY_TARGET_state k = qsReady → (d.qp k.val).reads ≠ [] →
      tdiff t (d.qp k.val).timerAt ≥ (quayTimeout : Nat) → Becomes (.roceAckTimeout k t) s (retryReads k.val d)) ∧
    (∀ (q : Fin 2) (n : BitVec 3) (quanta : BitVec 16), d.quayUp q.val = true → n.toNat = d.get R.QUAY_PORT_pcp q →
      let stop := d.now + BitVec.ofNat 64 (quanta.toNat * 2048 / 100)
      let e := { d with quay := { d.quay with pauseEnd := tput 0 d.quay.pauseEnd q.val stop } }
      (quanta.toNat ≠ 0 → Becomes (.pfcPause q n quanta t) s (e.setB R.QUAY_PORT_paused q true)) ∧
      (quanta.toNat = 0 →
        let f := e.setB R.QUAY_PORT_paused q false
        Becomes (.pfcPause q n quanta t) s (((List.range 64).filter (fun t =>
          decide (f.get R.QUAY_TARGET_port t = q.val ∧ (f.qp t).waiting ≠ []))).foldl (fun d t => issueReads t d) f))) ∧
    (∀ (k : Fin 64) (v : Word),
      (d.is R.QUAY_TARGET_enable k = false →
        let e := dropReads k.val (setTarget k.val v.toNat d)
        let f := e.modQp k.val (fun x => { x with next := BitVec.ofNat 24 (e.get R.QUAY_TARGET_sq_psn k), cnpAt := none })
        let g := (f.set R.QUAY_TARGET_enable k 1).set R.QUAY_TARGET_state k qsReady
        let down := tget none g.quay.downAt (g.get R.QUAY_TARGET_port k) = some (cycleOf g.now)
        (¬ down → Becomes (.quayTargetEnable k v t) s g) ∧
        (down → Becomes (.quayTargetEnable k v t) s (targetError k g))) ∧
      (u.is R.QUAY_TARGET_enable k = true → Becomes (.quayTargetDisable k v) s (failFetches k.val (dropReads k.val
        ((u.set R.QUAY_TARGET_enable k 0).set R.QUAY_TARGET_state k qsIdle)))) ∧
      (u.is R.QUAY_TARGET_enable k = false → Becomes (.quayTargetDisable k v) s (setTarget k.val v.toNat u))) ∧
    (∀ q : Fin 2,
      (d.is R.QUAY_PORT_link_up q = true →
        let c := (d.set R.QUAY_PORT_link_up q 0).set R.QUAY_PORT_paused q 0
        let c := { c with quay := { c.quay with downAt := tput none c.quay.downAt q.val (some (cycleOf c.now)) } }
        let e := (c.inc C.QUAY_COUNTS_link_downs q).raise E.QUAY_LINK_DOWN none (some q.val)
        let f := ((List.range 64).filter (fun t => decide (e.get R.QUAY_TARGET_port t = q.val ∧
          e.get R.QUAY_TARGET_state t = qsReady))).foldl (fun d t => targetError t d) e
        (f.get R.TIME_PTP_state q = ptIdle → Becomes (.quayLinkDown q t) s f) ∧
        (f.get R.TIME_PTP_state q ≠ ptIdle → Becomes (.quayLinkDown q t) s
          (chooseSource false ((f.modPtp q.val (fun x => { x with gm := none })).set R.TIME_PTP_state q ptLost)))) ∧
      (d.is R.QUAY_PORT_enable q = true → d.is R.QUAY_PORT_link_up q = false → Becomes (.quayLinkUp q t) s
        ((d.set R.QUAY_PORT_link_up q 1).raise E.QUAY_LINK_UP none (some q.val))))

/-- I3C_READ, I3C_WRITE, SETDASA and ENTDAA (R420), the JTAG instructions (R422), JTAG_VENDOR_PRIVATE while debug is locked
(R476). -/
def Obligations.SidebandCommandsComplete : Prop :=
  ∀ s : State,
    let side := fun f => { s with dev := { s.dev with side := f s.dev.side } }
    let out := fun (op : JtagOp) (tdi : List Bool) =>
      side (fun x => { x with jtag := op, tdo := x.tdo ++ [(false :: tdi).take tdi.length] })
    let edge := fun (op : JtagOp) (pins tdi : List Bool) => side (fun x => { x with
      jtag := op, boundary := (pins ++ tdi).drop tdi.length, latch := (pins ++ tdi).drop tdi.length,
      tdo := x.tdo ++ [(pins ++ tdi).take tdi.length] })
    (∀ a n : BitVec 8, exec (.i3cRead a n) s = .next (side (fun x =>
      { x with i3c := x.i3c ++ [(List.range n.toNat).map (fun i => s.dev.i3cMap.getD (a.toNat + i) 0)] }))) ∧
    (∀ (a : BitVec 8) bs, exec (.i3cWrite a bs) s = .next s) ∧
    (∀ a dyn : BitVec 7,
      (a.toNat = s.dev.i3cStatic → exec (.setdasa a dyn) s = .next (side (fun x => { x with dyn := some dyn }))) ∧
      (a.toNat ≠ s.dev.i3cStatic → exec (.setdasa a dyn) s = .next s)) ∧
    (∀ dyn : BitVec 7, exec (.entdaa dyn) s = .next (side (fun x => { x with dyn := some (x.dyn.getD dyn) }))) ∧
    (∀ tdi, exec (.jtagBypass tdi) s = .next (out .bypass tdi)) ∧
    exec .jtagIdcode s = .next (side (fun x => { x with jtag := .idcode, tdo := x.tdo ++ [idcodeBits] })) ∧
    (∀ pins tdi, exec (.samplePreload pins tdi) s = .next (edge .samplePreload pins tdi)) ∧
    (∀ pins tdi, exec (.extest pins tdi) s = .next (edge .extest pins tdi)) ∧
    (∀ tdi, exec (.clamp tdi) s = .next (out .clamp tdi)) ∧
    (∀ tdi, exec (.highz tdi) s = .next (out .highz tdi)) ∧
    (∀ code tdi, s.dev.is R.SEC_DEBUG_unlocked = false → exec (.jtagVendorPrivate code tdi) s = .next (out .bypass tdi))

/-- CLK_MON_WINDOW and CLK_NO_EDGE_TIMEOUT (R426, R427), CLK_RECHECK, CLK_RELOCK and RECHECK_COMPLETE (R431), GATE_ON
and GATE_OFF (R433). It rests on the choices of notes/assumptions, entries 34 and 77. -/
def Obligations.ClockCommandsComplete : Prop :=
  ∀ (s : State) (t : Time),
    let d := s.dev.advance t
    (∀ (k : Fin 19) (ppm : BitVec 32),
      let good := decide (ppm.toInt.natAbs ≤ clkBand k.val)
      let count := fun (n : Nat) => d.modClk (fun c => { c with outside := tput 0 c.outside k.val n })
      (d.clkFailed k.val = true →
        Becomes (.clkMonWindow k ppm t) s (noteRecheck k.val good d) ∧
        Becomes (.clkNoEdgeTimeout k t) s (noteRecheck k.val false d) ∧
        (∀ n, tget none d.clk.recheck k.val = some n →
          (good = true → Becomes (.clkMonWindow k ppm t) s (setRecheck k.val (some (n + 1)) d)) ∧
          (good = false → Becomes (.clkMonWindow k ppm t) s (clkResult crFailed (setRecheck k.val none d))))) ∧
      (d.clkFailed k.val = false →
        let e := ((countClk k.val (showClk k.val true (count 0))).raise E.CLK_FAIL
          (if k.val < 3 then none else some (k.val - 3)) (some k.val))
        Becomes (.clkNoEdgeTimeout k t) s (clkConsequence k.val e) ∧
        (good = true → Becomes (.clkMonWindow k ppm t) s (count 0)) ∧
        (good = false → tget 0 d.clk.outside k.val = 0 → Becomes (.clkMonWindow k ppm t) s (count 1)) ∧
        (good = false → tget 0 d.clk.outside k.val ≠ 0 →
          Becomes (.clkMonWindow k ppm t) s (clkConsequence k.val e)))) ∧
    (∀ k : Fin 19, d.tideIdle = true → d.clkFailed k.val = true →
      let e := clkResult crDone (setRecheck k.val (some 0) d)
      (k.val < 3 → Becomes (.clkRecheck (BitVec.ofNat 5 k.val) t) s e) ∧
      (3 ≤ k.val → Becomes (.clkRelock (BitVec.ofNat 5 (k.val - 3)) t) s e)) ∧
    (∀ (k : Fin 19) (n : Nat),
      tget none d.clk.recheck k.val = some n → 100 ≤ n →
        (d.tideIdle = true → Becomes (.recheckComplete k t) s (returnClk k.val (setRecheck k.val none d))) ∧
        (d.tideIdle = false → Becomes (.recheckComplete k t) s (clkResult crBusy (setRecheck k.val none d)))) ∧
    (∀ v : Word,
      let n := gateNode v.toNat
      s.dev.gateExists n = true → s.dev.gateBusy n = false →
      (s.dev.pwr.tripped.contains (dieOf n.region) = false → Becomes (.gateOn v) s (clkResult crDone
        ((List.range (n.level + 1)).foldl (fun d k => setGate { n with level := k } true d) s.dev))) ∧
      (s.dev.childOn n = false → Becomes (.gateOff v) s (clkResult crDone (setGate n false s.dev))))

/-- DFLL_STEP (R435, R436), DROOP_STRETCH and PWR_STRETCH_WRITE (R437), THERMAL_LIMIT_EXCEEDED, THERMAL_STEP and
THERMAL_TRIP (R438), POWER_CAP_STEP (R439), NEIGHBOUR_CHECK (R440). It rests on the choices of notes/assumptions,
entries 35, 36 and 76. -/
def Obligations.RegionLimitCommandsComplete : Prop :=
  ∀ (s : State) (t : Time),
    let d := s.dev.advance t
    (∀ (r : Region) (best : BitVec 10) (margin : BitVec 8), d.dfllRuns r.val = true →
      let a := (d.modRegClk r.val (fun c => { c with best := best.toNat })).set R.CLK_REGION_STATUS_margin r margin.toNat
      let f := a.get R.CLK_REGION_STATUS_f_now r
      let g := a.fGoal r.val
      let f' := if ¬ lapsed (a.regClk r.val).steppedAt (100 * nsU) t then f
        else if f < g then Nat.min g (f + 5) else Nat.max g (f - 5)
      let e := if f' = f then a
        else (a.modRegClk r.val (fun c => { c with steppedAt := some t })).set R.CLK_REGION_STATUS_f_now r f'
      let tide := e.get R.TIDE_NUMBER_tide
      let floor := e.is R.CLK_REGION_mode r = true ∧ f' = e.get R.CLK_REGION_f_min r ∧
        margin.toNat < e.get R.CLK_REGION_margin_min r ∧ (e.regClk r.val).floorTide ≠ some tide
      (floor → Becomes (.dfllStep r best margin t) s
        ((e.modRegClk r.val (fun c => { c with floorTide := some tide })).raise E.DFLL_FLOOR (some r.val))) ∧
      (¬ floor → Becomes (.dfllStep r best margin t) s e)) ∧
    (∀ (r : Region) (mv : BitVec 10) (n : BitVec 32), d.coreUp (dieOf r.val) = true →
      let shows := fun (e : Dev) =>
        let level := e.stretchLevel (e.get R.PWR_RAIL_confirmed (dieOf r.val)) mv.toNat
        let f := e.modRegClk r.val (fun c => { c with droop := level })
        f.set R.CLK_REGION_STATUS_stretch r (Nat.max level (f.dipStretch (dieOf r.val)))
      (d.get R.CLK_REGION_STATUS_stretch r ≠ 0 →
        Becomes (.droopStretch r mv n t) s (shows (d.incP R.CLK_STRETCH_periods r n.toNat))) ∧
      (d.get R.CLK_REGION_STATUS_stretch r = 0 → Becomes (.droopStretch r mv n t) s (shows d))) ∧
    (∀ v : Word,
      let a := Nat.max 1 (Nat.min 20 (bits v.toNat 0 8))
      let b := Nat.max 1 (Nat.min 20 (bits v.toNat 8 8))
      let c := Nat.max 1 (Nat.min 24 (bits v.toNat 16 8))
      ((a < b ∧ b < c) → Becomes (.pwrStretchWrite v) s
        (((s.dev.set R.PWR_STRETCH_level1 0 a).set R.PWR_STRETCH_level2 0 b).set R.PWR_STRETCH_level3 0 c)) ∧
      (¬ (a < b ∧ b < c) → Becomes (.pwrStretchWrite v) s (s.dev.raise E.PWR_CONFIG))) ∧
    (∀ (r : Region) (temp : BitVec 16),
      let e := setTemp r.val temp d
      let c := e.regClk r.val
      let f := e.get R.CLK_REGION_STATUS_f_now r
      let fmin := e.get R.CLK_REGION_f_min r
      let limit : Int := (e.get R.PWR_CTL_thermal_limit * 16 : Nat)
      let th := stepCeiling c.therm c.thermAt t f fmin (under c.diff (e.fBase r.val)) (temp.toInt > limit)
        (temp.toInt ≤ limit - 80)
      let df := stepCeiling c.diff c.diffAt t f fmin (under th.1 (e.fBase r.val)) (e.tempOver r.val > 480)
        (e.tempOver r.val ≤ 400)
      Becomes (.thermalStep r temp t) s (showLimits r.val (e.modRegClk r.val (fun c =>
        { c with therm := th.1, thermAt := th.2, diff := df.1, diffAt := df.2 }))) ∧
      (temp.toInt > limit → c.therm = none → e.coreUp (dieOf r.val) = true →
        Becomes (.thermalLimitExceeded r temp t) s ((showLimits r.val (e.modRegClk r.val (fun c =>
          { c with therm := some f, thermAt := t }))).raise E.THERMAL (some r.val))) ∧
      (1840 ≤ temp.toInt → e.coreUp (dieOf r.val) = true → e.pwr.tripped.contains (dieOf r.val) = false →
        Becomes (.thermalTrip r temp t) s (({ e with
          pwr := { e.pwr with tripped := [0, 1] }, clk := { e.clk with gates := [] } }).raise
            E.THERMAL_TRIP (some r.val)))) ∧
    (∀ p : BitVec 16,
      lapsed d.pwr.capAt msU t = true →
      let e := (d.set R.PWR_POWER_power 0 p.toNat).set R.PWR_POWER_peak 0
        (Nat.max p.toNat (d.get R.PWR_POWER_peak))
      let e := { e with pwr := { e.pwr with capAt := some t } }
      let cap := e.get R.PWR_CTL_power_cap * 8
      let lower := (List.range 16).foldl (fun d r => showLimits r (d.modRegClk r (fun c =>
        { c with capDrop := Nat.min (c.capDrop + 25) (d.get R.CLK_REGION_f_max r - d.get R.CLK_REGION_f_min r) })))
        { e with pwr := { e.pwr with capping := true } }
      let upper := (List.range 16).foldl (fun d r => showLimits r (d.modRegClk r (fun c =>
        { c with capDrop := c.capDrop - 25 }))) e
      (p.toNat > cap → e.pwr.capping = false → Becomes (.powerCapStep p t) s (lower.raise E.POWER_CAP)) ∧
      (p.toNat > cap → e.pwr.capping = true → Becomes (.powerCapStep p t) s lower) ∧
      (p.toNat ≤ cap → p.toNat * 100 < cap * 95 →
        (∀ r, r < 16 → (upper.regClk r).capDrop = 0) →
        Becomes (.powerCapStep p t) s { upper with pwr := { upper.pwr with capping := false } }) ∧
      (p.toNat ≤ cap → p.toNat * 100 < cap * 95 →
        (∃ r, r < 16 ∧ (upper.regClk r).capDrop ≠ 0) → Becomes (.powerCapStep p t) s upper) ∧
      (p.toNat ≤ cap → cap * 95 ≤ p.toNat * 100 → Becomes (.powerCapStep p t) s e)) ∧
    (∀ (temps : List (BitVec 16)) (volts : List (BitVec 10)), temps.length = 16 → volts.length = 16 →
      lapsed d.clk.checkedAt (10 * usU) t = true →
      let e := (List.range 16).foldl (fun d r => setTemp r (temps.getD r 0) d)
        (d.modClk (fun c => { c with checkedAt := some t }))
      let f := (List.range 20).foldl (fun d i => [0, 1, 2].foldl (fun d q =>
        judgePair (3 * i + q) (neighbourPairs.getD i (0, 1))
          (d.coreUp (dieOf (neighbourPairs.getD i (0, 1)).1) && d.pairOver volts q (neighbourPairs.getD i (0, 1))) d) d) e
      Becomes (.neighbourCheck temps volts t) s
        ((List.range 16).foldl (startDiff t) ((List.range 16).foldl clampRegion f)))

/-- PWR_RAIL_WRITE and AVS_CONFIRM (R441), AVS_FAULT (R421), DIP_BEGIN and DIP_END (R443), SUPPLY_RESET and
CORE_RESET_RELEASE (R444, R536). It rests on the choices of notes/assumptions, entries 37 and 78. -/
def Obligations.SupplyCommandsComplete : Prop :=
  ∀ (s : State) (t : Time) (k : Die),
    let d := s.dev.advance t
    (∀ v : Word,
      let mv := Nat.max 650 (Nat.min 850 (bits v.toNat 0 10)) / 5 * 5
      Becomes (.pwrRailWrite k v t) s ((d.set R.PWR_RAIL_setpoint k mv).modPwr (fun p =>
        { p with avs := tput none p.avs k.val (some mv) }))) ∧
    (∀ mv, tget none d.pwr.avs k.val = some mv →
      Becomes (.avsConfirm k t) s ((d.set R.PWR_RAIL_confirmed k mv).modPwr (fun p =>
        { p with avs := tput none p.avs k.val none })) ∧
      Becomes (.avsFault k t) s ((d.modPwr (fun p =>
        { p with avs := tput none p.avs k.val none })).raise E.AVS_FAULT none (some k.val))) ∧
    (∀ mv : BitVec 10,
      let e := d.set R.PWR_RAIL_measured k mv.toNat
      (∀ fell, e.railBelow k.val mv.toNat 94 = true → tget none e.pwr.dips k.val = none →
        tdiff t fell ≥ (50 * nsU : Nat) →
        Becomes (.dipBegin k mv fell t) s (setDip k.val (some { since := fell, low := mv.toNat }) e)) ∧
      (∀ (low : BitVec 10) x, tget none e.pwr.dips k.val = some x → e.railClear k.val mv.toNat = true →
        let low' := Nat.min low.toNat x.low
        let ns := (tdiff t x.since).toNat / nsU
        let f := ((setDip k.val none e).set R.PWR_DIP_min_mv k low').set
          R.PWR_DIP_duration k (Nat.min (2 ^ 22 - 1) ns)
        (x.reset = true → Becomes (.dipEnd k low mv t) s (setDip k.val none e)) ∧
        (x.reset = false → Becomes (.dipEnd k low mv t) s
          ((((f.inc C.PWR_DIP_dips k).lifeTotal totDips).raise E.SUPPLY_DIP none (some k.val)).lifeAdd
            ⟨0x02, leBytes 1 k.val ++ leBytes 2 low' ++ leBytes 4 ns⟩))) ∧
      (e.railBelow k.val mv.toNat 88 = true → e.coreUp k.val = true →
        let dip := (tget none e.pwr.dips k.val).getD { since := t, low := mv.toNat }
        let f := (coreReset k.val ((setDip k.val (some { dip with reset := true }) e).inc
          C.PWR_DIP_resets k)).raise E.SUPPLY_RESET none (some k.val)
        let g := { f with fatal := false }
        let done := fun (d : Dev) => ((d.lifeTotal totResets).lifeAdd ⟨0x03, leBytes 1 k.val⟩).lifeFlush
        (k.val = 0 → e.planHeld = true →
          Becomes (.supplyReset k mv t) s (done (g.planFault E.SUPPLY_RESET none))) ∧
        (k.val = 0 → e.planHeld = false → Becomes (.supplyReset k mv t) s (done g)) ∧
        (k.val = 1 → Becomes (.supplyReset k mv t) s (done g.stopPlan))) ∧
      (e.coreUp k.val = false → e.railClear k.val mv.toNat = true →
        ¬ (e.powerState = psDormant ∧ e.pwr.boot = false) →
        let h := leaveReset k.val e
        (h.pwr.boot = true → Becomes (.coreResetRelease k mv t) s h) ∧
        (h.pwr.boot = false → k.val = 1 → Becomes (.coreResetRelease k mv t) s (bootStages h)) ∧
        (h.pwr.boot = false → k.val = 0 → h.coreUp 1 = true → h.sec.toBoot.contains 1 = false →
          Becomes (.coreResetRelease k mv t) s (bootOn [0] false h)) ∧
        (h.pwr.boot = false → k.val = 0 → ¬ (h.coreUp 1 = true ∧ h.sec.toBoot.contains 1 = false) →
          Becomes (.coreResetRelease k mv t) s h)))

/-- PWR_GOOD_LOSS and RAIL_BELOW_90_PERCENT (R446, R536), PWR_GOOD_ASSERT, PWR_CMD_PARK, PWR_CMD_IDLE and
PWR_CMD_DORMANT (R448), QUIESCE_ASSERT, PARK_ENTRY and QUIESCE_RELEASE (R451, R452), HBM_SELF_REFRESH_TIMEOUT (R449).
It rests on the choices of notes/assumptions, entries 80 and 123. -/
def Obligations.PowerStateCommandsComplete : Prop :=
  ∀ (s : State) (t : Time),
    let d := s.dev.advance t
    let lost := fun (d : Dev) => ((goDormant d).set R.PWR_STATE_state 0 psDormant).modPwr (fun p =>
      { p with wakes := true, lowSince := some d.now })
    (let e := tearEntry (spoilBoot (d.set R.PWR_STATE_pwr_good 0 0))
     e.powerState ≠ psDormant → Becomes (.pwrGoodLoss t) s (lost e)) ∧
    (let e := tearEntry (spoilBoot d)
     e.powerState ≠ psDormant → Becomes (.railBelow90Percent t) s (lost e)) ∧
    (let e := d.set R.PWR_STATE_pwr_good 0 1
     e.powerState = psDormant → e.pwr.wakes = true → lapsed e.pwr.lowSince usU t = true → e.pwr.boot = false →
      let f := e.modPwr (fun p => { p with lowSince := none, wakes := false, boot := true, avs := [] })
      let g := f.set R.PWR_RAIL_confirmed 0 (f.get R.PWR_RAIL_setpoint 0)
      let h := g.set R.PWR_RAIL_confirmed 1 (g.get R.PWR_RAIL_setpoint 1)
      Becomes (.pwrGoodAssert t) s (hpPowerUp (h.set R.SEC_BOOT_stage 0 1))) ∧
    (d.powerState = psIdle → Becomes (.pwrCmdPark t) s ((enterPark d).modPwr (fun p => { p with byCommand := true }))) ∧
    (d.powerState = psPark → d.pwr.byCommand = true → d.pwr.quiesceN = false →
      Becomes (.pwrCmdIdle t) s (setPower psIdle (releaseFerry (leavePark d)))) ∧
    ((d.powerState = psIdle ∨ d.powerState = psPark) →
      Becomes (.pwrCmdDormant t) s ((goDormant (setPower psDormant d)).modPwr (fun p => { p with wakes := false }))) ∧
    (let e := d.set R.PWR_STATE_quiesce 0 1
     let f := e.modPwr (fun p => { p with quiesceN := true })
     e.pwr.quiesceN = false →
      (f.powerState = psDormant → Becomes (.quiesceAssert t) s f) ∧
      (f.powerState ≠ psDormant → f.pwr.quiesceStep = 0 → Becomes (.quiesceAssert t) s (beginQuiesce f))) ∧
    (let e := flushQuiesce d
     e.pwr.quiesceStep = 2 → e.life.queue = [] → e.life.writing = [] →
      (e.pwr.quiesceN = true →
        Becomes (.parkEntry t) s (enterPark (e.modPwr (fun p => { p with quiesceStep := 3 })))) ∧
      (e.pwr.quiesceN = false → Becomes (.parkEntry t) s (endQuiesce t e))) ∧
    (let e := d.set R.PWR_STATE_quiesce 0 0
     e.pwr.quiesceN = true →
      let f := e.modPwr (fun p => { p with quiesceN := false })
      (f.pwr.quiesceStep = 3 → Becomes (.quiesceRelease t) s (endQuiesce t f)) ∧
      (f.pwr.quiesceStep ≠ 3 → Becomes (.quiesceRelease t) s f)) ∧
    (∀ k : Stack, d.powerState = psPark → d.pwr.refresh.contains k.val = false →
      tdiff t (tget 0 d.pwr.lastReq k.val) ≥ (100 * usU : Nat) →
      Becomes (.hbmSelfRefreshTimeout k t) s (d.modPwr (fun p => { p with refresh := p.refresh ++ [k.val] })))

/-- GET_CERTS (R471), QUOTE (R472), DEBUG_UNLOCK (R476), SVN_ADVANCE (R463), KEY_INSTALL and KEY_CLEAR (R473),
SERVICE_WRITE (R468). The quote's and the token's layout is the model's (notes/assumptions/39.md). -/
def Obligations.SecurityCommandsComplete : Prop :=
  ∀ (s : State) (t : Time),
    (s.dev.host.held = false →
      Becomes .getCerts s (doeAnswer 1 (certEntry s.dev.vendorCert ++
        certEntry (Config.certificate 0 (leBytes 8 s.dev.fuses.serial)) ++
        certEntry (Config.certificate 1 s.dev.attestSeed)) s.dev) ∧
      (∀ nonce, Becomes (.quote nonce) s
        (doeAnswer 1 (s.dev.quoteOf nonce ++ Config.sign 0 s.dev.attestSeed (s.dev.quoteOf nonce))
          (s.dev.modSec (fun x => { x with nonce := nonce }))))) ∧
    ((s.dev.advance t).host.held = false → ∀ token,
      ((s.dev.advance t).tokenOk token = true → Becomes (.debugUnlock token t) s
        (doeAnswer 1 (leBytes 4 0) ((lockDown (s.dev.advance t)).set R.SEC_DEBUG_unlocked 0 1))) ∧
      ((s.dev.advance t).tokenOk token = false → Becomes (.debugUnlock token t) s
        (doeAnswer 1 (leBytes 4 3) (s.dev.advance t)))) ∧
    (∀ c : BitVec 3, c.toNat ≤ 6 →
      let v := Nat.max (s.dev.fuses.svn.getD c.toNat 0) (s.dev.get R.SEC_SVN_active c.toNat)
      Becomes (.svnAdvance c) s
        (({ s.dev with fuses := { s.dev.fuses with svn := s.dev.fuses.svn.set c.toNat v } }).set
          R.SEC_SVN_fused c.toNat v)) ∧
    (s.dev.coreUp 1 = true → ∀ v : Word,
      let e := bits v.toNat 2 6
      let tenant := bits v.toNat 8 8
      let d := s.dev
      let cleared := d.modSec (fun x => { x with keys := tput none x.keys e none, tenants := tput 0 x.tenants e 0 })
      Becomes (.keyClear v) s (keyResult 0 (cleared.set R.SEC_KEY_VALID_valid 0
        (setBit (cleared.get R.SEC_KEY_VALID_valid) e false))) ∧
      (bit (d.get R.SEC_KEY_VALID_valid) e = true → Becomes (.keyInstall v) s (keyResult 2 d)) ∧
      (∀ b, bit (d.get R.SEC_KEY_VALID_valid) e = false → d.keyBlob = some b →
        let k := Config.kemDecap d.fuses.serial ((b.drop 0).take 1568)
        let iv := (b.drop 1568).take 12
        let c := (b.drop 1580).take 32
        let aad := leBytes 1 e ++ leBytes 1 tenant ++ leBytes 3 (d.get R.DEV_ADDR_address)
        (Config.gcmTag k iv aad c = (b.drop 1612).take 16 →
          let f := d.modSec (fun x => { x with
            keys := tput none x.keys e (some (xorBytes c (Config.gcmStream k iv 0 32))),
            tenants := tput 0 x.tenants e tenant })
          Becomes (.keyInstall v) s (keyResult 0 (f.set R.SEC_KEY_VALID_valid 0
            (setBit (f.get R.SEC_KEY_VALID_valid) e true)))) ∧
        (Config.gcmTag k iv aad c ≠ (b.drop 1612).take 16 → Becomes (.keyInstall v) s (keyResult 1 d)))) ∧
    (∀ v : Word, Becomes (.serviceWrite none v) s (s.dev.set R.DEV_REGION_SERVICE_in_service 0 v.toNat) ∧
      ∀ r : Region, Becomes (.serviceWrite (some r) v) s (s.dev.set R.DEV_CELL_SERVICE_in_service r v.toNat))

/-- LH_POWER_ON_RESET (R370), BOOT (R458), RECOVERY_OBJECT and RECOVERY_WAIT_EXPIRY (R460, R461). It rests on the
choices of notes/assumptions, entries 38 and 70. -/
def Obligations.BootCommandsComplete : Prop :=
  ∀ (s : State) (t : Time),
    let d := s.dev.advance t
    (∀ straps : BitVec 24,
      let fresh := { Dev.reset with
        fuses := s.dev.fuses, free := s.dev.free, mem := s.dev.mem.filter (fun c => decide (c.1 ≥ memKey 15 0)) }
      Becomes (.lhPowerOnReset straps) s (restoreLife s.dev.life
        ((List.range 7).foldl (fun x c => x.set R.SEC_SVN_fused c (s.dev.fuses.svn.getD c 0))
          (sampleStraps straps.toNat fresh)))) ∧
    (d.pwr.boot = true → d.get R.SEC_BOOT_stage = 1 → d.coreUp 0 = true → d.coreUp 1 = true →
      let e := takeBootSource d
      let o := objAt e.mem (norKey 0)
      (e.is R.DEV_FUNC_MODE_boot_src = true → Becomes (.boot t) s (waitRecovery false e)) ∧
      (e.is R.DEV_FUNC_MODE_boot_src = false →
        (e.accepts o 0 0 = true → Becomes (.boot t) s (bootImage o false e)) ∧
        (e.accepts o 0 0 = false → Becomes (.boot t) s (waitRecovery true e)))) ∧
    (d.get R.SEC_BOOT_stage = 14 → d.host.held = false → ∀ (off : BitVec 32) (data : List Byte),
      let n := d.sec.recv.length
      (off.toNat ≠ n → Becomes (.recoveryObject off data t) s (doeAnswer 1 (leBytes 4 rcOutOfOrder) d)) ∧
      (off.toNat = n → (data.length > 1048576 ∨ n + data.length > 0x10000 + 33554432) →
        Becomes (.recoveryObject off data t) s (doeAnswer 1 (leBytes 4 rcTooLong) d)) ∧
      (off.toNat = n → ¬ (data.length > 1048576 ∨ n + data.length > 0x10000 + 33554432) → data ≠ [] →
        Becomes (.recoveryObject off data t) s (doeAnswer 1 (leBytes 4 rcAccepted)
          (d.modSec (fun x => { x with recv := x.recv ++ data, recvOpen := true })))) ∧
      (off.toNat = n → n ≤ 0x10000 + 33554432 →
        (d.accepts (objOf d.sec.recv) 0 0 = true → Becomes (.recoveryObject off [] t) s
          (bootImage (objOf d.sec.recv) true (doeAnswer 1 (leBytes 4 rcAccepted) d))) ∧
        (d.accepts (objOf d.sec.recv) 0 0 = false → Becomes (.recoveryObject off [] t) s
          (doeAnswer 1 (leBytes 4 rcRejected)
            (d.modSec (fun x => { x with recv := [], recvOpen := false, recoverAt := t })))))) ∧
    (d.get R.SEC_BOOT_stage = 14 → d.sec.recvOpen = false →
      tdiff t d.sec.recoverAt ≥ (d.get R.SEC_CTL_recovery_wait * secU : Nat) →
      (d.accepts (objAt d.mem (norKey 0)) 0 0 = true →
        Becomes (.recoveryWaitExpiry t) s (bootImage (objAt d.mem (norKey 0)) false d)) ∧
      (d.accepts (objAt d.mem (norKey 0)) 0 0 = false → Becomes (.recoveryWaitExpiry t) s (waitRecovery true d)))

/-- UPDATE_STAGE and UPDATE_CHECK_DONE (R464), UPDATE_ACTIVATE (R465, R467), KEEPER_READY and KEEPER_READY_TIMEOUT
(R466), STACK_RETRAIN_DONE and CONFIG_WRITE_DONE (Table 17.5, R467). It rests on the choices of notes/assumptions,
entry 69. -/
def Obligations.UpdateCommandsComplete : Prop :=
  ∀ (s : State) (t : Time),
    let d := s.dev.advance t
    (d.sec.upd = none →
      let bytes := d.packageAt (d.get R.SEC_UPDATE_ADDR_addr)
      Becomes (.updateStage t) s
        (((d.modSec (fun x => { x with upd := some { bytes := bytes, component := (objOf bytes).num 7 1 } })).set
          R.SEC_UPDATE_STATUS_state 0 upChecking).set R.SEC_UPDATE_STATUS_done_mask 0 0)) ∧
    (∀ x, d.sec.upd = some x →
      let fromMemory := x.since.isSome = true ∧ (x.component = 0 ∨ x.component = 6)
      (d.get R.SEC_UPDATE_STATUS_state = upChecking →
        let e := d.set R.SEC_UPDATE_STATUS_component 0 x.component
        let good := x.component ≤ 6 ∧ e.accepts (objOf x.bytes) 1 x.component = true
        let left := instancesOf x.component ((objOf x.bytes).num 0xC 4)
        let f := (e.modUpd (fun u => { u with left := left })).set R.SEC_UPDATE_STATUS_state 0 upPending
        (good → left ≠ [] → Becomes (.updateCheckDone t) s f) ∧
        (good → left = [] → Becomes (.updateCheckDone t) s (finishUpdate x f)) ∧
        (¬ good → Becomes (.updateCheckDone t) s
          ((e.modSec (fun y => { y with upd := none })).set R.SEC_UPDATE_STATUS_state 0 upRejected))) ∧
      (∀ i rest, x.left = i :: rest → d.get R.SEC_UPDATE_STATUS_state = upPending → x.since = none →
        d.quietPoint x i = true →
        Becomes (.updateActivate false t) s (activateInst x i d) ∧
        Becomes (.updateActivate true t) s (failUpdate d)) ∧
      (x.since.isSome = true → x.component = 1 →
        Becomes (.keeperReady t) s (finishInst 0 (keeperReady d)) ∧
        (tdiff t (x.since.getD 0) ≥ (2 * secU : Nat) → Becomes (.keeperReadyTimeout t) s (failUpdate d))) ∧
      (∀ k : Stack, x.since.isSome = true → x.component = 3 → x.left.head? = some k.val →
        Becomes (.stackRetrainDone k t) s (finishInst k.val d)) ∧
      (fromMemory → Becomes (.configWriteDone false t) s (failUpdate d) ∧
        (let base := norKey (norArea x.component)
         let clean := d.mem.filter (fun c => !decide (base ≤ c.1 ∧ c.1 < base + 0x2000000))
         Becomes (.configWriteDone true t) s
          (finishInst 0 { d with mem := mwrite clean base (objOf x.bytes).payload }))))

/-- ENERGY_SAMPLE (R485, R487), METER_TIMEBASE_FAIL and METER_TIMEBASE_RESTORE (R488), METER_SUPPLY_WARNING (R491),
SEAL_OPEN, SEAL_CLOSE and SET_METER_SECONDS (R492), READ_RECORD, READ_CUSTOMER_SNAPSHOT, READ_LIVE_TOTALS,
READ_CERTIFICATE and WRITE_PARAMETER_SET (R493). The layouts sent are notes/assumptions/43.md. -/
def Obligations.MeterCommandsComplete : Prop :=
  ∀ (s : State) (t : Time), s.meter.powered = true →
    let m := s.meter
    (∀ (shunts volts : List (BitVec 32)), MeterBecomes (.energySample shunts volts) s (givePulses
      ((List.range 6).foldl (fun m ch => sampleChannel (shunts.getD ch 0).toNat (volts.getD ch 0).toNat ch m) m))) ∧
    MeterBecomes .meterTimebaseFail s { m with degraded := true, flags := setBit m.flags mfTimebase true } ∧
    MeterBecomes .meterTimebaseRestore s { m with degraded := false } ∧
    MeterBecomes (.meterSupplyWarning t) s { m with powered := false, seconds := m.secondsNow t, secondsAt := t } ∧
    MeterBecomes .sealOpen s { m with sealOpen := true, flags := setBit m.flags mfSealOpen true } ∧
    MeterBecomes .sealClose s { m with sealOpen := false } ∧
    (∀ n : Word,
      (∀ r, m.store.find? (fun r => r.number = n.toNat) = some r →
        MeterBecomes (.readRecord n) s { m with port := m.port ++ [r.bytes] } ∧
        MeterBecomes (.readCustomerSnapshot n) s { m with port := m.port ++ [totalsBytes 4096 r.customers] }) ∧
      (m.store.find? (fun r => r.number = n.toNat) = none →
        MeterBecomes (.readRecord n) s { m with port := m.port ++ [[]] } ∧
        MeterBecomes (.readCustomerSnapshot n) s { m with port := m.port ++ [[]] })) ∧
    (let status := flag m.sealOpen + 2 * flag m.degraded + 4 * flag m.absent + 16 * m.overrange.toNat
     let counts := m.paramEvents + flag m.paramSat * 2 ^ 31 + (m.interruptions + flag m.interruptSat * 2 ^ 31) * 2 ^ 32
     MeterBecomes (.readLiveTotals t) s { m with port := m.port ++
      [leBytes 8 status ++ leBytes 8 counts ++ leBytes 8 m.last.1 ++ leBytes 8 (m.secondsNow t) ++
        (List.range 6).flatMap (fun i => leBytes 8 (tget 0 m.energy i)) ++ totalsBytes 256 m.tenants ++
        totalsBytes 4096 m.customers] }) ∧
    MeterBecomes .readCertificate s { m with port := m.port ++ [m.cert ++ paramBytes m.params] } ∧
    (∀ set : List Byte,
      let n := stick 31 (m.paramEvents + flag m.paramSat * 2 ^ 31) 1
      let c := { m with paramEvents := n % 2 ^ 31, paramSat := decide (n ≥ 2 ^ 31) }
      (m.sealOpen = false → MeterBecomes (.writeParameterSet set) s { m with port := m.port ++ [[1]] }) ∧
      (m.sealOpen = true → readParams set = none →
        MeterBecomes (.writeParameterSet set) s { c with port := c.port ++ [[1]] }) ∧
      (∀ p, m.sealOpen = true → readParams set = some p →
        (m.banks < 32 → m.paramEvents ≠ 2 ^ 31 - 1 → MeterBecomes (.writeParameterSet set) s
          { c with next := some p, banks := c.banks + 1, port := c.port ++ [[0]] }) ∧
        ((32 ≤ m.banks ∨ m.paramEvents = 2 ^ 31 - 1) →
          MeterBecomes (.writeParameterSet set) s { c with port := c.port ++ [[1]] }))) ∧
    (∀ v : Word,
      (m.sealOpen = true → MeterBecomes (.setMeterSeconds v t) s
        { m with seconds := v.toNat, secondsAt := t, port := m.port ++ [[0]] }) ∧
      (m.sealOpen = false → MeterBecomes (.setMeterSeconds v t) s { m with port := m.port ++ [[1]] }))

/-- FEED_COUNT_RECORD, FEED_IDLE_FRAME, FEED_RESEND_TIMEOUT and FEED_IDLE_TIMER (R482, R483), FEED_INTERRUPTION
(R484), RECORD_INTERVAL_END and RECORD_SIGNED (R489, R490), METER_POWER_RESTORE (R491), MIRROR_REFRESH and
MIRROR_STALE_TIMEOUT (R495). It rests on the choices of notes/assumptions, entries 41, 67 and 104. -/
def Obligations.FeedAndMirrorCommandsComplete : Prop :=
  ∀ (s : State) (t : Time),
    let d := s.dev.advance t
    let m := s.meter
    let x := d.svc.feedTx
    (d.coreUp 1 = true → ∀ (flips : BitVec 192) (lost : Bool),
      (∀ r rest, x.frame = none → d.svc.feed = r :: rest →
        let sent := sendFrame false (some (r.customer, r.delivered, r.expired)) (countBody r) t d
        BothBecome (.feedCountRecord flips lost t) s (deliverFrame flips lost t (sent, m)).1
          (deliverFrame flips lost t (sent, m)).2) ∧
      (∀ f c, x.frame = some f → x.carries = some c → x.onWire = true →
        BothBecome (.feedCountRecord flips lost t) s (deliverFrame flips lost t (d, m)).1
          (deliverFrame flips lost t (d, m)).2) ∧
      (x.onWire = true → x.carries = none →
        BothBecome (.feedIdleFrame flips lost t) s (deliverFrame flips lost t (d, m)).1
          (deliverFrame flips lost t (d, m)).2)) ∧
    (s.dev.coreUp 1 = true → d.coreUp 1 = true →
      (x.frame.isSome = true → x.onWire = false → tdiff t x.sentAt ≥ (10 * usU : Nat) →
        Becomes (.feedResendTimeout t) s (modFeed (fun x => { x with onWire := true, sentAt := t }) d)) ∧
      (x.frame = none → d.svc.feed = [] → tdiff t x.idleAt ≥ (msU : Nat) →
        (d.is R.TIME_CALENDAR_synced = true → Becomes (.feedIdleTimer t) s (modFeed (fun x => { x with idleAt := t })
          (sendFrame true none d.calSeconds t d))) ∧
        (d.is R.TIME_CALENDAR_synced = false → Becomes (.feedIdleTimer t) s (modFeed (fun x => { x with idleAt := t })
          (sendFrame true none 0 t d)))) ∧
      (d.is R.METER_STATUS_stale = false → tdiff t d.mirrorAt ≥ (3 * secU : Nat) →
        Becomes (.mirrorStaleTimeout t) s ((d.set R.METER_STATUS_stale 0 1).raise E.METER_STALE))) ∧
    (m.powered = true → m.absent = false → tdiff t m.acceptedAt ≥ (10 * msU : Nat) →
      BothBecome (.feedInterruption t) s d
        { interrupt (decide (d.get R.PWR_STATE_state = 3)) m with absent := true }) ∧
    (m.powered = true → m.secondsNow t ≥ m.start + m.params.period →
      let alone := m.absent && decide (s.dev.get R.PWR_STATE_state = 3)
      let f := if alone then m.flagged mfMeterOnly else m
      BothBecome (.recordIntervalEnd t) s s.dev
        (beginInterval (m.secondsNow t) alone { f with signing := f.signing ++ [takeSnap (m.secondsNow t) t f] })) ∧
    (∀ snap rest, m.powered = true → m.signing = snap :: rest →
      let n := signRecord snap { m with signing := rest }
      BothBecome (.recordSigned t) s (refreshMirror t n d) n) ∧
    (m.powered = false →
      let cut := takeSnap m.seconds m.secondsAt ({ m with sample := none }.flagged mfRestored)
      let n := (m.signing ++ [cut]).foldl (fun m x => signRecord x m)
        { m with powered := true, secondsAt := t, signing := [], acceptedAt := t }
      let b := beginInterval n.seconds (n.absent && decide (d.get R.PWR_STATE_state = 3)) n
      BothBecome (.meterPowerRestore t) s (refreshMirror t b d) b) ∧
    (m.powered = true → d.coreUp 1 = true → lapsed m.refreshAt secU t = true →
      let e := showBytes R.METER_CERT_cert 8192 m.cert (mirrorRecord m (showMirror t m d))
      let es := mirrorEvents d m ++ List.replicate (mirrorFull d m) E.COUNTER_SATURATED
      BothBecome (.mirrorRefresh t) s
        ({ e with mirrorAt := t }.raiseAll (es.map (fun e => (e, none, none)))) { m with refreshAt := some t })

/-- ROUTER_CRC_FAIL (R497), RESET_CORES (R500), COALESCE_EXPIRY (R505), EVT_RING_BASE_WRITE (R503), EVT_STATUS_CLEAR
(R506), LIFE_SUMMARY and LIFE_MINUTE (R513, R514), LIFE_FLUSH (R515), LIFE_WRITE_DONE (R511). It rests on the choices
of notes/assumptions, entries 79, 122 and 124. -/
def Obligations.EventAndLifeCommandsComplete : Prop :=
  ∀ (s : State) (t : Time),
    let d := s.dev.advance t
    (∀ (r : Region) (a : Fin 4), s.dev.coreUp (dieOf r.val) = true → s.dev.fatal = false →
      (a.val = 3 → Becomes (.routerCrcFail r false a t) s (d.raise E.ROUTER_UE (some r.val)) ∧
        Becomes (.routerCrcFail r true a t) s (d.inc C.EVT_ROUTER_failures r)) ∧
      (a.val < 3 →
        let e := d.inc C.EVT_ROUTER_resends r
        let f := if (e.reg r.val).once.contains (E.ROUTER_CRC.code, 0) then e
          else (e.modReg r.val (fun u => { u with once := u.once ++ [(E.ROUTER_CRC.code, 0)] })).raise
            E.ROUTER_CRC (some r.val)
        let u := f.reg r.val
        (∀ y, u.slip = some y → Becomes (.routerCrcFail r false a t) s
          (f.modReg r.val (fun u => { u with slip := some { y with left := y.left + 1 } }))) ∧
        (u.slip = none → u.phase = .run → Becomes (.routerCrcFail r false a t) s
          (enterSlip r.val f.now (f.modReg r.val (fun u => { u with
            slip := some { left := 1, recorded := false, pc := f.get R.SEQ_STATUS_pc r, tick := u.tideTick,
                           cells := [] } })))) ∧
        (u.slip = none → u.phase ≠ .run → Becomes (.routerCrcFail r false a t) s f))) ∧
    Becomes (.resetCores t) s (coreReset 1 (coreReset 0 d)) ∧
    (s.dev.coreUp 1 = true →
      (∀ v : Fin 64, (tget {} d.evt.vecs v.val).held = true →
        (∀ t0, (tget {} d.evt.vecs v.val).lastSent = some t0 → tdiff t t0 ≥ (d.get R.EVT_CTL_coalesce * usU : Nat)) →
        Becomes (.coalesceExpiry v t) s (({ d with evt := { d.evt with
          vecs := tput {} d.evt.vecs v.val { lastSent := some t, held := false } } }).sendVector v.val)) ∧
      (∀ v : Word, v.toNat % 131072 = 0 →
        Becomes (.evtRingBaseWrite v) s (s.dev.set R.EVT_RING_BASE_base 0 v.toNat)) ∧
      (∀ v : Word,
        let clear := fun (f : Fld) (d : Dev) => if bit v.toNat f.lo = true ∧ d.madeNow f 0 = 0 then d.set f 0 0 else d
        Becomes (.evtStatusClear v) s (clear R.EVT_STATUS_boot_alert (clear R.EVT_STATUS_fault_seen
          (clear R.EVT_STATUS_fatal_seen (clear R.EVT_STATUS_nmi_seen s.dev)))).updateAlert)) ∧
    (lapsed d.life.hourAt (3600 * secU) t = true →
     let e := (d.modLife (fun x => { x with hourAt := some t })).inc C.LIFE_TOTALS_power_on_hours
     Becomes (.lifeSummary t) s (e.lifeAdd ⟨0x01, e.summaryBody⟩).lifeFlush) ∧
    (∀ temps : List (BitVec 16), temps.length = 16 → d.coreUp 0 = true → d.coreUp 1 = true →
      lapsed d.life.minuteAt (60 * secU) t = true →
      let e := (List.range 16).foldl (fun d r =>
        let k := 16 * r + tempBin (temps.getD r 0).toInt
        let old := tget 0 d.life.histogram k
        let f := (d.set R.CLK_REGION_STATUS_temp r (temps.getD r 0).toNat).modLife (fun l =>
          { l with histogram := tput 0 l.histogram k (stickCount 32 old 1).1 })
        if (stickCount 32 old 1).2 then f.raise E.COUNTER_SATURATED else f)
        (d.modLife (fun x => { x with minuteAt := some t }))
      ∃ hot : Int, (∃ r, r < 16 ∧ hot = (temps.getD r 0).toInt) ∧ (∀ r, r < 16 → (temps.getD r 0).toInt ≤ hot) ∧
        Becomes (.lifeMinute temps t) s (noteCycle hot e)) ∧
    (∀ v : Word,
      let e := s.dev.setB R.LIFE_CTL_enable 0 (bit v.toNat 0)
      (bit v.toNat 1 = true → Becomes (.lifeFlush v) s e.lifeFlush) ∧
      (bit v.toNat 1 = false → Becomes (.lifeFlush v) s e)) ∧
    (∀ x rest, d.life.writing = x :: rest →
      let e := d.modLife (fitSector (entryLength x.kind))
      (e.life.erased = false → Becomes (.lifeWriteDone true t) s (e.modLife (fun y =>
        { y with erased := true, log := y.log.filter (fun z => !decide (z.1 = y.sector)) }))) ∧
      (e.life.erased = true →
        let seq := (e.get R.LIFE_STATUS_seq + 1) % 2 ^ 32
        let bytes := e.entryBytes x seq
        Becomes (.lifeWriteDone true t) s (showBusy ((e.modLife (fun y => { y with
          log := y.log ++ [(y.sector, y.pos, bytes)], pos := y.pos + bytes.length, retried := false,
          writing := rest })).set R.LIFE_STATUS_seq 0 seq))) ∧
      (e.life.retried = false → Becomes (.lifeWriteDone false t) s (e.modLife (fun y =>
        { nextSector y with retried := true }))) ∧
      (e.life.retried = true → Becomes (.lifeWriteDone false t) s
        (((showBusy ((e.modLife (fun y => { y with writing := rest, retried := false })).setWc
          R.LIFE_STATUS_write_failed 0 1))).raise E.LIFE_WRITE_FAIL)))

/-- REGISTER_WRITE (R3, R509, R520, R526), BAR2_REFUSED (R527), MISALIGNED_ACCESS (R520), HALF_READ (R508). -/
def Obligations.RegisterCommandsComplete : Prop :=
  ∀ (s : State) (t : Time) (off : BitVec 25),
    let d := s.dev.advance t
    let base := off.toNat / 8 * 8
    (∀ (p : RegPart) (v : Word),
      (partAligned p off.toNat = true →
        (∀ w i, regAt base = some (w, i) →
          Becomes (.registerWrite .bar0 off p v t) s (writeReg w i p 0 v.toNat t d) ∧
          Becomes (.registerWrite .keeper off p v t) s (writeReg w i p 2 v.toNat t d) ∧
          (w.fields.any (fun r => r.bar2w) = true →
            Becomes (.registerWrite .bar2 off p v t) s (writeReg w i p 1 v.toNat t d)) ∧
          (w.bar2 = false → w.fields.any (fun r => r.bar2w) = false →
            Becomes (.registerWrite .bar2 off p v t) s (refuseAccess d))) ∧
        ∀ a : BitVec 20,
          (d.is R.SEC_CTL_remote_bar2 = true →
            Becomes (.registerWrite (.drift a) off p v t) s (writeBar2 base p (3 + a.toNat) v.toNat t d)) ∧
          (d.is R.SEC_CTL_remote_bar2 = false →
            Becomes (.registerWrite (.drift a) off p v t) s (refuseAccess d))) ∧
      (partAligned p off.toNat = false → ∀ src, Becomes (.registerWrite src off p v t) s (countRefused d))) ∧
    (∀ w i, regAt base = some (w, i) → w.bar2 = false → Becomes (.bar2Refused off t) s (refuseAccess d)) ∧
    (∀ size : BitVec 8, ¬ ((size.toNat = 4 ∨ size.toNat = 8) ∧ off.toNat % size.toNat = 0) →
      Becomes (.misalignedAccess off size t) s (countRefused d)) ∧
    (∀ (q : BitVec 22) w i, regAt base = some (w, i) → s.dev.absentReg w.word i = false → w.word ≠ 128 →
      (readsBar2 q.toNat = true → w.bar2 = true) →
      let mine := fun (x : HalfSnap) => decide (x.requester = q.toNat ∧ x.offset = base)
      let rest := s.dev.evt.snaps.filter (fun x => !mine x)
      let x := s.dev.readAt (readsBar2 q.toNat) base
      (off.toNat % 8 = 0 → Becomes (.halfRead q off) s (answerHost q.toNat (x % 2 ^ 32)
        { s.dev with evt := { s.dev.evt with snaps := rest ++ [⟨q.toNat, base, x / 2 ^ 32⟩] } })) ∧
      (off.toNat % 8 = 4 → ∀ y, s.dev.evt.snaps.find? mine = some y → Becomes (.halfRead q off) s
        (answerHost q.toNat y.high { s.dev with evt := { s.dev.evt with snaps := rest } })) ∧
      (off.toNat % 8 = 4 → s.dev.evt.snaps.find? mine = none → Becomes (.halfRead q off) s
        (answerHost q.toNat (x / 2 ^ 32) { s.dev with evt := { s.dev.evt with snaps := rest } })))

/-- A step runs the front command; the idle step is the model's choice (notes/assumptions/1.md). -/
def Obligations.StepTakesTheFrontCommand : Prop :=
  ∀ (c : Instr) (rest : List Instr) (s : State),
    step { s with pending := c :: rest } = exec c { s with pending := rest } ∧
    step { s with pending := [] } = .next { s with pending := [] }

/-- No command is refused; the one stop is JTAG_VENDOR_PRIVATE on an unlocked device (R422, R476). -/
def Obligations.EveryCommandAnswers : Prop :=
  ∀ (c : Instr) (s : State),
    ((∀ code tdi, c ≠ .jtagVendorPrivate code tdi) ∨ s.dev.is R.SEC_DEBUG_unlocked = false →
      ∃ s', exec c s = .next s' ∧ s'.pending = s.pending) ∧
    (∀ code tdi, c = .jtagVendorPrivate code tdi → s.dev.is R.SEC_DEBUG_unlocked = true → exec c s = .fault .jtagPrivate)

/-- `after` on a device with nothing to settle (R298, R299, R386, Table 16.9, R451). -/
def Obligations.NothingToSettleChangesNothing : Prop :=
  ∀ d : Dev, d.nothingToSettle → after d = d

/-- State.reset (R521), and the meter's invariant there. What unlisted memory reads as is notes/assumptions/2.md. -/
def Obligations.ResetHoldsResetValues : Prop :=
  let d := State.reset.dev
  State.reset.pending = [] ∧ (∀ (f : Fld) (i : Nat), d.get f i = f.rst) ∧
  d.get R.TIDE_CTL_overrun_policy = 1 ∧ d.get R.TIDE_CTL_lag_limit = 4 ∧ d.get R.HB_SCRUB_period = 12 ∧
  d.get R.SVC_BUDGET_CTL_hold_limit = 64 ∧ d.get R.DRIFT_CTL_req_timeout = 10000 ∧
  d.get R.TIME_EPOCH_seconds = 1735689637 ∧
  d.powerState = psDormant ∧ d.get R.SEC_BOOT_stage = 0 ∧ d.coreUp 0 = false ∧ d.coreUp 1 = false ∧
  (∀ l : Link, d.is R.CW_FENCE_fence l = true) ∧ (∀ a, mget d.mem a = 0) ∧ Memory.wf d.mem = true ∧
  State.reset.meter.Inv

/-- R490 and R491's chain of records, Table 18.2's flags, and R493's banks, over every step. -/
def Obligations.EveryStepKeepsTheMeterInvariant : Prop :=
  ∀ s s' : State, s.meter.Inv → step s = .next s' → s'.meter.Inv

/-- R483: what a count frame adds, and that the totals have no clear path. -/
def Obligations.TokenTotalsOnlyRise : Prop :=
  (∀ (f : List Byte) (t : Time) (m : MeterSt), tableWf {} m.customers = true → tableWf {} m.tenants = true →
    bit (frameNum f 2 1) 1 = false →
    let c := frameNum f 3 2 % 4096
    let n := frameNum f 5 1
    let m' := acceptFrame f t m
    let adds := fun (x y add : Nat) =>
      y % 2 ^ 63 = Nat.min (2 ^ 63 - 1) (x % 2 ^ 63 + add) ∧
      (bit y 63 = true ↔ bit x 63 = true ∨ x % 2 ^ 63 + add ≥ 2 ^ 63 - 1)
    ((∀ k, (tget {} m.customers k).delivered < 2 ^ 64 ∧ (tget {} m.customers k).expired < 2 ^ 64 ∧
        (tget {} m.tenants k).delivered < 2 ^ 64 ∧ (tget {} m.tenants k).expired < 2 ^ 64) →
      adds (tget {} m.customers c).delivered (tget {} m'.customers c).delivered (frameNum f 6 6) ∧
      adds (tget {} m.customers c).expired (tget {} m'.customers c).expired (frameNum f 12 6) ∧
      adds (tget {} m.tenants n).delivered (tget {} m'.tenants n).delivered (frameNum f 6 6) ∧
      adds (tget {} m.tenants n).expired (tget {} m'.tenants n).expired (frameNum f 12 6)) ∧
    (∀ k, k ≠ c → tget {} m'.customers k = tget {} m.customers k) ∧
    (∀ k, k ≠ n → tget {} m'.tenants k = tget {} m.tenants k)) ∧
  (∀ (i : Instr) (s s' : State), tableWf {} s.meter.customers = true → tableWf {} s.meter.tenants = true →
    exec i s = .next s' → ∀ k,
      (tget {} s.meter.customers k).le (tget {} s'.meter.customers k) ∧
      (tget {} s.meter.tenants k).le (tget {} s'.meter.tenants k))

/-- R479: the commands that are not `Instr.ofMeter` leave the meter, and those of the meter alone leave the device. -/
def Obligations.OnlyItsConnectionsReachTheMeter : Prop :=
  (∀ (i : Instr) (s s' : State), i.ofMeter = false → exec i s = .next s' → s'.meter = s.meter) ∧
  (∀ (s s' : State) (sh vo : List (BitVec 32)) (n v : Word) (set : List Byte) (t : Time),
    ∀ i ∈ [Instr.energySample sh vo, .meterTimebaseFail, .meterTimebaseRestore, .meterSupplyWarning t, .sealOpen, .sealClose,
        .readRecord n, .readCustomerSnapshot n, .readLiveTotals t, .readCertificate, .writeParameterSet set,
        .setMeterSeconds v t],
      exec i s = .next s' → s'.dev = s.dev) ∧
  (∀ (flips : BitVec 192) (t : Time) (d : Dev) (m m' : MeterSt),
    (deliverFrame flips true t (d, m)).1 = (deliverFrame flips true t (d, m')).1)

/-- R65 to R68: decoding the encoded word gives it back. -/
def Obligations.ControlWordsDecodeAsEncoded : Prop :=
  ∀ (w : CWord) (rest : Nat), w.wf = true →
    encodeWord w < 2 ^ wordBits w.slots.length ∧
    decodeWord (encodeWord w + rest * 2 ^ wordBits w.slots.length) = .ok w

/-- R68: what decodes is the encoding of what it decodes to. -/
def Obligations.DecodedWordsAreEncodings : Prop :=
  ∀ (raw : Nat) (w : CWord), decodeWord raw = .ok w →
    w.wf = true ∧ raw % 2 ^ wordBits w.slots.length = encodeWord w

/-- R125, with the conditions of Table 3.6 in the order eq, ne, lt, le, gt, ge. -/
def Obligations.MaxMinAndCompare : Prop :=
  (∀ x y : Val, (isNan x = true ∨ isNan y = true) →
    maxVal x y = .nan ∧ minVal x y = .nan ∧ ∀ k, cmpVal k x y = decide (k = 1)) ∧
  (∀ e f : Int,
    let neg := Val.fin true 0 e
    let pos := Val.fin false 0 f
    maxVal neg pos = pos ∧ maxVal pos neg = pos ∧ minVal neg pos = neg ∧ minVal pos neg = neg) ∧
  (∀ (n₁ n₂ : Bool) (m₁ m₂ : Nat) (e₁ e₂ : Int),
    let x := Val.fin n₁ m₁ e₁
    let y := Val.fin n₂ m₂ e₂
    (x.rat < y.rat → maxVal x y = y ∧ maxVal y x = y ∧ minVal x y = x ∧ minVal y x = x) ∧
    (cmpVal 0 x y = true ↔ x.rat = y.rat) ∧ (cmpVal 1 x y = true ↔ x.rat ≠ y.rat) ∧
    (cmpVal 2 x y = true ↔ x.rat < y.rat) ∧ (cmpVal 3 x y = true ↔ x.rat ≤ y.rat) ∧
    (cmpVal 4 x y = true ↔ y.rat < x.rat) ∧ (cmpVal 5 x y = true ↔ y.rat ≤ x.rat)) ∧
  (∀ y : Val, isNan y = false →
    maxVal (.inf false) y = .inf false ∧ minVal (.inf true) y = .inf true ∧
    (y ≠ .inf false → cmpVal 4 (.inf false) y = true ∧ maxVal y (.inf false) = .inf false ∧ minVal (.inf false) y = y) ∧
    (y ≠ .inf true → cmpVal 2 (.inf true) y = true ∧ minVal y (.inf true) = .inf true ∧ maxVal (.inf true) y = y)) ∧
  (∀ (bf16 : Bool) (k a b c : Nat),
    let x := laneVal bf16 a
    let y := laneVal bf16 b
    laneOp .max bf16 k a b c = toLane bf16 (maxVal x y) ∧ laneOp .min bf16 k a b c = toLane bf16 (minVal x y) ∧
    (cmpVal k x y = true → laneOp .cmp bf16 k a b c = if bf16 then 0x3F80 else 0x3F800000) ∧
    (cmpVal k x y = false → laneOp .cmp bf16 k a b c = 0))

/-- HOST_MEM_WRITE (R405): bytes stored, bytes left, the canonical form, the bytes read back. -/
def Obligations.HostWritesStoreTheirBytes : Prop :=
  ∀ (s : State) (a : Word) (bs : List Byte) (die x : Nat),
    s.dev.is R.HOST_STATUS_link_up = true → s.dev.hdmAt a.toNat bs.length = some (die, x) → s.dev.coreUp die = true →
    (die = 0 ∨ s.dev.isthmusUp = true) → s.dev.bytesTrain die x bs.length = false →
    s.dev.powerState ≠ psPark → Memory.wf s.dev.mem = true →
    let d := hbmWrite die x bs s.dev
    Becomes (.hostMemWrite a bs false) s d ∧
    (∀ i, i < bs.length → mget d.mem (hbmKey die x + i) = bs.getD i 0) ∧
    (∀ k, (k < hbmKey die x ∨ hbmKey die x + bs.length ≤ k) → mget d.mem k = mget s.dev.mem k) ∧
    Memory.wf d.mem = true ∧
    (∀ i n, i + n ≤ bs.length → mbytes d.mem (hbmKey die x + i) n = (bs.drop i).take n) ∧
    d.regs = s.dev.regs ∧ d.regions = s.dev.regions ∧ d.links = s.dev.links

/-- R295, on the link's store. -/
def Obligations.AcksAreCumulative : Prop :=
  ∀ (d : Dev) (l : Nat) (base : BitVec 16) (n : Nat), rising d.links = true → 0 < n → n ≤ 32767 →
    (d.link l).store.map (fun s => s.seq) = (List.range n).map (fun i => base + BitVec.ofNat 16 i) →
    (d.link l).nextSeq = base + BitVec.ofNat 16 n →
    let acked := fun (i : Nat) => (applyAck l (base + BitVec.ofNat 16 i) d)
    (∀ i, i < n → ((acked i).link l).store = (d.link l).store.drop (i + 1)) ∧
    (∀ i j, i ≤ j → j < n →
      ((applyAck l (base + BitVec.ofNat 16 j) (acked i)).link l).store = ((acked j).link l).store) ∧
    (∀ a : BitVec 16, ((a - base).toInt < 0 ∨ ((base + BitVec.ofNat 16 (n - 1)) - a).toInt < 0) → applyAck l a d = d)

/-- R500: plan and drift activity stays stopped; RESET_CORES ends it. -/
def Obligations.FatalHoldsPlanAndDrift : Prop :=
  (∀ (i : Instr) (s : State), i.planOrDrift = true → s.dev.fatal = true → exec i s = .next { s with dev := after s.dev }) ∧
  (∀ (s : State) (t : Time), ∃ d, Becomes (.resetCores t) s d ∧ d.fatal = false)

/-- R522, for every register word of a held die. -/
def Obligations.HeldRegistersReadZero : Prop :=
  ∀ (d : Dev) (w : RegWord) (i die : Nat), w.die i = some die → die < 2 → d.coreUp die = false →
    d.readReg false w i = 0 ∧ d.readReg true w i = 0 ∧
    (die = 0 → d.is R.DEV_STATUS_core_h = false) ∧ (die = 1 → d.is R.DEV_STATUS_core_e = false) ∧
    (d.absentReg w.word i = false → ∀ (p : RegPart) (q v : Nat) (t : Time), writeReg w i p q v t d = d)
end

