-- ==== Sys2Proof/WellFormed.lean ====
section
/-! DEFINITION. What makes a command well formed: the conditions on its operands that their types leave open. A command
that breaks one names something that no sender can send; the meanings take it all the same. -/

namespace Sys2Proof

/-- Cells of a region in the Swial's design (Table 1.1). -/
def Region.cells (r : Region) : Nat := if r.val < 8 then 32 else 16

/-- A cell index that the region's design has. -/
def Region.hasCell (r : Region) (c : Fin 32) : Bool := decide (c.val < r.cells)

/-- An upset struck a word of a cell that the region's design has (Table 1.3). -/
def Upset.wf (r : Region) (u : Upset) : Bool :=
  r.hasCell u.cell && decide (u.word.toNat < if r.val < 8 then 524288 else 262144)

/-- Opcode, VC, and the lengths of Tables 11.2 and 11.3 agree. -/
def Packet.wf (op vc lo hi : Nat) (p : Packet) : Bool :=
  decide (p.opcode.toNat = op ∧ p.vc.toNat = vc ∧ lo ≤ p.data.length ∧ p.data.length ≤ hi) &&
  (if op = 1 then decide (1 ≤ p.words.toNat ∧ p.words.toNat ≤ 116) else decide (p.data.length = 8 * p.words.toNat))

/-- Four freed and four received totals (Table 10.3). -/
def VcTotals.wf (v : VcTotals) : Bool := decide (v.freed.length = 4 ∧ v.received.length = 4)

/-- A register access at its natural alignment (R520). -/
def RegPart.alignedAt (p : RegPart) (off : Nat) : Bool :=
  match p with
  | .high => decide (off % 8 = 4)
  | _ => decide (off % 8 = 0)

/-- A command is well formed. -/
def Instr.wf : Instr → Bool
  | .planTick r _ us => us.all (Upset.wf r)
  | .holdTick r _ us => us.all (Upset.wf r)
  | .spPatrolScrub r us => us.all (Upset.wf r)
  | .counterClear off => decide (off.toNat % 8 = 0)
  | .segClassWrite r c _ => r.hasCell c
  | .segReinitDone r c seg => r.hasCell c && decide (seg.val < if r.val < 8 then 64 else 32)
  | .harbourWrite r c _ _ _ => r.hasCell c
  | .hbmWriteAccept r _ c off => r.hasCell c && decide (off.toNat % 8 = 0)
  | .ackFlit _ _ v _ => v.wf
  | .creditSyncFlit _ _ _ v _ => v.wf
  | .timeFlit _ _ bs _ _ => decide (bs.length ≤ 240)
  | .read p _ => Packet.wf 1 0 0 0 p
  | .write p _ => Packet.wf 2 0 8 928 p
  | .readResp p _ => Packet.wf 3 1 8 928 p
  | .writeAck p _ => Packet.wf 4 1 0 0 p
  | .bounce p _ => Packet.wf 5 1 0 0 p
  | .relay p _ => Packet.wf 6 2 8 928 p
  | .mgmtReq p _ _ => Packet.wf 7 3 0 928 p
  | .mgmtResp p _ => Packet.wf 8 1 0 928 p
  | .launchRecord p _ => Packet.wf 9 3 48 48 p
  | .launchAck p _ => Packet.wf 9 3 48 48 p
  | .hostMemWrite a bs _ => decide (1 ≤ bs.length ∧ a.toNat % 64 + bs.length ≤ 64)
  | .biSnoopResponse _ a dirty _ => decide (a.toNat % 64 = 0) && (match dirty with
      | some bs => decide (bs.length = 64)
      | none => true)
  | .svnAdvance c => decide (c.toNat ≤ 6)
  | .quote nonce => decide (nonce.length = 32)
  | .energySample shunts volts => decide (shunts.length = 6 ∧ volts.length = 6)
  | .neighbourCheck temps volts _ => decide (temps.length = 16 ∧ volts.length = 16)
  | .lifeMinute temps _ => decide (temps.length = 16)
  | .halfRead _ off => decide (off.toNat % 4 = 0)
  | .registerWrite _ off part _ _ => part.alignedAt off.toNat
  | .misalignedAccess off size _ => !decide ((size.toNat = 4 ∨ size.toNat = 8) ∧ off.toNat % size.toNat = 0)
  | _ => true

/-- The commands of a queue are well formed. -/
def wfQueue (l : List Instr) : Bool := l.all Instr.wf

end Sys2Proof
end

