-- ==== Sys2Proof/Tests/Slice0.lean ====
section
/-! SUPPORT. The model's own tests: for each statement with hypotheses, theorems witness_* that show concrete states and
operands that meet them, clause by clause; ill-formed commands that the checks refuse; control words written out bit by
bit from the spec's tables; a few single steps. -/

namespace Sys2Proof.Tests

open Sys2Proof.Machine

/-- Both core domains out of reset. -/
def up : State :=
  { State.reset with dev := (Dev.reset.set R.DEV_STATUS_core_h 0 1).set R.DEV_STATUS_core_e 0 1 }

/-- A local descriptor of 64 bytes of a cell's scratchpad: where it starts, its format, and its class. -/
def desc64 (off fmt : Nat) (weight : Bool) : Desc :=
  ⟨[BitVec.ofNat 64 (2 ^ 40 + off), 64, 0, 0, 0, 0,
    BitVec.ofNat 64 (fmt + flag weight * 2 ^ 8 + 2 ^ 9 + 2 ^ 56 + 2 ^ 57), 64]⟩

/-- A landing of region 0. -/
def freeLanding : Landing :=
  { id := 0, kind := 0, vregion := 0, region := 0, offset := 0, depth := 1, firstReady := false, deadline := 0,
    replicas := 0, bytes := 64, base := 0, hbm := 0, slots := 0, stackSet := 0 }

/-- Region 0 with cell 0 as its target, weight-class segments, descriptors 0 (FP32), 1 (E4M3 weights) and 2 (E4M3),
generator 0 on descriptor 0, landing 0 complete in tide 0, and in the cell an activation queue, transfer buffers and a beat for the vector unit. -/
def kit : State :=
  let d := (up.dev.set R.SEQ_TARGET_target 0 1).set R.SP_SEG_CLASS_weight 0 2
  let d := d.modReg 0 (fun u => { u with
    table := [(0, desc64 0 0x12 false), (1, desc64 65536 4 true)],
    gens := [(0, some ⟨desc64 0 0x12 false, 0, 0⟩)],
    chans := [(0, { dest := some 0, fifo := [7] })] })
  let d := d.modCell 0 0 (fun c => { c with
    aq := [(0, (List.range 16).map (fun _ => ⟨0, 4, 0⟩))],
    tbuf := [(0, [⟨5, 0⟩]), (1, [⟨6, 0⟩])],
    beat := [(1, some ⟨9, 0x12, 0⟩)] })
  { up with dev := { d with
      plan := { d.plan with landings := [freeLanding] },
      tide := { d.tide with spaces := [⟨0, 0, 0, 0, 1, true, 0, []⟩] } } }

/-- The word is not shadow in any cell. -/
def g0 : Gov := { pred := 0, inv := false }

def ctx : Ctx := slotCtx 0 g0 id kit.dev
def begun : Trial := { d := slotBegun 0 g0 id kit.dev }

/-- A word of one slot executes normally on `kit`, with the accesses that a trial makes. -/
def runs (slot : Slot) (t : Trial) : Prop := t.errs = [] ∧ SlotRuns 0 g0 id slot t.accs kit.dev

/-! ### Witnesses: control-word slots -/

/-- Array slots. -/
theorem witness_array_slots :
    runs (.arr 7 (.clear 3 127)) (readTiles ctx begun) ∧ runs (.arr 0 .wswap) (wswapSlot ctx 0 (readTiles ctx begun)) ∧
    runs (.arr 0 (.mac 0 3)) (readTiles ctx (ctx.cells.foldl (macCell ctx 0 [(0, 3)]) begun)) ∧
    runs (.arr 7 (.wload false 1)) (readTiles ctx (wloadSlot ctx 7 false 1 begun)) ∧
    runs (.arr 7 (.drain 3 0 0)) (drainSlot ctx 7 3 0 0 (readTiles ctx begun)) := by
  unfold runs SlotRuns accessesClean; decide

/-- Lane operations and conversions, whose hypotheses are those of one word of V0. -/
theorem witness_lane_operations :
    runs (.vec 0 ⟨.fma, true, 31, 31, 31, 31, 0, 0⟩) (readTiles ctx begun) ∧
    runs (.vec 0 ⟨.cmp, false, 0, 1, 2, 0, 5, 0⟩) (readTiles ctx begun) ∧
    runs (.vec 0 ⟨.cvt, false, 0, 1, 0, 0, 0x11, 0⟩) (readTiles ctx begun) ∧
    (fmtRow 0x11).map (fun r => r.cvt) = some true := by
  unfold runs SlotRuns accessesClean; decide

theorem witness_special_functions :
    runs (.vec 1 ⟨.exp2, true, 31, 1, 0, 0, 0, 0⟩) (vecSlot ctx 1 ⟨.exp2, true, 31, 1, 0, 0, 0, 0⟩ (readTiles ctx begun)) ∧
    runs (.vec 0 ⟨.rsqrt, false, 31, 1, 0, 0, 0, 0⟩) (vecSlot ctx 0 ⟨.rsqrt, false, 31, 1, 0, 0, 0, 0⟩ (readTiles ctx begun)) ∧
    runs (.vec 0 ⟨.topk, false, 31, 1, 2, 0, 31, 0⟩) (readTiles ctx begun) ∧
    runs (.vec 0 ⟨.reduce, true, 31, 1, 0, 0, 2, 0⟩) (readTiles ctx begun) := by
  unfold runs SlotRuns accessesClean; decide

theorem witness_data_slots :
    runs (.vec 1 ⟨.ld, true, 31, 0, 0, 0, 0, 1⟩) (ctx.live.foldl (ldCell ctx 1 ⟨.ld, true, 31, 0, 0, 0, 0, 1⟩) (readTiles ctx begun)) ∧
    runs (.vec 1 ⟨.st, false, 0, 31, 0, 0, 0, 0⟩) (stSlot ctx ⟨.st, false, 0, 31, 0, 0, 0, 0⟩ (readTiles ctx begun)) ∧
    runs (.vec 1 ⟨.rdacc, false, 31, 0, 0, 0, 15, 0⟩) (rdaccSlot ctx 1 ⟨.rdacc, false, 31, 0, 0, 0, 15, 0⟩ (readTiles ctx begun)) ∧
    runs (.vec 0 ⟨.sample, false, 31, 1, 2, 3, 0, 0⟩) (sampleSlot ctx 0 ⟨.sample, false, 31, 1, 2, 3, 0, 0⟩ (readTiles ctx begun)) ∧
    runs (.xbar 0 ⟨false, 0, 8, 255⟩) (readTiles ctx (gatherSlot ctx 0 ⟨false, 0, 8, 255⟩ begun)) ∧
    runs (.xbar 1 ⟨true, 0, 9, 255⟩) (scatterSlot ctx 1 ⟨true, 0, 9, 255⟩ (readTiles ctx begun)) := by
  unfold runs SlotRuns accessesClean; decide

theorem witness_generator_slots :
    ((begun.d.resolve 0 0x3000 ctx.start).toOption.isSome = true) ∧ runs (.gen 3 (.start 0x3000)) (readTiles ctx begun) ∧
    tget none (begun.d.reg 0).gens 0 = some ⟨desc64 0 0x12 false, 0, 0⟩ ∧ runs (.gen 0 (.step 0xFFFFFF)) (readTiles ctx begun) ∧
    runs (.gen 0 (.setpos 0)) (readTiles ctx begun) := by
  unfold runs SlotRuns accessesClean; decide

theorem witness_sends :
    runs (.xfer 0 (.csend 0 0)) (readTiles ctx (cellSend ctx 0 0 4 (fun c => c / blockSize 0 * blockSize 0 + 0) 0 0 begun)) ∧
    runs (.xfer 1 (.bsend 0 0 0)) (readTiles ctx (cellSend ctx 1 1 10 (fun _ => 0 * blockSize 0 + 0) 0 0 begun)) ∧
    runs (.xfer 1 (.xsend 7)) (readTiles ctx (xsendSlot ctx 1 7 begun)) ∧
    runs (.xfer 0 (.lsend 5 0 0 0)) (readTiles ctx (lsendSlot ctx 0 5 0 0 0 begun)) := by
  unfold runs SlotRuns accessesClean; decide

theorem witness_receives :
    runs (.xfer 0 (.xrecv 0 0 0)) (readTiles ctx (xrecvSlot ctx 0 0 0 0 begun)) ∧
    runs (.xfer 0 (.lread 0 0)) (readTiles ctx (lreadSlot ctx 0 0 0 begun)) ∧
    (begun.d.landing 0 0).isSome = true ∧ runs (.xfer 1 (.land 0)) (readTiles ctx begun) := by
  unfold runs SlotRuns accessesClean; decide

theorem witness_descriptor_slots :
    runs (.desc (.dload 0 0x1)) (descReads ctx 0 8 (readTiles ctx begun) (fun _ t => t)) ∧
    runs (.desc (.dbase 0 0xFFF)) (descReads ctx 0 1 (readTiles ctx begun) (fun _ t => t)) ∧
    runs (.desc (.cntsrc 4 0)) (readTiles ctx begun) ∧ ctx.leadShadow = false ∧
    runs (.desc (.cntset 0xFFFFFF 15)) (readTiles ctx begun) ∧ runs (.desc (.cntld 0 15 0)) (readTiles ctx begun) ∧
    (slotCtx 0 { pred := 0, inv := true } id kit.dev).leadShadow = true := by
  unfold runs SlotRuns accessesClean; decide

theorem witness_predicate_slots :
    runs (.pred (.pcix 15 3 3 0)) (readTiles ctx begun) ∧ runs (.pred (.plog 1 0 15 3)) (readTiles ctx begun) ∧
    runs (.pred (.pcnt 1 15 0)) (readTiles ctx begun) ∧ runs (.pred (.pvec 1 31 127)) (readTiles ctx begun) := by
  unfold runs SlotRuns accessesClean; decide

/-- What a loop slot makes of the region's loops on `kit`. -/
def looped (slot : Slot) (f : RegionSt → RegionSt) : Prop :=
  SlotRuns 0 g0 f slot (readTiles (slotCtx 0 g0 f kit.dev) { d := slotBegun 0 g0 f kit.dev }).accs kit.dev

/-- `kit` with a word of the tide already repeated, so that its L slot does not act again. -/
def skipped : State := { kit with dev := kit.dev.modReg 0 (fun u => { u with skipL := true }) }

theorem witness_loop_slots :
    ((slotStart 0 kit.dev).reg 0).skipL = false ∧ (begun.d.reg 0).loops = [] ∧ (slotStart 0 kit.dev).imagePc 0 = 0 ∧
    begun.d.lastPage 0 0 0 = 0 ∧ begun.d.jumpPage 0 0 0 = some 0 ∧
    looped (.loop (.loopf 7 0xFFFFF)) (fun u => { u with loops := ⟨false, 0, 7, 2 ^ 20, 2 ^ 20, 0⟩ :: u.loops }) ∧
    looped (.loop (.loopb false 7 15 0xFFFF)) (fun u => { u with loops := ⟨true, 0, 7, 0xFFFF, 0, 0⟩ :: u.loops }) := by
  unfold looped SlotRuns accessesClean; decide

theorem witness_loop_exits :
    looped (.loop (.jmp 0)) (fun u => { u with jump := some 0 }) ∧
    looped (.loop .done) (fun u => { u with endPending := true }) ∧
    ((slotStart 0 skipped.dev).reg 0).skipL = true := by
  unfold looped SlotRuns accessesClean; decide

/-! ### Witnesses: the device, tides, and deliveries -/

/-- The device of `up` with its tide unit in the state `st`, and one of grade C whose last Estuary region misses cell 15. -/
def inTide (st : Nat) : Dev := up.dev.set R.TIDE_STATUS_state 0 st
def bare : Dev := { up.dev with fuses := { up.dev.fuses with goneE := List.replicate 8 15, grade := 2 } }

theorem witness_device_commands :
    (let d := modSvc (fun v => { v with boundaryAt := some up.dev.now }) (up.dev.set (modeField 9) 0 1)
     flag (bit (d.get R.DEV_FUNC_MODE_ACTIVE_active) 9) ≠ d.get (modeField 9) ∧ d.modeQuiet 9 = true) ∧
    (let d := up.dev.set (modeField 1) 0 1
     flag (bit (d.get R.DEV_FUNC_MODE_ACTIVE_active) 1) ≠ d.get (modeField 1) ∧ (modeLinks d).modeQuiet 1 = true) ∧
    (let d := (up.dev.set (modeField 0) 0 1).set R.SEC_BOOT_stage 0 1
     flag (bit (d.get R.DEV_FUNC_MODE_ACTIVE_active) 0) ≠ d.get (modeField 0) ∧ d.modeQuiet 0 = true) ∧
    up.dev.keeperBarred (2 ^ 40) = true ∧ up.dev.keeperBarred (5 * 2 ^ 40) = false ∧
    (let d := { up.dev with fabric := { up.dev.fabric with keeperRestart := true } }
     d.coreUp 1 = true ∧ d.fabric.keeperRestart = true) := by decide

/-- Registers of E7's last cell and of the first Quay port. -/
theorem witness_absent_engines :
    (regAt (0x7DE000 / 8 * 8)).any (fun p => decide (cellOfWord p.1.word p.2 = some (15, 15))) = true ∧
    bare.cellPresent 15 15 = false ∧
    (regAt (0xF00000 / 8 * 8)).any (fun p =>
      decide (cellOfWord p.1.word p.2 = none) && bare.absentReg p.1.word p.2) = true := by decide

theorem witness_tide_registers :
    up.dev.coreUp 1 = true ∧ (inTide 0).get R.TIDE_STATUS_state = tsStopped ∧
    (65536 % 16 = 0 ∧ 65536 ≤ 65536 ∧ 65536 ≤ 1048576) ∧ ¬ (65535 % 16 = 0 ∧ 65536 ≤ 65535 ∧ 65535 ≤ 1048576) ∧
    (1048576 % 16 = 0 ∧ 65536 ≤ 1048576) ∧ ¬ (1048592 % 16 = 0 ∧ 1048592 ≤ 1048576) ∧
    (inTide 4).get R.TIDE_STATUS_state ≠ tsStopped ∧ (inTide 4).get R.TIDE_STATUS_state ≠ tsArmed ∧
    (inTide 4).get R.TIDE_STATUS_state ≠ tsRunning ∧ (inTide 2).get R.TIDE_STATUS_state = tsRunning ∧
    (inTide 1).coreUp 0 = true ∧
    (regTable.filter (fun w => w.clears)).any (fun w => (regAt w.base).any (fun p =>
      decide (p.1.word = w.word) && !up.dev.absentReg p.1.word p.2 && !up.dev.regHeld p.1 p.2 && p.1.clears)) = true := by
  decide

/-- A plan of region 0 alone, in tide 3, each tide 65,536 units long, with its regions as `f` makes region 0. -/
def tiding (st : Nat) (f : RegionSt → RegionSt) : Dev :=
  let d := ((inTide st).set R.TIDE_NUMBER_tide 0 3).set R.TIDE_PERIOD_period 0 65536
  { d with plan := { d.plan with used := [0], ticks := 100, landings := [freeLanding] } }.modReg 0 f

theorem witness_tide_marks :
    (∀ st ∈ [0, 1, 2], let d := (tiding st id).advance 196608
      d.fatal = false ∧ d.coreUp 1 = true ∧ d.markAt 196608 = some 3) ∧
    (let d := { tiding 2 id with tide := { ended := some 262144 } }.advance 262144
     d.tide.ended = some 262144 ∧ d.get R.TIDE_STATUS_state = tsRunning ∧
       tdiff 262144 (d.markOf (d.get R.TIDE_NUMBER_tide + 1)) ≥ 0 ∧ tdiff 262144 262144 ≥ 0) ∧
    (let d := ((tiding 1 id).set R.TIDE_LAUNCH_launch_tide 0 4).advance 262144
     d.get R.TIDE_STATUS_state = tsArmed ∧ d.tide.quiesce = false ∧
       tdiff 262144 (d.markOf (d.get R.TIDE_LAUNCH_launch_tide)) ≥ 0) := by decide

theorem witness_tide_ends :
    (let d := { tiding 2 (fun u => { u with mark := true }) with
       tide := { startTime := 196608 }, ist := { sideE := { states := 1, locked := true } } }.advance 200000
     d.tideEnds = true ∧ (endTide 200000 d).get R.TIDE_STATUS_state ≠ tsFaulted) ∧
    (∀ k ∈ [0, 1], let d := { tiding 2 id with tide := { policy := k, startTime := 196608 } }.advance 262144
      d.get R.TIDE_STATUS_state = tsRunning ∧ d.tide.ended = none ∧ d.is R.TIDE_STATUS_deferred = false ∧
        tdiff 262144 d.tide.startTime ≥ (d.get R.TIDE_PERIOD_period : Nat) ∧ d.tide.policy = k) := by decide

theorem witness_region_occasions :
    (let d := (tiding 2 (fun u => { u with hold := some ⟨.recv, 0, 0, []⟩ })).advance 0x7FFFFFFFFFFF
     d.coreUp (dieOf 0) = true ∧ (d.reg 0).hold = some ⟨.recv, 0, 0, []⟩ ∧
       tdiff 0x7FFFFFFFFFFF 0 > (d.get R.TIDE_HOLD_LIMIT_limit : Nat)) ∧
    (let d := (tiding 2 (fun u => { u with hold := some ⟨.landing 0, 0, 400, [0]⟩ })).advance 5
     (d.reg 0).hold = some ⟨.landing 0, 0, 400, [0]⟩ ∧ d.landing 0 0 = some freeLanding ∧ 400 ≥ d.tide.grace ∧
       d.landOpen 0 0 = true) ∧
    (((tiding 2 (fun u => { u with chans := [(7, { flying := [⟨1, 0, false, 3⟩] })] })).chan 0 7).flying.map (·.ist) =
      [false]) ∧
    (∀ p ∈ [Phase.dark, Phase.done], let d := (tiding 2 (fun u => { u with phase := p })).advance 262144
      tableWf ({} : RegionSt) d.regions = true ∧ 0 ∈ d.usedRegions ∧
        tdiff 262144 (d.markOf (d.get R.TIDE_NUMBER_tide + 1)) ≥ -((d.tide.wakeLead * nsU : Nat) : Int) ∧
        (d.reg 0).phase = p ∧ (d.reg 0).started = false) := by decide

/-- Region 0 running, with the word given at address 0 of its plan memory. -/
def fetching (w : CWord) (f : RegionSt → RegionSt) : Dev :=
  let d := tiding 2 (fun u => f { u with phase := .run })
  { d with mem := mwrite d.mem (planKey 0 0) (leBytes (2 * wordUnits w.slots.length) (encodeWord w)) }

/-- Words of one slot: END, XRECV from region 0's channel 0, XSEND. -/
def endWord : CWord := { rep := 0, gov := g0, slots := [.loop .done] }
def recvWord : CWord := { rep := 0, gov := g0, slots := [.xfer 0 (.xrecv 0 0 0)] }
def sendWord : CWord := { rep := 0, gov := g0, slots := [.xfer 0 (.xsend 0)] }

set_option maxRecDepth 20000 in
theorem witness_plan_ticks :
    (let d := (fetching endWord id).advance 200000
     d.fatal = false ∧ d.coreUp (dieOf 0) = true ∧ d.running 0 = true ∧ (d.reg 0).slip = none ∧
     (d.reg 0).tideTick < d.plan.ticks ∧ d.is R.SEQ_STATUS_ended 0 = false ∧ d.fetch 0 = .word endWord 7 ∧
     d.holdOf 0 endWord = none) ∧
    (let d := (fetching recvWord id).advance 200000
     d.running 0 = true ∧ d.fetch 0 = .word recvWord 7 ∧ d.holdOf 0 recvWord = some .recv) ∧
    ((tiding 2 (fun u => { u with phase := .run })).set R.SEQ_STATUS_ended 0 1).is R.SEQ_STATUS_ended 0 = true := by decide

set_option maxRecDepth 20000 in
theorem witness_hold_ticks :
    (let d := (fetching endWord (fun u => { u with phase := .hold, hold := some ⟨.recv, 0, 0, []⟩ })).advance 200000
     (d.reg 0).hold = some ⟨.recv, 0, 0, []⟩ ∧ HoldKind.recv ≠ .slip ∧ d.is R.SEQ_STATUS_ended 0 = false ∧
     d.fetch 0 = .word endWord 7 ∧ d.holdOf 0 endWord = none) ∧
    (let d := (fetching sendWord (fun u =>
       { u with phase := .hold, hold := some ⟨.send, 0, 0, []⟩, chans := [(0, { dest := some 0, fifo := List.replicate 64 0 })] })).advance 200000
     (d.reg 0).hold = some ⟨.send, 0, 0, []⟩ ∧ d.fetch 0 = .word sendWord 7 ∧ d.holdOf 0 sendWord = some .send) ∧
    (∀ n ∈ [1, 2], let d := tiding 2 (fun u => { u with slip := some ⟨n, true, 0, 0, []⟩ })
      ((d.advance 200000).reg 0).slip = some ⟨n, true, 0, 0, []⟩) := by decide

theorem witness_deliveries :
    (tiding 2 (fun u => { u with planTicks := 1 })).fatal = false ∧
    ((tiding 2 (fun u => { u with planTicks := 1 })).reg 0).planTicks ≠ 0 ∧
    (let d := (tiding 2 (fun u =>
       { u with streamRun := true, imagePages := 70, nextFill := 69, leftPages := 68, ring := [(63, 64)], loops := [⟨false, 0, 0, 1, 1, 0⟩] })).set R.SEQ_STREAM_ring_pages 0 2
     let d := (d.set R.SEQ_STREAM_resident_pages 0 62).set R.SEQ_STREAM_pc_page 0 68
     let u := d.reg 0
     let old := tget 0 u.ring (d.planPage 0 u.nextFill)
     u.streamRun = true ∧ d.get R.SEQ_STREAM_ring_pages 0 ≠ 0 ∧ d.get R.SEQ_STREAM_resident_pages 0 ≤ u.nextFill ∧
     u.nextFill < u.imagePages ∧ old = 64 ∧ old ≤ u.leftPages ∧ old - 1 ≠ d.get R.SEQ_STREAM_pc_page 0 ∧
     ∀ f ∈ u.loops, f.start / 32768 ≠ old - 1) := by decide

/-! ### Witnesses: scratchpads and HBM -/

theorem witness_scratchpads :
    up.dev.coreUp (dieOf 15) = true ∧ up.dev.powerState ≠ psPark ∧ up.dev.cellPresent 15 15 = true ∧
    up.dev.cellPresent 0 31 = true ∧
    (up.dev.get R.TIDE_STATUS_state = tsStopped ∧ up.dev.admitLocked (dieOf 15) = false) ∧
    ¬ ((inTide 2).get R.TIDE_STATUS_state = tsStopped ∧ (inTide 2).admitLocked 1 = false) ∧
    ((up.dev.modCell 0 31 (fun x => { x with reinit := 1#64 <<< 63 })).cell 0 31).reinit.getLsbD 63 = true ∧
    (let bad := fun (r v : Nat) => bit v 0 && decide (bits v 32 17 = 0 ∨ (bits v 16 16 + bits v 32 17) * 64 > spSize r)
     bad 0 (1 + 65536 * 2 ^ 32) = false ∧ bad 0 (1 + 65537 * 2 ^ 32) = true ∧ bad 15 (1 + 32768 * 2 ^ 32) = false ∧
     bad 15 (1 + 32769 * 2 ^ 32) = true ∧ bad 0 0 = false ∧ bad 0 1 = true) := by decide

/-- The landing of `kind` at the region's HBM address 0. -/
def streaming (kind : Nat) : Dev :=
  let d := tiding 2 (fun u => { u with streamRun := true })
  { d with plan := { d.plan with landings := [{ freeLanding with kind := kind }] } }

/-- The same with its HBM word, or its scratchpad word, beyond correction. -/
def streamSpoiled (kind : Nat) : Dev :=
  { streaming kind with hbmErr := [(0, 2)] }.modCell 0 0 (fun c => { c with spErr := [(0, 2)] })

theorem witness_hbm :
    up.dev.coreUp (dieOfStack 7) = true ∧ (up.dev.set R.HB_SCRUB_enable 0 1).is R.HB_SCRUB_enable = true ∧
    (up.dev.set R.HB_SCRUB_enable 0 0).is R.HB_SCRUB_enable = false ∧
    (∀ d ∈ [streaming 1, streamSpoiled 1, streaming 3], ∃ l, d.landing 0 0 = some l ∧ d.fatal = false ∧
      d.streamLines 0 0 64 = [] ∧ d.streamReady l = true ∧ (d.reg 0).streamRun = true ∧
      d.landedUnits l (d.get R.TIDE_NUMBER_tide) = 0 ∧ 64 * 0 < l.bytes) ∧
    (hbmRead byPlan (some 0) 0 0 64 (streaming 1)).2 = false ∧ (hbmRead byPlan (some 0) 0 0 64 (streamSpoiled 1)).2 = true ∧
    (∀ d ∈ [streaming 2, streamSpoiled 2], ∃ l, d.landing 0 0 = some l ∧ d.streamLines 0 0 8 = [] ∧ l.kind = 2 ∧
      (d.reg 0).streamRun = true ∧ d.cellPresent 0 31 = true ∧ 4194296 + 8 ≤ spSize 0 ∧
      dueTide l (d.get R.TIDE_NUMBER_tide) = some 3 ∧ d.landedUnits l 3 = 0 ∧ 8 * 0 < l.bytes) ∧
    (eccWords 0 31 [4194296] (streaming 2)).2 = false ∧ (eccWords 0 0 [0] (streamSpoiled 2)).2 = true := by
  decide

theorem witness_areas :
    up.dev.coreUp 1 = true ∧ (up.dev.set R.DEV_STATUS_boot_lock 0 1).bootLocked 1 = true ∧ up.dev.bootLocked 1 = false ∧
    (let d := (up.dev.set R.HB_AREA_base 9 1).set R.HB_AREA_size 9 1
     let clash := fun (base size : Nat) => ∃ o < 8, o ≠ 0 ∧ 0 < (d.area 1 o).2 ∧ 0 < size ∧
       base * 65536 < (d.area 1 o).1 + (d.area 1 o).2 ∧ (d.area 1 o).1 < base * 65536 + size * 65536
     (¬ clash 0 1 ∧ (0 + 1) * 65536 ≤ hbmSize 1) ∧ clash 0 2 ∧ clash 1 1 ∧ ¬ clash 2 1 ∧
     (2 + 7077886) * 65536 ≤ hbmSize 1 ∧ ¬ (2 + 7077887) * 65536 ≤ hbmSize 1) := by decide

/-! ### Witnesses: the Ferry and residency -/

/-- The device with the Ferry's ring in area SYSTEM of Estuary, enabled, and one entry whose first word is `w`. -/
def ferrying (w : Nat) : Dev :=
  let d := ((up.dev.set R.HB_AREA_size 8 1).set R.FERRY_RING_CTL_enable 0 1).set R.FERRY_RING_TAIL_tail 0 1
  let d := d.set R.FERRY_RING_BASE_base 0 (d.get R.DEV_ADDR_address * 2 ^ 44 + 2 ^ 39)
  { d with mem := mwrite d.mem (hbmKey 1 0) (leBytes 8 w) }

theorem witness_ferry_starts :
    (∀ op ∈ [fcFetch, fcPush, fcRecv, fcMirror, fcEvict, fcRehash],
      let d := (ferrying op).advance 9
      d.coreUp 1 = true ∧ d.freeRun = some 0 ∧ d.nextFerry.map (fun p => (p.1.op, p.2)) = some (op, true)) ∧
    (∀ op ∈ [0, 7], ((ferrying op).advance 9).nextFerry.map (·.2) = some false) ∧
    (∀ op ∈ [fcFetch, fcRecv, fcMirror],
      let d := { up.dev with ferry := { own := [ownCmd op 127 0 0 0 0 0] } }
      d.freeRun = some 0 ∧ d.ownNext op = some (ownCmd op 127 0 0 0 0 0)) ∧
    (let d := { up.dev with ferry := { shards := [(2 ^ 32, { good := 2, hashed := 1 })] } }.set R.FERRY_MODEL_state 1 msResident
     d.freeRun = some 0 ∧ d.unhashed = some (2 ^ 32) ∧ d.ferry.stopped = false) := by decide

/-- A run of a command, with its header, ciphertext, bytes waiting and status so far. -/
def runOf (op : Nat) (header cipher rx : List Byte) (fail : Option Nat) : FerryRun :=
  { id := 0, cmd := { ownCmd op 0 0 0 0 0 0 with slot := some 0 }, began := 0, header := header, cipher := cipher, rx := rx,
    fail := fail, relayFail := false }

/-- The device with that run in slot 7. -/
def ferryRun (r : FerryRun) : Dev := { up.dev with ferry := { runs := [(7, some r)] } }

/-- A header whose plaintext length is 65,536. -/
def header64K : List Byte := (List.range 48).map (fun i => if i = 26 then 1 else 0)

/-- Bytes were delivered, to a run whose header is as asked. -/
def gave (x : Option (Except Nat (List Byte × FerryRun))) (h : List Byte → Bool) : Bool :=
  match x with
  | some (.ok p) => h p.2.header
  | _ => false

set_option maxRecDepth 20000 in
theorem witness_ferry_blocks :
    (let r := runOf fcRecv [] [] (List.replicate 2048 7) none
     (ferryRun r).run 7 = some r ∧ (ferryRun r).pushLines 7 = [] ∧ r.fail = none ∧ r.header = [] ∧
     gave (nextBytes r 2048 (ferryRun r)).2 (fun h => h = []) = true) ∧
    (let r := runOf fcPush header64K [] [] none
     (ferryRun r).run 7 = some r ∧ (ferryRun r).pushLines 7 = [] ∧ r.header ≠ [] ∧ r.cipher.length < hdrLength r.header ∧
     gave (nextBytes r 65536 (ferryRun r)).2 (fun h => h ≠ []) = true) ∧
    (let r := { runOf fcPush [] [] [] none with cmd := { ownCmd fcPush 0 0 0 0 (2 ^ 40) 0 with slot := none } }
     (ferryRun r).run 7 = some r ∧ (ferryRun r).pushLines 7 = [] ∧
     (nextBytes r 2048 (ferryRun r)).2.isSome = true ∧ gave (nextBytes r 2048 (ferryRun r)).2 (fun _ => true) = false) := by decide

set_option maxRecDepth 20000 in
theorem witness_ferry_done :
    (∀ f ∈ [1, 6, 7], (ferryRun (runOf fcFetch [] [] [] (some f))).run 7 = some (runOf fcFetch [] [] [] (some f))) ∧
    (let r := runOf fcFetch header64K [] [] none
     r.fail = none ∧ (r.header = [] ∨ r.cipher.length < hdrLength r.header)) ∧
    (let r := runOf fcPush (List.replicate 48 0) [] [] none
     r.fail = none ∧ r.header ≠ [] ∧ hdrLength r.header ≤ r.cipher.length) ∧
    (∀ op ∈ [fcFetch, fcMirror, fcRehash, fcEvict], (ferryRun (runOf op [] [] [] none)).ferryWaits (runOf op [] [] [] none) = false) ∧
    (ferryRun (runOf fcPush [] [] [] none)).diesOf 0 = [] ∧ (ferryRun (runOf fcPush [] [] [] none)).dieTrains 1 = false ∧
    (∀ op ∈ [fcMirror, fcRehash, fcEvict], (runOf op [] [] [] none).fail = none ∧ (runOf op [] [] [] none).cmd.op = op) ∧
    (let d := ferryRun (runOf fcEvict [] [] [] none)
     d.modelState 0 ≠ msEvicting ∧ (d.set R.DEV_FUNC_MODE_ACTIVE_active 0 16).hosted 4 = true ∧ d.hosted 4 = false) := by
  decide

/-- The device with model 127 in a state. -/
def model (st : Nat) : Dev := up.dev.set R.FERRY_MODEL_state 127 st

theorem witness_residency :
    (model 0).modelState 127 = msEmpty ∧ (model 1).modelState 127 = msRegistered ∧ (model 6).modelState 127 = msFailed ∧
    (model 5).modelState 127 = msEvicting ∧ (endEvict 127 (model 5)).hosted 4 = false ∧
    (endEvict 127 ((model 5).set R.DEV_FUNC_MODE_ACTIVE_active 0 16)).hosted 4 = true ∧
    (∀ p ∈ [(FerryWait.load, msLoading), (.shard 0, msLoading), (.evict, msLoading), (.repair 0, msRepairing)],
      let d := { model p.2 with ferry := { waits := [(127, p.1, 0), (3, .load, 0)] } }.advance 0x7FFFFFFFFFFFFFFF
      d.ferry.waits.filter (fun w => decide (w.1 = 127 ∧
        tdiff 0x7FFFFFFFFFFFFFFF w.2.2 ≥ (d.get R.FERRY_CTL_host_wait * msU : Nat))) = [(127, p.1, 0)] ∧
      d.modelState 127 = p.2) ∧
    (∀ h ∈ [0, 2],
      let d := ({ up.dev with ferry := { shards := [(2 ^ 32, { good := 2, hashed := h })] } }).set R.FERRY_MODEL_state 1 msResident
      d.powerState ≠ psPark ∧
      tdiff 0x7FFFFFFFFFFFFFFF d.ferry.rehashAt ≥ (d.get R.FERRY_CTL_rehash_interval * 3600 * secU : Nat) ∧
      (d.unhashed = none ↔ h = 2)) := by decide

/-- Of a slow-tier fill with no shard: what a shard's tag is, is a free function. -/
theorem witness_slow_tier :
    let d := { up.dev with ferry := { slow := [(127, some ⟨0, 131072, 0, 0, 1⟩)] } }
    tget none d.ferry.slow 127 = some ⟨0, 131072, 0, 0, 1⟩ ∧
    ([] : List (List Byte)).map (fun b => slowPlain 127 b d) = ([] : List (List Byte)).map some ∧
    ([] : List (List Byte)).flatten.length = 0 := by decide

/-! ### Witnesses: serving and the Isthmus -/

/-- A device that serves step 4 of plan 0, whose last tide has ended, with no entry of the step record in force. -/
def stepped (st : Nat) : Dev :=
  modSvc (fun v => { v with due := some 5 }) ((up.dev.set R.SVC_STATUS_state 0 st).set R.SVC_STATUS_step 0 4)

theorem witness_step_boundary :
    (∀ st ∈ [svServing, svQuiesced], let d := (stepped st).advance 7
      d.svc.endAll = false ∧ d.intakeLines = [] ∧ d.svc.due = some 5 ∧ d.get R.SVC_STATUS_state = st ∧
      (collect 4 (modSvc (fun v => { v with overwrote := false }) d)).isSome = true) ∧
    (let d := (modSvc (fun v => { v with decode := [⟨0, false, 0⟩] }) (stepped svServing)).advance 7
     collect 4 (modSvc (fun v => { v with overwrote := false }) d) = none) ∧
    (∀ st ∈ [svServing, svSwitching, svQuiesced],
      let d := ((stepped st).set R.TIDE_STATUS_state 0 tsFaulted).set R.SVC_CTL_retry 0 1
      d.get R.TIDE_STATUS_state = tsFaulted ∧ d.svc.loading = none ∧ d.get R.SVC_STATUS_state = st ∧
      (let e := (d.inc C.SVC_COUNTS_steps_lost).raise E.SVC_STEP_LOST
       let e := logAdd 0x07 4 (leBytes 8 4 ++ leBytes 1 e.svc.reruns) e
       e.svc.reruns < e.get R.SVC_CTL_retry)) := by decide

def request0 : Request :=
  { id := 0, customer := 0, tenant := 0, plan := 0, drafts := 0, promptLen := 1, maxNew := 1, promptAddr := 0, deadline := 0,
    seed := [], stopIds := [], stopSeqs := [], ring := 0 }

/-- Slot 255 occupied, with page 9 in a frame on each die and its copy under way, or on Estuary alone. -/
def slotted : Dev :=
  let page : SMap (Option KvPage) := [(9, some ⟨some 3, some 4, false⟩)]
  modSvc (fun v => { v with
    slots := [(255, some { req := request0, order := 0, left := 1, copies := [9], est := { pages := page }, head := { pages := page } })],
    spills := [(255, 9, 4)], stages := [(255, 9, 3)] }) up.dev

theorem witness_serving_commands :
    (up.dev.set R.SVC_PLAN_enable 15 1).is R.SVC_PLAN_enable 15 = true ∧ up.dev.is R.SVC_PLAN_enable 15 = false ∧
    bit ((up.dev.set R.SVC_ADMIT_PENDING_rings 0 0x8000).get R.SVC_ADMIT_PENDING_rings) 15 = true ∧
    (let d := (modRing 15 (fun r => { r with askedAt := some 0 }) up.dev).advance 0x7FFFFFFFFFFFFFFF
     (d.svcRing 15).askedAt = some 0 ∧ (d.svcRing 15).decision = none ∧ (d.svcRing 15).accepted = false ∧
     (d.svcRing 15).timedOut = false ∧ tdiff 0x7FFFFFFFFFFFFFFF 0 ≥ (d.get R.SVC_CTL_host_wait * msU : Nat)) ∧
    (slotted.slot 255).any (fun x => x.copies.contains 9 && (tget none x.head.pages 9).bind (fun p => p.frame) == some 3 &&
      (tget none x.est.pages 9).bind (fun p => p.frame) == some 3) = true ∧
    slotted.svc.spills.find? (fun x => decide (x.1 = 255 ∧ x.2.1 = 9)) = some (255, 9, 4) ∧
    slotted.svc.stages.find? (fun x => decide (x.1 = 255 ∧ x.2.1 = 9)) = some (255, 9, 3) ∧
    up.dev.hosted 9 = false ∧ tdiff 0x7FFFFFFFFFFFFFFF up.dev.svc.refillAt ≥ (up.dev.get R.SVC_BUDGET_CTL_refill_period * msU : Nat) ∧
    (bit 16 4 = true ∧ up.dev.is R.SVC_OUT_enable 15 = false) ∧ bit 15 4 = false ∧
    (up.dev.set R.SVC_OUT_enable 15 1).is R.SVC_OUT_enable 15 = true ∧
    (let d := modSvc (fun v => { v with feed := [⟨0, 0, 1, 0, 0⟩] }) up.dev
     d.svc.feed = [⟨0, 0, 1, 0, 0⟩] ∧ tdiff (BitVec.ofNat 64 (secU + 1)) 0 > (secU : Nat) ∧
       d.is R.SVC_METER_FEED_stalled = false) := by decide

/-- A run of one entry of a crossing from region 0's channel 7. -/
def oneEntry : IstRun :=
  { cls := 0, region := 0, channel := 7, tide := 0, addr := 0, seq := 0, total := 1, count := 1, stamp := 0, body := .crossing 0 7 }

/-- One direction with an entry sent and one waiting, and `n` replays of flit 0 so far. -/
def direction (n : Nat) : IstDir := { sent := [oneEntry], plan := [oneEntry], replays := n }

/-- The Isthmus in a state, with `m` modules up, and each direction as above. -/
def isthmus (st m n : Nat) : Dev :=
  let d := (up.dev.set R.IST_STATUS_state 0 st).set R.IST_STATUS_modules 0 m
  { d with ist := { toE := direction n, toH := direction n, width := popCount m 8 } }

theorem witness_isthmus :
    (isthmus isUp 255 0).coreUp 0 = true ∧ (isthmus isUp 255 0).fatal = false ∧ (isthmus isUp 255 0).isthmusUp = true ∧
    (isthmus isDegraded 127 0).isthmusUp = true ∧
    (∀ toE, let e := ((isthmus isUp 255 0).advance 9).istSync
      e.isthmusUp = true ∧ (e.istDir toE).sent.head?.map (·.body) = some (.crossing 0 7)) ∧
    (∀ n ∈ [0, 200], let d := (isthmus isUp 255 n).advance 9
      d.isthmusUp = true ∧ (∀ toE, (d.istDir toE).flit = 0 ∧ (d.istDir toE).replays = n) ∧ (d.istDir true).flit ≠ 1 ∧
      (d.get R.IST_CTL_replay_limit ≤ n ↔ n = 200) ∧ d.ist.crcAt = none ∧ tdiff d.now 0 < (secU : Nat)) ∧
    (∀ f ∈ [0, 200], let d := { isthmus isTraining 0 0 with ist := { fails := f } }
      d.get R.IST_STATUS_state = isTraining ∧ (d.get R.IST_CTL_retrain_max ≤ d.ist.fails + 1 ↔ f = 200)) ∧
    (let d := isthmus isTraining 255 0
     d.ist.width = 8 ∧ popCount (d.get R.IST_STATUS_modules) 8 = 8) ∧
    (popCount 127 8 = 7 ∧ 7 < 8) ∧ (popCount 63 8 ≤ 6 ∧ 6 < 8) ∧ ¬ (popCount 255 8 = 7) ∧ ¬ (popCount 255 8 ≤ 6) ∧
    (sideFrame { last := 0xFFFF, losses := 1, locked := true } true 1 7 5).2 = true ∧ (sideFrame {} true 9 7 5).2 = true ∧
    (sideFrame { losses := 3, locked := true } false 9 7 5).1.losses = 4 ∧
    (sideFrame { losses := 63, locked := true } false 9 7 5).1.losses = 64 ∧
    (sideFrame { locked := true } true 9 7 5).2 = false ∧ (sideFrame { locked := true } true 9 7 5).1.losses = 1 := by decide

/-! ### Witnesses: the Causeway -/

/-- Link 5 in a state, with lock, all lanes active, and its hidden state as `f` makes it. -/
def linked (st : Nat) (f : LinkSt → LinkSt) : Dev :=
  let d := (up.dev.set R.CW_STATUS_state 5 st).set R.CW_STATUS_lock 5 1
  ((d.set R.CW_LANES_rx_active 5 0xFF).set R.CW_LANES_tx_active 5 0xFF).modLink 5 f

def flitHead (q : BitVec 16) (ackValid : Bool) : FlitHead :=
  { beacon := 0, ackValid := ackValid, resent := false, creditValid := false, creditVc := 0, seq := q, ack := 0xFFFF, credit := 0 }

def planFlit0 : PlanFlit := { tide := 0, stream := 0, index := 0, pos := 0, ready := 0, data := 0 }
def drift0 : DriftFlit := { vc := 3, first := true, last := true, pkt := 0, enters := true, data := 0 }

theorem witness_flits_received :
    (linked lsTraining id).coreUp (dieOfLink 5) = true ∧ (linked lsTraining id).get R.CW_STATUS_state 5 = lsTraining ∧
    (∀ st ∈ [lsUp, lsDegraded], ((linked st id).advance 9).hears 5 = true) ∧
    ((noteBeacon 5 (flitHead 0 false) (applyHead 5 (flitHead 0 false)
      (linked lsUp (fun x => { x with store := [⟨8, 1, .plan planFlit0⟩], nextSeq := 9 })))).link 5).store.any (fun x => decide (x.seq = 8)) = true ∧
    (let e := noteBeacon 5 (flitHead 0 true) (applyHead 5 (flitHead 0 true) (linked lsUp id))
     (flitHead 0 true).ackValid = true ∧ ∀ i < 4, (0 : Nat) =
      (e.get R.CW_CREDIT_sent (5 * 4 + i) + 65536 - ((e.link 5).store.filter (fun x => match x.body with
        | .drift f => decide (f.vc = i)
        | .plan _ => false)).length % 65536) % 65536) ∧
    bit ((linked lsUp id).get R.CW_LANES_tx_failed 5) 8 = false ∧
    sdiff16 0 ((linked lsUp id).link 5).expected = 0 ∧ sdiff16 0xFFFF ((linked lsUp id).link 5).expected < 0 ∧
    0 < sdiff16 0x7FFF ((linked lsUp id).link 5).expected := by decide

theorem witness_flits_sent :
    (linked lsTraining id).get R.CW_STATUS_state 5 = lsTraining ∧ (linked lsUp id).linkUp 5 = true ∧
    ((linked lsUp (fun x => { x with replayAt := some 0 })).link 5).replayAt = some 0 ∧
    (let d := linked lsUp (fun x => { x with planQueue := [planFlit0] })
     (d.planFlitNow 5 0).isSome = true ∧ (d.link 5).store.length < 32767) ∧
    (let d := linked lsUp id
     d.planFlitNow 5 0 = none ∧ (d.link 5).replayAt = none ∧ (d.link 5).syncDue = false ∧ (d.link 5).nakDue = [] ∧
     (d.link 5).laneOut = [] ∧ (d.link 5).ackDue = false ∧ (d.link 5).timeOut = [] ∧ d.driftFlitNow 5 = none) ∧
    ((linked lsUp (fun x => { x with syncDue := true })).link 5).syncDue = true ∧
    ((linked lsUp (fun x => { x with nakDue := [3] })).link 5).nakDue = [3] ∧
    ((linked lsUp (fun x => { x with laneOut := [(8, 0)] })).link 5).laneOut = [(8, 0)] ∧
    ((linked lsUp (fun x => { x with ackDue := true })).link 5).ackDue = true ∧
    ((linked lsUp (fun x => { x with timeOut := [[]] })).link 5).timeOut = [[]] ∧
    ((linked lsUp (fun x => { x with driftQueue := [drift0] })).driftFlitNow 5).isSome = true := by decide +kernel

theorem witness_link_timers :
    (let d := linked lsUp (fun x => { x with store := [⟨0, 1, .plan planFlit0⟩] })
     (d.link 5).store.length = 1 ∧ tdiff 0x7FFFFFFFFFFFFFFF (d.link 5).timerAt ≥ (d.get R.CW_CTL_ack_timeout 5 * 1600 : Nat)) ∧
    tdiff 3200 ((linked lsUp id).link 5).ackAt ≥ 3200 := by decide

theorem witness_lanes :
    (let d := linked lsUp id
     let e := d.incP R.CW_FEC_corrected 5 0
     (bit (e.get R.CW_LANES_rx_failed 5) 8 = false ∧ ((0 : Nat) = 0 ∨ e.get R.CW_CTL_lane_err_limit 5 < 0)) ∧
     ¬ (bit (e.get R.CW_LANES_rx_failed 5) 8 = false ∧ ((1 : Nat) = 0 ∨ e.get R.CW_CTL_lane_err_limit 5 < 1)) ∧
     bit (d.get R.CW_LANES_rx_active 5) 7 = true ∧ d.is R.CW_STATUS_lock 5 = true ∧ tdiff 200000 (d.link 5).laneAt ≥ (10 * usU : Nat)) ∧
    (let d := (linked lsUp (fun x => { x with lockLostAt := some 0 })).set R.CW_STATUS_lock 5 0
     d.linkUp 5 = true ∧ d.is R.CW_STATUS_lock 5 = false ∧ d.lockGone 5 0x7FFFFFFFFFFFFFFF = true ∧ d.lockGone 5 0 = false) := by
  decide

theorem witness_training :
    (let d := (linked lsDown (fun x => { x with retryAt := some 5 })).set R.CW_FENCE_fence 5 0
     (d.link 5).retryAt = some 5 ∧ d.get R.CW_STATUS_state 5 = lsDown ∧ d.is R.CW_FENCE_fence 5 = false ∧ tdiff 5 5 ≥ 0) ∧
    (let d := linked lsDamped (fun x => { x with dampUntil := some 5 })
     (d.link 5).dampUntil = some 5 ∧ d.get R.CW_STATUS_state 5 = lsDamped ∧ tdiff 5 5 ≥ 0) ∧
    (∀ check ∈ [0, 1], ∀ said ∈ [true, false],
      let d := (((linked lsTraining (fun x => { x with initSeen := true, trainAt := some 0, miswired := said })).set R.CW_FENCE_fence 5 0).set
        R.CW_PEER_device 5 7).set R.CW_PEER_EXPECT_check 5 check
      let wrong := d.is R.CW_PEER_EXPECT_check 5 = true ∧
        (d.get R.CW_PEER_device 5 ≠ d.get R.CW_PEER_EXPECT_device 5 ∨ d.get R.CW_PEER_link 5 ≠ d.get R.CW_PEER_EXPECT_link 5)
      (d.link 5).initSeen = true ∧ (d.link 5).miswired = said ∧ (wrong ↔ check = 1) ∧ 4 ≤ goodLanes 0x0F ∧
      (d.link 5).trainAt = some 0 ∧
      tdiff 0x7FFFFFFFFFFFFFFF 0 ≥ (d.get R.CW_TRAIN_train_timeout 5 * msU : Nat)) ∧
    (∀ w ∈ [LinkWait.spare, .train],
      let d := (linked lsDown (fun x => { x with wait := some (w, 0) })).set R.CW_FENCE_fence 5 0
      let e := d.modLink 5 (fun x => { x with wait := none })
      (d.link 5).wait = some (w, 0) ∧ e.get R.CW_STATUS_state 5 = lsDown ∧ e.is R.CW_FENCE_fence 5 = false ∧
      tdiff 0x7FFFFFFFFFFFFFFF 0 ≥ (d.get R.CW_TRAIN_host_wait 5 * msU : Nat)) := by decide

theorem witness_fences :
    bit 1 0 = true ∧ ((linked lsUp id).set R.CW_FENCE_fence 5 1).linkUp 5 = true ∧
    ((linked lsDown id).set R.CW_FENCE_fence 5 1).linkUp 5 = false ∧ bit 0 0 = false ∧
    (∀ st ∈ [lsFenced, lsDown], let d := (linked st id).set R.CW_FENCE_fence 5 1
      d.is R.CW_FENCE_fence 5 = true ∧ (d.set R.CW_FENCE_fence 5 0).get R.CW_STATUS_state 5 = st) ∧
    ((linked lsUp id).set R.CW_FENCE_fence 5 0).is R.CW_FENCE_fence 5 = false := by decide

/-! ### Witnesses: drift and the arbiters -/

/-- A packet to device 0 with an opcode, on its VC, for an address, with `n` words of data (or asking for them). -/
def packet (op vc addr n : Nat) : Packet :=
  { dest := 0, src := 5, x := 0, y := 0, z := 0, vc := BitVec.ofNat 2 vc, detoured := false, turned := false,
    opcode := BitVec.ofNat 8 op, status := 0, tag := 0, gen := 0, words := BitVec.ofNat 7 n, addr := BitVec.ofNat 64 addr,
    data := if op = 1 then [] else List.replicate (8 * n) 1 }

/-- Area FERRY of Estuary holds 64 KiB at address 0, and E7's last cell has an open harbour over its first 64 bytes. -/
def open0 : Dev :=
  let i := cellIx 15 15 * 8
  let d := (up.dev.set R.HB_AREA_size 13 1).set R.SP_HARBOUR_open i 1
  ((d.set R.SP_HARBOUR_size i 1).set R.SP_HARBOUR_read_rights i 15).set R.SP_HARBOUR_write_rights i 15

/-- The same with its first HBM word and E7's first scratchpad word beyond correction. -/
def spoiled : Dev :=
  { open0 with hbmErr := [(2 ^ 34, 2)] }.modCell 15 15 (fun c => { c with spErr := [(0, 2)] })

/-- Hall address of the first byte of E7's last cell. -/
def lastCell : Nat := 2 ^ 41 + 7 * 2 ^ 27 + 3 * 2 ^ 25 + 3 * 2 ^ 22

set_option maxRecDepth 20000 in
theorem witness_packets :
    up.dev.fatal = false ∧ (∀ p ∈ [packet 1 0 0 116, packet 2 0 0 1, packet 6 2 0 116, packet 7 3 0 0],
      p.dest.toNat = up.dev.get R.DEV_ADDR_address ∧ packetOk p = true) ∧
    (∀ p ∈ [packet 1 0 0 117, packet 2 0 0 0, packet 6 2 0 0, packet 7 0 0 0], packetOk p = false) := by decide

set_option maxRecDepth 20000 in
theorem witness_drift_targets :
    open0.driftTarget (2 ^ 44) 8 = .range ∧ open0.driftTarget (2 ^ 39 + 65536) 8 = .refused ∧
    bare.driftTarget lastCell 8 = .absent ∧ (open0.set R.DEV_STATUS_core_h 0 0).driftTarget 0 8 = .silent ∧
    open0.driftTarget (2 ^ 39) 8 = .hbm 1 0 ∧ open0.hallLines (2 ^ 39) 8 = [] ∧
    (hbmRead byDrift none 1 0 8 (wakeFor 1 0 8 open0)).2 = false ∧ (hbmRead byDrift none 1 0 8 (wakeFor 1 0 8 spoiled)).2 = true ∧
    open0.driftTarget lastCell 8 = .sp 15 15 0 ∧
    open0.driftTarget (5 * 2 ^ 40 + 0x40) 8 = .regs 0x40 ∧ 0x40 % 8 = 0 ∧
    open0.is R.SEC_CTL_remote_bar2 = false ∧ (open0.set R.SEC_CTL_remote_bar2 0 1).is R.SEC_CTL_remote_bar2 = true := by
  decide

theorem witness_relays_and_management :
    (let r := { runOf fcRecv [] [] [] none with cmd := ownCmd fcRecv 0 0 0 5 0 0 }
     let p := { packet 6 2 0 116 with data := List.replicate 928 0 }
     (ferryRun r).recvRun p = some 7 ∧ (ferryRun r).powerState ≠ psPark ∧ (ferryRun r).unitWaits p = false ∧
     up.dev.recvRun p = none ∧ up.dev.unitWaits p = false) ∧
    up.dev.fabric.keeperRestart = false ∧ ({ keeperRestart := true } : FabricSt).keeperRestart = true ∧
    ({ up.dev with fabric := { keeperRestart := true } } : Dev).unitWaits (packet 7 3 0 0) = true ∧
    (∀ p ∈ [packet 1 0 0 116, packet 2 0 0 1, packet 6 2 0 116, packet 7 3 0 0], up.dev.unitWaits p = false) := by decide

/-- A request of requester 15 outstanding with a packet's tag and generation. -/
def asked (op : Nat) : Dev :=
  { up.dev with fabric := { reqs := [⟨15, packet op 0 0 1, false, none, 0, false⟩] } }

/-- The same request ended in the present PX cycle. -/
def justEnded (op : Nat) : Dev :=
  { up.dev with fabric := { ended := [⟨⟨15, packet op 0 0 1, false, none, 0, false⟩, cycleOf up.dev.now⟩] } }

theorem witness_responses :
    (∀ op ∈ [3, 4, 5, 8], packetOk (packet op 1 0 (if op = 3 then 1 else 0)) = true) ∧
    (∀ op ∈ [1, 2, 6, 7, 9], ((asked op).answered (packet 5 1 0 0) [1, 2, 6, 7, 9]).isSome = true) ∧
    ((asked 1).answered (packet 3 1 0 1) [opRead]).isSome = true ∧ ((asked 2).answered (packet 3 1 0 1) [opRead]) = none ∧
    ((asked 6).answered (packet 4 1 0 0) [opWrite, opRelay]).isSome = true ∧ up.dev.answered (packet 4 1 0 0) [opWrite, opRelay] = none ∧
    ((asked 9).answered (packet 8 1 0 0) [opMgmtReq, opLaunch]).isSome = true ∧
    up.dev.answered (packet 8 1 0 0) [opMgmtReq, opLaunch] = none ∧ up.dev.answered (packet 5 1 0 0) [1, 2, 6, 7, 9] = none ∧
    up.dev.endedNow (packet 5 1 0 0) [1, 2, 6, 7, 9] = none ∧
    ((justEnded 1).answered (packet 3 1 0 1) [opRead]) = none ∧ ((justEnded 1).endedNow (packet 3 1 0 1) [opRead]).isSome = true ∧
    ((justEnded 6).endedNow (packet 4 1 0 0) [opWrite, opRelay]).isSome = true ∧
    ((justEnded 9).endedNow (packet 8 1 0 0) [opMgmtReq, opLaunch]).isSome = true ∧
    ((asked 1).fabric.reqs.find? (fun r => decide (r.requester = 15 ∧ r.packet.tag.toNat = 0))).any (fun r =>
      decide (tdiff 0x7FFFFFFFFFFFFFFF r.issued ≥ ((asked 1).before R.DRIFT_CTL_req_timeout * usU : Nat))) = true := by decide

/-- The flits of a packet as they wait in an input buffer. -/
def flits (p : Packet) : List DriftFlit :=
  (packetFlits p).zipIdx.map (fun x => ⟨p.vc.toNat, decide (x.2 = 0), decide (x.2 + 1 = flitsFor p.data.length), 0, false, x.1⟩)

/-- The device with link 5's input buffer of VC 0 as given, and the X links up or down. -/
def buffered (fs : List DriftFlit) (x : Nat) : Dev :=
  ((up.dev.set R.CW_STATUS_state 0 x).set R.CW_STATUS_state 1 x).modLink 5 (fun k => { k with inBuf := [(0, fs)] })

theorem witness_forwarding :
    (let fs := flits (packet 1 0 0 1)
     frontPacket (tget [] ((buffered fs 2).link 5).inBuf 0) = some fs ∧ markersOk fs = true ∧
     (parsePacket 0 (fs.map (·.data))).any (fun p => decide (p = packet 1 0 0 1 ∧ (up.dev.route p (some 5)).1 = .here) &&
       !up.dev.unitWaits p) = true) ∧
    (let fs := flits { packet 2 0 0 116 with dest := 9, x := 3 }
     fs.length = 4 ∧ markersOk fs = true ∧
     (parsePacket 0 (fs.map (·.data))).any (fun p =>
       (match ((buffered fs 2).route p (some 5)).1 with
        | .out l _ _ => decide (dieOfLink l ≠ dieOfLink 5 ∨ dieOfLink l = dieOfLink 5)
        | _ => false) &&
       decide (((buffered fs 0).route p (some 5)).1 = .noRoute)) = true ∧
     (tget [] ((buffered fs 2).link 5).transit 0).length + (buffered fs 2).onWayTo 5 0 + fs.length ≤ 4) ∧
    markersOk [⟨0, false, true, 0, false, 0⟩] = false ∧ parsePacket 0 [0] = none ∧ markersOk [⟨0, true, true, 0, false, 0⟩] = true := by
  decide +kernel

theorem witness_arbiters :
    (∀ i ∈ [0, 495, 512, 575, 576, 599], up.dev.coreUp (arbDie i) = true ∧ up.dev.arbPresent i = true ∧
      up.dev.arbWinner i (up.dev.arbReady i (up.dev.arbAsks i 0b1010)) = some 1 ∧ (arbRequesters i).contains 3 = true) ∧
    (let b : BankReq := { packet := packet 1 0 0 1, source := srcOther, region := 15, cell := 15, off := 0, size := 8, rows := [0] }
     let d := { up.dev with fabric := { bank := [b] } }
     d.arbWinner 495 (d.arbReady 495 (d.arbAsks 495 0b1010)) = some 1 ∧ 495 < 512 ∧ d.fatal = false) ∧
    (let d := { up.dev with fabric := { waiting := [(16 * 599 + 5, 65535)] } }
     d.get R.ARB_MODE_starve_limit 599 ≤ d.arbWait 599 5 ∧ bit (d.get R.ARB_STATUS_starved 599) 5 = false ∧
       (arbRequesters 599).contains 5 = true) := by decide

/-! ### Witnesses: time, launch, and the host port -/

theorem witness_hall_time :
    (linked lsUp id).hears 5 = true ∧ (linked lsUp id).coreUp (dieOfLink 5) = true ∧
    due up.dev.time.sentAt up.dev.exchangePeriod 9 = true ∧
    due up.dev.time.updateAt (125 * usU * 2 ^ up.dev.time.servoPeriod) 9 = true ∧
    (let update := fun (d : Dev) => showOffset (latchTimeCtl d)
     let hosts := up.dev.set R.DEV_FUNC_MODE_ACTIVE_active 0 4
     ((update hosts).hosted 2 = true ∧ (update hosts).time.byItself = false) ∧
     ¬ ((update up.dev).hosted 2 = true ∧ (update up.dev).time.byItself = false) ∧
     hosts.hosted 2 = true ∧ hosts.time.adj = none ∧
     tdiff 0x7FFFFFFFFFFFFFFF hosts.time.adjSince ≥ (hosts.time.hostWait * msU : Nat)) ∧
    (9 < 10 ∧ 0 < 10) ∧ ¬ (10 < 10 ∧ 0 < 10) ∧ up.dev.usable 6 = false := by decide

/-- Quay port 1 up. -/
def portUp : Dev := (up.dev.set R.QUAY_PORT_enable 1 1).set R.QUAY_PORT_link_up 1 1

/-- PTP on port 1 enabled, in a state, and its hidden state as `f` makes it; its grandmaster is 9. -/
def ptpOn (st : Nat) (f : PtpSt → PtpSt) : Dev :=
  ((portUp.set R.TIME_PTP_enable 1 1).set R.TIME_PTP_state 1 st).modPtp 1 (fun x => f { x with gm := some 9 })

def ptpHead0 : PtpHead :=
  { udp := up.dev.is R.TIME_PTP_transport 1, gm := 9, domain := BitVec.ofNat 8 (up.dev.get R.TIME_PTP_domain 1), seq := 4, correction := 0 }

theorem witness_ptp :
    (ptpOn ptListen id).ptpTakes 1 ptpHead0 = true ∧
    ((ptpOn ptListen (fun x => { x with waiting := some (4, 7, 0) })).ptp 1).waiting = some (4, 7, 0) ∧
    (let x := (ptpOn ptListen (fun x => { x with req := some (4, 7), sync := some (1, 2) })).ptp 1
     x.req = some (4, 7) ∧ x.sync = some (1, 2)) ∧
    (let d := portUp.set R.TIME_PTP_enable 1 1
     ((d.quayUp 1 = true ∧ d.get R.TIME_PTP_gm_identity 1 = 0 ∧ (d.ptp 1).gm = none) ∧ d.is R.TIME_PTP_enable 1 ∧
       ptpHead0.udp = d.is R.TIME_PTP_transport 1 ∧ ptpHead0.domain.toNat = d.get R.TIME_PTP_domain 1) ∧
     (d.modPtp 1 (fun x => { x with gm := some 9 })).ptpTakes 1 ptpHead0 = true) ∧
    (ptpOn ptLost id).get R.TIME_PTP_state 1 = ptLost ∧ (ptpOn ptListen id).is R.TIME_PTP_enable 1 = true ∧
    (ptpOn ptListen id).quayUp 1 = true ∧
    due (((ptpOn ptListen id).ptp 1).sent.getLast?.map (·.2)) (secU * 2 ^ (ptpOn ptListen id).get R.TIME_PTP_delay_req_log 1 / 128) 9 = true ∧
    (∀ st ∈ [ptListen, ptTracking], let d := ptpOn st (fun x => { x with announceAt := some 0, interval := secU })
      (d.ptp 1).announceAt = some 0 ∧ d.get R.TIME_PTP_state 1 = st ∧
      tdiff 0x7FFFFFFFFFFFFFFF 0 ≥ (d.get R.TIME_PTP_announce_timeout 1 * (d.ptp 1).interval : Nat)) := by decide

theorem witness_pulses_and_captures :
    (∀ edge ∈ [true, false], let d := ((up.dev.set R.TIME_PPS_enable 0 1).setB R.TIME_PPS_edge 0 edge)
      d.is R.TIME_PPS_enable = true ∧ d.is R.TIME_PPS_edge = edge ∧
      ¬ (d.get R.TIME_STATUS_source = 9 ∧ d.time.lost = false) ∧
      ((d.set R.TIME_STATUS_source 0 9).get R.TIME_STATUS_source = 9 ∧ d.time.lost = false)) ∧
    up.dev.usable 9 = false ∧
    (∀ edge ∈ [true, false], let d := (up.dev.set R.TIME_CAPTURE_enable 0 1).setB R.TIME_CAPTURE_edge 0 edge
      (edgeTime 9 d).1.is R.TIME_CAPTURE_enable = true ∧ (edgeTime 9 d).1.is R.TIME_CAPTURE_edge = edge ∧ (edgeTime 9 d).1.time.unread = false ∧
      (d.modTime (fun x => { x with unread := true })).time.unread = true) ∧
    (∀ period ∈ [0, 5], let d := (up.dev.set R.TIME_PULSE_armed 3 1).set R.TIME_PULSE_period 3 period
      d.is R.TIME_PULSE_armed 3 = true ∧ tdiff 0 (tget 0 d.time.pulseAt 3) ≥ 0 ∧ d.get R.TIME_PULSE_period 3 = period) ∧
    ((up.dev.set R.TIME_STATUS_state 0 tmLocked).set R.TIME_STATUS_traceable 0 1).calendarGood = true ∧
    due up.dev.time.calendarAt (3600 * secU) up.dev.now = true := by decide

/-- The device with a plan admitted on 3 devices, and its launch unit as given. -/
def launching (l : LaunchSt) : Dev :=
  let d := up.dev.set R.DEV_ADMIT_STATUS_state 0 asAdmitted
  { d with launch := l, plan := { d.plan with deviceCount := 3 } }

/-- A RECORD or ACK with the kind given in byte 28. -/
def launchPacket (kind : Nat) : Packet :=
  { packet 9 3 0 6 with data := (List.range 48).map (fun i => if i = 28 then BitVec.ofNat 8 kind else 0) }

theorem witness_launch :
    (∀ st ∈ [tsStopped, tsFaulted], let d := inTide st
      (d.get R.TIDE_STATUS_state = tsStopped ∨ d.get R.TIDE_STATUS_state = tsFaulted) ∧
      d.get R.DEV_ADMIT_STATUS_state ≠ asLoading) ∧
    (let d := up.dev.set R.DEV_ADMIT_STATUS_state 0 asLoading
     d.get R.DEV_ADMIT_STATUS_state = asLoading ∧ d.reinitPending = false ∧ d.svc.loading = none ∧
     (modSvc (fun v => { v with loading := some 0 }) d).svc.loading = some 0) ∧
    (let d := launching {}
     d.fatal = false ∧ d.is R.TIDE_LAUNCH_valid = false ∧ d.get R.DEV_ADMIT_STATUS_state ≠ asLoading ∧ d.admitted = true ∧
     up.dev.admitted = false) ∧
    (∀ k ∈ [0, 1], (launchPacket k).opcode.toNat = opLaunch ∧ (launchPacket k).dest.toNat = up.dev.get R.DEV_ADDR_address ∧
      packetOk (launchPacket k) = true ∧ (launchPacket k).data.getD 28 0 = BitVec.ofNat 8 k) ∧
    (let d := (launching { tide := some 9, asked := some 0 }).set R.DEV_FUNC_MODE_ACTIVE_active 0 32
     d.hosted 5 = true ∧ d.launch.tide.isSome = true ∧ 2 < d.plan.deviceCount ∧ (∀ c ∈ d.launch.children, c.index ≠ 2) ∧
     d.launch.asked = some 0 ∧ tdiff 0x7FFFFFFFFFFFFFFF 0 ≥ (d.get R.DEV_LAUNCH_CTL_host_wait * msU : Nat)) ∧
    (let d := launching { tide := some 9, children := [⟨2, 0, none, false⟩] }
     d.launch.children.find? (fun c => decide (c.index = 2)) = some ⟨2, 0, none, false⟩ ∧
     tdiff 0x7FFFFFFFFFFFFFFF 0 ≥ (d.get R.DEV_LAUNCH_CTL_launch_wait * usU : Nat)) := by decide

/-- A host whose link is up, with HDM 0 committed at 0 over Headland's area HOST of 256 MiB, and its lists as `f` makes
them. -/
def hosting (f : HostSt → HostSt) : Dev :=
  let d := ((up.dev.set R.HOST_STATUS_link_up 0 1).set R.HB_AREA_size 6 4096).set R.HOST_HDM_committed 0 1
  let d := d.set R.PWR_STATE_state 0 psIdle
  d.modHost (fun h => f { h with held := false })

theorem witness_host_port :
    (let d := (hosting id).set R.HOST_STATUS_link_up 0 0
     d.host.held = false ∧ d.is R.HOST_STATUS_link_up = false) ∧
    (∀ bs ∈ [none, some (List.replicate 64 (3 : Byte))],
      let d := hosting (fun h => { h with snoop := [hostLine 1 64], snoopOut := [hostLine 1 64] })
      d.host.snoopOut.contains (hostLine 1 64) = true ∧
      (match bs with
       | some b => hbmWrite 1 64 b d
       | none => d).host.waitReads = []) ∧
    (hosting (fun h => { h with waitReads := [7] })).host.waitReads = [7] ∧
    (let d := hosting id
     d.is R.HOST_STATUS_link_up = true ∧ d.hdmAt (0x10000000 - 64) 64 = some (0, 0x10000000 - 64) ∧
     d.hdmAt (0x10000000 - 63) 64 = none ∧ d.coreUp 0 = true ∧
     (wakeFor 0 (0x10000000 - 64) 64 d).hdmAt (0x10000000 - 64) 64 = some (0, 0x10000000 - 64) ∧
     (wakeFor 0 (0x10000000 - 64) 64 d).is R.HOST_STATUS_link_up = true ∧
     d.bytesTrain 0 (0x10000000 - 64) 64 = false ∧ (isthmus isUp 255 0).isthmusUp = true ∧ d.hdmSize 0 ≠ 0 ∧ d.powerState ≠ psPark ∧ Memory.wf d.mem = true) ∧
    (3 : BitVec 16).toNat < 4 ∧
    ({ up.dev with ferry := { slow := [(127, some ⟨0, 131072, 0, 0, 1⟩)] } } : Dev).cacheOpen (.slowTier 127) = true ∧
    slotted.cacheOpen (.kvStage 255 9) = true ∧ slotted.cacheOpen (.kvSpill 255 9) = true := by decide

/-! ### Witnesses: the Quay ports and the sideband -/

/-- Both Quay ports enabled and up; target 63 on port 1, in a state, with its queue pair as given. -/
def quays (st : Nat) (q : QpSt) : Dev :=
  let d := (((up.dev.set R.QUAY_PORT_enable 0 1).set R.QUAY_PORT_link_up 0 1).set R.QUAY_PORT_enable 1 1).set
    R.QUAY_PORT_link_up 1 1
  ((d.set R.QUAY_TARGET_port 63 1).set R.QUAY_TARGET_state 63 st).modQp 63 (fun _ => q)

def read0 : QuayRead := { run := 0, addr := 0, len := 10, psn := 0xFFFFFF, got := 0 }

theorem witness_quay :
    (quays qsReady {}).quayPresent = true ∧ (quays qsReady {}).quayUp 1 = true ∧
    (let d := (quays qsReady { reads := [read0] }).advance 0x7FFFFFFFFFFFFFFF
     d.get R.QUAY_TARGET_state 63 = qsReady ∧ d.quayUp (d.get R.QUAY_TARGET_port 63) = true ∧
     (d.qp 63).reads = [read0] ∧ (d.qp 63).again = false ∧ Nat.min quayMtu (read0.len - quayMtu * read0.got) = 10 ∧
     read0.psn + BitVec.ofNat 24 read0.got = 0xFFFFFF ∧ ((0 : BitVec 24) - 0xFFFFFF).toInt > 0 ∧
     tget none d.quay.downAt (d.get R.QUAY_TARGET_port 63) ≠ some (cycleOf d.now) ∧
     ((sendCnp 63 d).qp 63).reads = [read0] ∧ (d.qp 63).reads ≠ [] ∧
     tdiff 0x7FFFFFFFFFFFFFFF (d.qp 63).timerAt ≥ (quayTimeout : Nat)) ∧
    (quays qsReady {}).get R.QUAY_PORT_pcp 1 < 8 ∧ (quays qsIdle {}).is R.QUAY_TARGET_enable 63 = false ∧
    ((quays qsReady {}).set R.QUAY_TARGET_enable 63 1).is R.QUAY_TARGET_enable 63 = true ∧
    (∀ st ∈ [ptIdle, ptTracking], let d := (quays qsReady {}).set R.TIME_PTP_state 1 st
      d.is R.QUAY_PORT_link_up 1 = true ∧ d.get R.TIME_PTP_state 1 = st) ∧
    (let d := (quays qsReady {}).set R.QUAY_PORT_link_up 1 0
     d.is R.QUAY_PORT_enable 1 = true ∧ d.is R.QUAY_PORT_link_up 1 = false) := by decide

theorem witness_sideband :
    (0x30 : BitVec 7).toNat = up.dev.i3cStatic ∧ (0x31 : BitVec 7).toNat ≠ up.dev.i3cStatic ∧
    up.dev.is R.SEC_DEBUG_unlocked = false ∧ (up.dev.set R.SEC_DEBUG_unlocked 0 1).is R.SEC_DEBUG_unlocked = true := by decide

/-! ### Witnesses: clocks and power -/

/-- E7 with its temperature at the sensor's reading, its frequency and its limits. -/
def region15 (f : Nat) (g : RegClkSt → RegClkSt) : Dev :=
  let d := ((up.dev.set R.CLK_REGION_STATUS_f_now 15 f).set R.CLK_REGION_f_max 15 1800).set R.CLK_REGION_f_min 15 600
  d.modRegClk 15 g

theorem witness_clocks :
    ((up.dev.set R.CLK_SRC_STATUS_dfll_failed 0 0x8000).clkFailed 18 = true) ∧ up.dev.clkFailed 18 = false ∧
    (20000 : BitVec 32).toInt.natAbs ≤ clkBand 18 ∧ ¬ (20001 : BitVec 32).toInt.natAbs ≤ clkBand 18 ∧
    (-20000 : BitVec 32).toInt.natAbs ≤ clkBand 18 ∧ tget 0 up.dev.clk.outside 18 = 0 ∧
    tget 0 ({ outside := [(18, 1)] } : ClkSt).outside 18 ≠ 0 ∧ up.dev.tideIdle = true ∧
    (tget none ({ recheck := [(2, some 100)] } : ClkSt).recheck 2 = some 100 ∧ 100 ≤ 100) ∧
    (∀ v ∈ [0, 15 + 16 * 3 + 128 * 3 + 512 * 3 + 4096 * 8],
      up.dev.gateExists (gateNode v) = true ∧ up.dev.gateBusy (gateNode v) = false ∧ up.dev.childOn (gateNode v) = false ∧
      up.dev.pwr.tripped.contains (dieOf (gateNode v).region) = false) := by decide

theorem witness_region_limits :
    (region15 600 id).dfllRuns 15 = true ∧ up.dev.coreUp (dieOf 15) = true ∧
    (let a := ((region15 600 id).set R.CLK_REGION_mode 15 1).set R.CLK_REGION_margin_min 15 9
     a.is R.CLK_REGION_mode 15 = true ∧ 8 < a.get R.CLK_REGION_margin_min 15 ∧
       (a.regClk 15).floorTide ≠ some (a.get R.TIDE_NUMBER_tide) ∧ ¬ 9 < a.get R.CLK_REGION_margin_min 15) ∧
    ((up.dev.set R.CLK_REGION_STATUS_stretch 15 1).get R.CLK_REGION_STATUS_stretch 15 ≠ 0) ∧
    up.dev.get R.CLK_REGION_STATUS_stretch 15 = 0 ∧ lapsed (up.dev.regClk 15).steppedAt (100 * nsU) 5 = true ∧
    (let p := fun (v : Nat) => (Nat.max 1 (Nat.min 20 (bits v 0 8)), Nat.max 1 (Nat.min 20 (bits v 8 8)),
       Nat.max 1 (Nat.min 24 (bits v 16 8)))
     p 0xFF1300 = (1, 19, 24) ∧ p 0x000000 = (1, 1, 1)) ∧
    (up.dev.regClk 15).therm = none ∧ (up.dev.get R.PWR_CTL_thermal_limit * 16 : Nat) < 1840 ∧ 1840 ≤ (1840 : BitVec 16).toInt ∧
    up.dev.pwr.tripped.contains 1 = false := by decide

theorem witness_power_cap :
    (∀ b ∈ [true, false], let d := { up.dev.set R.PWR_CTL_power_cap 0 100 with pwr := { capping := b } }
      801 > d.get R.PWR_CTL_power_cap * 8 ∧ 800 ≤ d.get R.PWR_CTL_power_cap * 8 ∧
      lapsed d.pwr.capAt msU 5 = true ∧ lapsed d.clk.checkedAt (10 * usU) 5 = true ∧ 759 * 100 < d.get R.PWR_CTL_power_cap * 8 * 95 ∧ d.get R.PWR_CTL_power_cap * 8 * 95 ≤ 760 * 100 ∧ d.pwr.capping = b) ∧
    (∀ r, r < 16 → (up.dev.regClk r).capDrop = 0) ∧ (∃ r, r < 16 ∧ ((region15 900 (fun c => { c with capDrop := 25 })).regClk r).capDrop ≠ 0) ∧
    (List.replicate 16 (0 : BitVec 16)).length = 16 ∧ (List.replicate 16 (0 : BitVec 10)).length = 16 := by decide

theorem witness_supplies :
    tget none ({ avs := [(1, some 750)] } : PwrSt).avs 1 = some 750 ∧
    (let d := up.dev.set R.PWR_RAIL_confirmed 1 800
     d.railBelow 1 751 94 = true ∧ d.railBelow 1 752 94 = false ∧ tget none d.pwr.dips 1 = none ∧
     d.railClear 1 761 = true ∧ d.railClear 1 760 = false ∧ d.railBelow 1 703 88 = true ∧ d.coreUp 1 = true ∧
     tdiff (BitVec.ofNat 64 (50 * nsU)) 0 ≥ (50 * nsU : Nat) ∧
     (∀ b : Bool, tget none ({ dips := [(1, some ⟨3, 700, b⟩)] } : PwrSt).dips 1 = some ⟨3, 700, b⟩)) ∧
    (∀ k ∈ [0, 1], (inTide tsRunning).planHeld = true ∧ up.dev.planHeld = false ∧ up.dev.coreUp k = true) ∧
    (let e := (State.reset.dev.set R.PWR_RAIL_confirmed 0 800).set R.PWR_STATE_state 0 psIdle
     e.coreUp 0 = false ∧ e.railClear 0 761 = true ∧ ¬ (e.powerState = psDormant ∧ e.pwr.boot = false) ∧
     (leaveReset 0 e).pwr.boot = false ∧ ¬ ((leaveReset 0 e).coreUp 1 = true ∧ (leaveReset 0 e).sec.toBoot.contains 1 = false) ∧
     (leaveReset 0 (e.set R.DEV_STATUS_core_e 0 1)).coreUp 1 = true ∧
     (leaveReset 0 (e.set R.DEV_STATUS_core_e 0 1)).sec.toBoot.contains 1 = false ∧
     (leaveReset 1 { e with pwr := { e.pwr with boot := true } }).pwr.boot = true) := by decide

/-- The device in a power state. -/
def powered (st : Nat) (f : PwrSt → PwrSt) : Dev :=
  let d := up.dev.set R.PWR_STATE_state 0 st
  { d with pwr := f d.pwr }

theorem witness_power_states :
    (let d := (powered psIdle id).set R.PWR_STATE_pwr_good 0 0
     (tearEntry (spoilBoot d)).powerState ≠ psDormant ∧ (tearEntry (spoilBoot (powered psIdle id))).powerState ≠ psDormant) ∧
    (let e := State.reset.dev.set R.PWR_STATE_pwr_good 0 1
     e.powerState = psDormant ∧ e.pwr.wakes = true ∧ lapsed e.pwr.lowSince usU 5 = true ∧ e.pwr.boot = false) ∧
    (powered psIdle id).powerState = psIdle ∧
    (let d := powered psPark (fun p => { p with byCommand := true })
     d.powerState = psPark ∧ d.pwr.byCommand = true ∧ d.pwr.quiesceN = false) ∧
    (∀ st ∈ [psDormant, psIdle], let e := (powered st id).set R.PWR_STATE_quiesce 0 1
      e.pwr.quiesceN = false ∧ e.powerState = st ∧ e.pwr.quiesceStep = 0) ∧
    (∀ q ∈ [true, false], let d := powered psIdle (fun p => { p with quiesceStep := 2, quiesceN := q })
      (flushQuiesce d).pwr.quiesceStep = 2 ∧ (flushQuiesce d).life.queue = [] ∧ (flushQuiesce d).life.writing = [] ∧
        (flushQuiesce d).pwr.quiesceN = q) ∧
    (∀ n ∈ [3, 1], let d := powered psPark (fun p => { p with quiesceStep := n, quiesceN := true })
      (d.set R.PWR_STATE_quiesce 0 0).pwr.quiesceN = true ∧ d.pwr.quiesceStep = n) ∧
    (let d := powered psPark id
     d.pwr.refresh.contains 7 = false ∧ tdiff 0x7FFFFFFFFFFFFFFF (tget 0 d.pwr.lastReq 7) ≥ (100 * usU : Nat)) := by decide

/-! ### Witnesses: security, boot and update -/

/-- The device with area SYSTEM of Estuary at address 0, and key entry 63 valid or not. -/
def keyed (valid : Bool) : Dev :=
  let d := (hosting id).set R.HB_AREA_size 8 1
  (d.set R.SEC_KEY_ADDR_addr 0 (d.get R.DEV_ADDR_address * 2 ^ 44 + 2 ^ 39)).set R.SEC_KEY_VALID_valid 0 (setBit 0 63 valid)

/-- Whether a signature or a tag is right is a free function of its bytes: the rest of what an object must be. -/
theorem witness_security :
    (hosting id).host.held = false ∧ up.dev.tokenOk [] = false ∧ (6 : BitVec 3).toNat ≤ 6 ∧
    bit ((keyed true).get R.SEC_KEY_VALID_valid) 63 = true ∧ bit ((keyed false).get R.SEC_KEY_VALID_valid) 63 = false ∧
    (keyed false).keyBlob.isSome = true ∧ up.dev.keyBlob = none := by decide

/-- The device at a boot stage, booting, with both core domains out of reset. -/
def booting (stage : Nat) (f : SecSt → SecSt) : Dev :=
  let d := (hosting id).set R.SEC_BOOT_stage 0 stage
  { d with pwr := { d.pwr with boot := true }, sec := f d.sec }

theorem witness_boot :
    (let d := booting 1 id
     d.pwr.boot = true ∧ d.get R.SEC_BOOT_stage = 1 ∧ d.coreUp 0 = true ∧ d.coreUp 1 = true ∧
     (takeBootSource d).is R.DEV_FUNC_MODE_boot_src = false ∧
     (takeBootSource (d.set R.DEV_FUNC_MODE_boot_src 0 1)).is R.DEV_FUNC_MODE_boot_src = true ∧
     (takeBootSource d).accepts (objAt (takeBootSource d).mem (norKey 0)) 0 0 = false) ∧
    (let d := booting 14 (fun x => { x with recv := [1, 2] })
     d.get R.SEC_BOOT_stage = 14 ∧ d.host.held = false ∧ (1 : BitVec 32).toNat ≠ d.sec.recv.length ∧
     (2 : BitVec 32).toNat = d.sec.recv.length ∧ ¬ (1 > 1048576 ∨ d.sec.recv.length + 1 > 0x10000 + 33554432) ∧
     d.accepts (objOf d.sec.recv) 0 0 = false ∧ d.sec.recvOpen = false ∧
     tdiff 0x7FFFFFFFFFFFFFFF d.sec.recoverAt ≥ (d.get R.SEC_CTL_recovery_wait * secU : Nat)) := by decide

/-- An update in progress, in a state of SEC_UPDATE_STATUS. -/
def updating (st : Nat) (x : UpdSt) : Dev :=
  let d := (powered psIdle id).set R.SEC_UPDATE_STATUS_state 0 st
  { d with sec := { d.sec with upd := some x } }

theorem witness_updates :
    up.dev.sec.upd = none ∧
    (let x : UpdSt := { bytes := [], component := 7 }
     (updating upChecking x).sec.upd = some x ∧ (updating upChecking x).get R.SEC_UPDATE_STATUS_state = upChecking ∧
     ¬ (x.component ≤ 6)) ∧
    instancesOf 3 0x80 = [7] ∧ instancesOf 3 0 = [] ∧
    (let x : UpdSt := { bytes := [], component := 3, left := [7] }
     (updating upPending x).get R.SEC_UPDATE_STATUS_state = upPending ∧ x.since = none ∧
     (updating upPending x).quietPoint x 7 = true) ∧
    (∀ c ∈ [0, 1, 3, 6], let x : UpdSt := { bytes := [], component := c, left := [7], since := some 0 }
      x.since.isSome = true ∧ x.component = c ∧ x.left.head? = some 7 ∧
      tdiff 0x7FFFFFFFFFFFFFFF (x.since.getD 0) ≥ (2 * secU : Nat)) := by decide

/-! ### Witnesses: the meter, events, registers, and the machine -/

def params0 : List Byte :=
  leBytes 2 60 ++ leBytes 1 63 ++ [0] ++ leBytes 4 100 ++ (List.range 6).flatMap (fun _ => leBytes 4 10) ++
  (List.range 6).flatMap (fun _ => leBytes 2 2000) ++ (List.range 6).flatMap (fun _ => [7]) ++ List.replicate 14 0

def record0 : MeterRecord := { number := 3, bytes := [], customers := [] }

theorem witness_meter :
    State.reset.meter.powered = true ∧
    ({ store := [record0] } : MeterSt).store.find? (fun r => r.number = 3) = some record0 ∧
    ({ store := [record0] } : MeterSt).store.find? (fun r => r.number = 4) = none ∧
    (readParams params0).isSome = true ∧ readParams [] = none ∧ ({ sealOpen := true } : MeterSt).sealOpen = true ∧
    ({} : MeterSt).banks < 32 ∧ ({} : MeterSt).paramEvents ≠ 2 ^ 31 - 1 ∧ 32 ≤ ({ banks := 32 } : MeterSt).banks ∧
    ({} : MeterSt).absent = false ∧ tdiff (BitVec.ofNat 64 (10 * msU)) ({} : MeterSt).acceptedAt ≥ (10 * msU : Nat) ∧
    ({} : MeterSt).secondsNow (BitVec.ofNat 64 (60 * secU)) ≥ ({} : MeterSt).start + ({} : MeterSt).params.period ∧
    (∃ x : MeterSnap, ({ signing := [x] } : MeterSt).signing = [x]) ∧ ({ powered := false } : MeterSt).powered = false ∧
    lapsed ({} : MeterSt).refreshAt secU 5 = true := by
  refine ⟨by decide, by decide, by decide, by decide, by decide, by decide, by decide, by decide, by decide, by decide, by decide, by decide,
    ⟨⟨0, 0, 0, 0, 0, 0, {}, [], [], []⟩, rfl⟩, by decide, by decide⟩

theorem witness_feed :
    (let d := modSvc (fun v => { v with feed := [⟨0, 0, 1, 0, 0⟩] }) up.dev
     d.coreUp 1 = true ∧ d.svc.feedTx.frame = none ∧ d.svc.feed = [⟨0, 0, 1, 0, 0⟩]) ∧
    (∀ w ∈ [true, false], let d := modFeed (fun x => { x with frame := some [1], carries := some (0, 1, 0), onWire := w }) up.dev
      d.svc.feedTx.frame = some [1] ∧ d.svc.feedTx.carries = some (0, 1, 0) ∧ d.svc.feedTx.onWire = w ∧
      tdiff (BitVec.ofNat 64 (10 * usU)) d.svc.feedTx.sentAt ≥ (10 * usU : Nat)) ∧
    ((modFeed (fun x => { x with onWire := true }) up.dev).svc.feedTx.carries = none) ∧
    up.dev.svc.feed = [] ∧ tdiff (BitVec.ofNat 64 msU) up.dev.svc.feedTx.idleAt ≥ (msU : Nat) ∧
    up.dev.is R.TIME_CALENDAR_synced = false ∧ (up.dev.set R.TIME_CALENDAR_synced 0 1).is R.TIME_CALENDAR_synced = true ∧
    up.dev.is R.METER_STATUS_stale = false ∧ tdiff (BitVec.ofNat 64 (3 * secU)) up.dev.mirrorAt ≥ (3 * secU : Nat) := by decide

theorem witness_events :
    up.dev.coreUp (dieOf 15) = true ∧ up.dev.fatal = false ∧
    (∀ p ∈ [Phase.run, Phase.hold], ((up.dev.modReg 15 (fun u => { u with phase := p })).reg 15).phase = p) ∧
    ((up.dev.modReg 15 (fun u => { u with slip := some ⟨1, true, 0, 0, []⟩ })).reg 15).slip = some ⟨1, true, 0, 0, []⟩ ∧
    (let d := { up.dev with evt := { vecs := [(63, { held := true, lastSent := some 0 })] } }
     (tget ({} : VecSt) d.evt.vecs 63).held = true ∧ (tget ({} : VecSt) d.evt.vecs 63).lastSent = some 0 ∧
       tdiff 0x7FFFFFFFFFFFFFFF 0 ≥ (d.get R.EVT_CTL_coalesce * usU : Nat)) ∧
    131072 % 131072 = 0 ∧ lapsed up.dev.life.hourAt (3600 * secU) 5 = true ∧ lapsed up.dev.life.minuteAt (60 * secU) 5 = true ∧ (List.replicate 16 (0 : BitVec 16)).length = 16 ∧
    (∀ e ∈ [true, false], let d := { up.dev with life := { writing := [⟨3, [0]⟩], erased := e, retried := e } }
      d.life.writing = [⟨3, [0]⟩] ∧ (fitSector (entryLength 3) d.life).erased = e ∧
        (d.modLife (fitSector (entryLength 3))).life.retried = e) := by decide

theorem witness_registers :
    (∀ p ∈ [RegPart.full, .low, .high], partAligned p (if p = .high then 0x400004 else 0x400000) = true ∧
      partAligned p 0x400001 = false) ∧
    (regAt 0x400000).any (fun p => !p.1.bar2 && p.1.fields.all (fun r => !r.bar2w) && !up.dev.absentReg p.1.word p.2) = true ∧
    (regTable.filter (fun w => w.fields.any (fun r => r.bar2w))).any (fun w =>
      (regAt w.base).any (fun p => p.1.fields.any (fun r => r.bar2w))) = true ∧
    (regAt (0x400004 / 8 * 8)).any (fun p => decide (p.1.word ≠ 128)) = true ∧
    (∀ s ∈ [0, 1, 2, 3, 16], ¬ ((s = 4 ∨ s = 8) ∧ 0x400000 % s = 0)) ∧ ¬ ((4 = 4 ∨ 4 = 8) ∧ 0x400002 % 4 = 0) ∧
    (let y : HalfSnap := ⟨0, 0x400000, 9⟩
     ({ snaps := [y] } : EvtSt).snaps.find? (fun x => decide (x.requester = 0 ∧ x.offset = 0x400000)) = some y) := by decide

theorem witness_nothing_to_settle : up.dev.nothingToSettle := by
  refine ⟨fun l hl => ?_, by unfold Dev.launchSettled; decide, by unfold Dev.quaySettled; decide, by unfold Dev.ferrySettled; decide, by decide, by decide, by decide, by decide⟩
  unfold Dev.linkSettled
  interval_cases l <;> decide

theorem witness_meter_invariant : (∃ s', step up = .next s') ∧ tableWf {} up.meter.customers = true ∧ tableWf {} up.meter.tenants = true ∧
    bit (frameNum [] 2 1) 1 = false := ⟨⟨up, rfl⟩, by decide, by decide, by decide⟩

set_option maxRecDepth 20000 in
theorem witness_control_words :
    endWord.wf = true ∧ recvWord.wf = true ∧ decodeWord (encodeWord endWord) = .ok endWord := by decide

theorem witness_comparisons :
    isNan .nan = true ∧ (Val.fin true 0 5).rat = 0 ∧ (Val.fin true 1 0).rat < (Val.fin false 3 0).rat ∧
    isNan (.inf true) = false ∧ Val.inf true ≠ .inf false ∧ cmpVal 2 (.fin true 1 0) (.fin false 3 0) = true ∧
    cmpVal 4 (.fin true 1 0) (.fin false 3 0) = false := by
  refine ⟨by decide, by norm_num [Val.rat], by norm_num [Val.rat], by decide, by decide, by decide, by decide⟩

/-- Two flits sent and not acknowledged: the store that acks act on. -/
theorem witness_acks :
    let d := linked lsUp (fun x => { x with store := [⟨0xFFFF, 1, .plan planFlit0⟩, ⟨0, 1, .plan planFlit0⟩], nextSeq := 1 })
    rising d.links = true ∧ (d.link 5).store.map (fun s => s.seq) = (List.range 2).map (fun i => 0xFFFF + BitVec.ofNat 16 i) ∧
    (d.link 5).nextSeq = 0xFFFF + BitVec.ofNat 16 2 ∧ ((1 : BitVec 16) - 0xFFFF).toInt > 0 ∧
    (0xFFFE - (0xFFFF : BitVec 16)).toInt < 0 := by decide

theorem witness_fatal_and_held :
    (Instr.planEnd 0 g0).planOrDrift = true ∧ ({ up.dev with fatal := true } : Dev).fatal = true ∧
    (regAt 0x400000).any (fun p => decide (p.1.die p.2 = some 0)) = true ∧ State.reset.dev.coreUp 0 = false ∧
    (Instr.planEnd 0 g0).ofMeter = false := by decide

/-! ### Well-formedness: each check refuses a term -/

def flitHead0 : FlitHead :=
  { beacon := 0, ackValid := false, resent := false, creditValid := false, creditVc := 0, seq := 0, ack := 0, credit := 0 }

theorem test_wf_refuses_cells_and_words :
    Instr.wf (.planTick 8 0 [⟨16, 0, 1⟩]) = false ∧ Instr.wf (.planTick 8 0 [⟨15, 262144, 1⟩]) = false ∧
    Instr.wf (.holdTick 8 0 [⟨16, 0, 1⟩]) = false ∧ Instr.wf (.spPatrolScrub 15 [⟨31, 0, 1⟩]) = false ∧
    Instr.wf (.segClassWrite 8 16 0) = false ∧ Instr.wf (.segReinitDone 8 16 0) = false ∧ Instr.wf (.segReinitDone 8 0 32) = false ∧
    Instr.wf (.harbourWrite 15 16 0 0 false) = false ∧ Instr.wf (.hbmWriteAccept 15 0 16 0) = false ∧
    Instr.wf (.hbmWriteAccept 0 0 0 4) = false ∧ Instr.wf (.planTick 7 0 [⟨31, 524287, 1⟩]) = true := by decide

set_option maxRecDepth 20000 in
theorem test_wf_refuses_flits :
    Instr.wf (.ackFlit 0 flitHead0 ⟨[0, 0, 0], [0, 0, 0, 0]⟩ 0) = false ∧
    Instr.wf (.creditSyncFlit 0 flitHead0 0 ⟨[0, 0, 0, 0], []⟩ 0) = false ∧
    Instr.wf (.timeFlit 0 flitHead0 (List.replicate 241 0) 0 0) = false ∧
    Instr.wf (.timeFlit 0 flitHead0 (List.replicate 240 0) 0 0) = true := by decide

theorem test_wf_refuses_packets :
    Instr.wf (.read (packet 1 0 0 117) 0) = false ∧ Instr.wf (.write (packet 2 0 0 0) 0) = false ∧
    Instr.wf (.readResp (packet 3 0 0 1) 0) = false ∧ Instr.wf (.writeAck (packet 4 1 0 1) 0) = false ∧
    Instr.wf (.bounce (packet 4 1 0 0) 0) = false ∧ Instr.wf (.relay (packet 6 2 0 0) 0) = false ∧
    Instr.wf (.mgmtReq (packet 7 2 0 0) none 0) = false ∧ Instr.wf (.mgmtResp (packet 8 3 0 0) 0) = false ∧
    Instr.wf (.launchRecord (packet 9 3 0 5) 0) = false ∧ Instr.wf (.launchAck (packet 9 3 0 7) 0) = false ∧
    Instr.wf (.read (packet 1 0 0 116) 0) = true ∧ Instr.wf (.launchRecord (packet 9 3 0 6) 0) = true := by decide

theorem test_wf_refuses_the_rest :
    Instr.wf (.counterClear 4) = false ∧ Instr.wf (.hostMemWrite 1 (List.replicate 64 0) false) = false ∧
    Instr.wf (.hostMemWrite 0 [] false) = false ∧ Instr.wf (.biSnoopResponse 0 1 none 0) = false ∧
    Instr.wf (.biSnoopResponse 0 64 (some []) 0) = false ∧ Instr.wf (.svnAdvance 7) = false ∧ Instr.wf (.quote []) = false ∧
    Instr.wf (.energySample [] []) = false ∧ Instr.wf (.neighbourCheck [] [] 0) = false ∧ Instr.wf (.lifeMinute [] 0) = false ∧
    Instr.wf (.halfRead 0 2) = false ∧ Instr.wf (.registerWrite .bar0 4 .full 0 0) = false ∧
    Instr.wf (.registerWrite .bar0 0 .high 0 0) = false ∧ Instr.wf (.misalignedAccess 8 8 0) = false ∧
    Instr.wf (.misalignedAccess 4 8 0) = true ∧ wfQueue [.svnAdvance 7] = false := by decide

/-! ### Control words written out from Tables 3.1 to 3.12 -/

/-- The word whose set bits are those listed. -/
def ofBits (l : List Nat) : Nat := l.foldl (fun n b => n + 2 ^ b) 0

set_option maxRecDepth 20000 in
/-- END under p1, for 2 ticks; JMP to address 5; CLEAR of set 3 of A7 with window base -1; ADD BF16 on V0. -/
theorem test_words_of_tables_3_4_3_5_and_3_10 :
    decodeWord (ofBits [18, 24, 32, 44, 60, 110]) = .ok { rep := 1, gov := ⟨1, false⟩, slots := [.loop .done] } ∧
    decodeWord (ofBits [18, 24, 60, 61, 84, 86, 108, 109]) = .ok { rep := 0, gov := g0, slots := [.loop (.jmp 5)] } ∧
    decodeWord (ofBits [7, 24, 60, 61, 63, 96, 97, 98, 99, 100, 101, 102, 103, 104, 105, 108]) =
      .ok { rep := 0, gov := g0, slots := [.arr 7 (.clear 3 (-1))] } ∧
    decodeWord (ofBits [8, 24, 63, 91, 95, 100, 101, 102, 103, 104, 105, 106]) =
      .ok { rep := 0, gov := g0, slots := [.vec 0 ⟨.add, true, 31, 1, 2, 0, 0, 0⟩] } := by decide

set_option maxRecDepth 20000 in
/-- STEP of G3 by 3; GATHER into the vector unit on X1; LSEND on T1; CNTLD; PLOG. -/
theorem test_words_of_tables_3_7_to_3_12 :
    decodeWord (ofBits [13, 24, 61, 80, 81, 109]) = .ok { rep := 0, gov := g0, slots := [.gen 3 (.step 3)] } ∧
    decodeWord (ofBits [15, 24, 62, 94, 101, 105, 107, 108]) =
      .ok { rep := 0, gov := g0, slots := [.xbar 1 ⟨false, 2, 8, 0x81⟩] } ∧
    decodeWord (ofBits [17, 24, 60, 62, 63, 64, 81, 89, 105, 107, 108, 110]) =
      .ok { rep := 0, gov := g0, slots := [.xfer 1 (.lsend 5 1 1 1)] } ∧
    decodeWord (ofBits [19, 24, 62, 64, 80, 83, 84, 110]) = .ok { rep := 0, gov := g0, slots := [.desc (.cntld 1 9 1)] } ∧
    decodeWord (ofBits [20, 24, 61, 94, 95, 97, 100, 104, 105, 106, 107, 109]) =
      .ok { rep := 0, gov := g0, slots := [.pred (.plog 15 1 2 3)] } := by decide

set_option maxRecDepth 20000 in
/-- R68: bad parity before a bad field; a reserved slot, a reserved header bit, a wrong nslots. -/
theorem test_bad_words :
    decodeWord (ofBits [18, 24, 110]) = .error E.CW_PARITY ∧ decodeWord (ofBits [21, 24, 110, 61, 60, 62]) = .error E.CW_FORMAT ∧
    decodeWord (ofBits [18, 24, 29, 61, 60, 110]) = .error E.CW_FORMAT ∧ decodeWord (ofBits [18, 25, 61, 110]) = .error E.CW_FORMAT ∧
    CWord.wf { rep := 0, gov := g0, slots := [.loop .done, .arr 0 .wswap] } = false ∧
    CWord.wf { rep := 0, gov := g0, slots := [.loop (.loopb true 0 0 1)] } = false := by decide

/-! ### Single steps -/

/-- The step answers a next state of which `p` holds. -/
def gives (s : State) (c : Instr) (p : State → Bool) : Bool :=
  match step { s with pending := [c] } with
  | .next s' => p s' && decide (s'.pending = [])
  | _ => false

theorem test_empty_queue_idles : step up = .next up := rfl

/-- R31: a period outside 65,536 to 1,048,576 is refused with EV_TIDE_CONFIG_REFUSED; one inside is stored. -/
theorem test_tide_config :
    gives up (.tideConfigWrite false 65536) (fun s => decide (s.dev.get R.TIDE_PERIOD_period = 65536)) = true ∧
    gives up (.tideConfigWrite false 65535) (fun s => decide (s.dev.get R.TIDE_PERIOD_period = R.TIDE_PERIOD_period.rst ∧ s.dev.evt.seq = 1)) = true := by decide

/-- R422, R476: the one stop. -/
theorem test_vendor_private_stops :
    exec (.jtagVendorPrivate 0x12 []) { up with dev := up.dev.set R.SEC_DEBUG_unlocked 0 1 } = .fault .jtagPrivate := by rfl

/-- R405: bytes written through HDM 0 lie in area HOST of Headland's HBM. -/
theorem test_host_write :
    gives { up with dev := hosting id } (.hostMemWrite 64 [1, 2] false) (fun s =>
      decide (mget s.dev.mem (hbmKey 0 64) = 1 ∧ mget s.dev.mem (hbmKey 0 65) = 2 ∧ mget s.dev.mem (hbmKey 0 66) = 0)) = true := by
  decide

set_option maxRecDepth 20000 in
/-- R515, R513: LIFE_SUMMARY counts a power-on hour. -/
theorem test_life_summary :
    gives up (.lifeSummary 5) (fun s => decide (s.dev.get R.LIFE_TOTALS_power_on_hours = 1)) = true := by decide

/-- R492: opening the seal sets its flag, which closing does not clear. -/
theorem test_seal :
    gives up .sealOpen (fun s => bit s.meter.flags mfSealOpen && s.meter.sealOpen) = true ∧
    gives { up with meter := { up.meter with sealOpen := true, flags := setBit 0 mfSealOpen true } } .sealClose
      (fun s => bit s.meter.flags mfSealOpen && !s.meter.sealOpen) = true := by decide

set_option maxRecDepth 20000 in
/-- R500: RESET_CORES ends a FATAL stop. -/
theorem test_reset_cores :
    gives { up with dev := { up.dev with fatal := true } } (.resetCores 5) (fun s => !s.dev.fatal && !s.dev.coreUp 0) = true := by
  decide

/-- R441: the setpoint is limited to 650 to 850 mV. -/
theorem test_rail_limits :
    gives up (.pwrRailWrite 1 1023 5) (fun s => decide (s.dev.get R.PWR_RAIL_setpoint 1 = 850)) = true ∧
    gives up (.pwrRailWrite 1 0 5) (fun s => decide (s.dev.get R.PWR_RAIL_setpoint 1 = 650)) = true := by decide

end Sys2Proof.Tests
end

section
/-! SUPPORT. What a completion statement asks: the command's arm of `exec`, with the die that it needs out of reset, and
the device that the command's function answers. -/

namespace Sys2Proof.Machine

/-- The function's value in another form. -/
theorem Becomes.trans {i : Instr} {s : State} {d e : Dev} (h : Becomes i s d) (hde : d = e) : Becomes i s e := hde ▸ h

theorem becomes_of_settled {i : Instr} {s : State} {f : Dev → Dev} (harm : exec i s = settled f s) :
    Becomes i s (f s.dev) := harm.trans (settled_next f s)

theorem becomes_of_estuary {i : Instr} {s : State} {f : Dev → Dev} (harm : exec i s = estuary f s)
    (hup : s.dev.coreUp 1 = true) : Becomes i s (f s.dev) := harm.trans (estuary_up hup)

theorem becomes_of_onDie {i : Instr} {s : State} {die : Nat} {f : Dev → Dev} (harm : exec i s = onDie die f s)
    (hup : s.dev.coreUp die = true) : Becomes i s (f s.dev) := harm.trans (onDie_up hup)

end Sys2Proof.Machine
end

section
/-! SUPPORT. The tide unit's register writes (R31, Table 2.7, Table 3.16) and COUNTER_CLEAR (R8), case by case. -/

namespace Sys2Proof.Machine

/-! ### TIDE_CONFIG_WRITE -/

theorem becomes_tideConfigWrite {s : State} (hup : s.dev.coreUp 1 = true) (origin : Bool) (v : Word) :
    Becomes (.tideConfigWrite origin v) s (execTideConfigWrite origin v.toNat s.dev) :=
  becomes_of_estuary rfl hup

theorem execTideConfigWrite_not_stopped {d : Dev} (h : d.get R.TIDE_STATUS_state ≠ tsStopped) (origin : Bool) (v : Nat) :
    execTideConfigWrite origin v d = d.raise E.TIDE_CONFIG_REFUSED := if_pos h

theorem execTideConfigWrite_origin {d : Dev} (h : d.get R.TIDE_STATUS_state = tsStopped) (v : Nat) :
    execTideConfigWrite true v d = d.set R.TIDE_ORIGIN_origin 0 v := by
  simp [execTideConfigWrite, h]

/-- The lengths that R31 admits for a tide. -/
def legalPeriod (p : Nat) : Prop := p % 16 = 0 ∧ 65536 ≤ p ∧ p ≤ 1048576

theorem execTideConfigWrite_period {d : Dev} (h : d.get R.TIDE_STATUS_state = tsStopped) {v : Nat}
    (hp : legalPeriod (v % 2 ^ 21)) :
    execTideConfigWrite false v d = showCapacity (d.set R.TIDE_PERIOD_period 0 (v % 2 ^ 21)) := by
  rw [execTideConfigWrite, if_neg (not_not_intro h), if_neg Bool.false_ne_true]
  exact if_pos hp

theorem execTideConfigWrite_illegal_period {d : Dev} (h : d.get R.TIDE_STATUS_state = tsStopped) {v : Nat}
    (hp : ¬ legalPeriod (v % 2 ^ 21)) :
    execTideConfigWrite false v d = d.raise E.TIDE_CONFIG_REFUSED := by
  rw [execTideConfigWrite, if_neg (not_not_intro h), if_neg Bool.false_ne_true]
  exact if_neg hp

/-! ### TIDE_CTL_WRITE -/

theorem becomes_tideCtlWrite {s : State} (hup : s.dev.coreUp 1 = true) (v : Word) :
    Becomes (.tideCtlWrite v) s (execTideCtlWrite v.toNat s.dev) :=
  becomes_of_estuary rfl hup

/-! ### SEQ_LOOP_COUNT_WRITE -/

theorem becomes_seqLoopCountWrite {s : State} {r : Region} (hup : s.dev.coreUp (dieOf r.val) = true) (n : Fin 16)
    (v : BitVec 32) :
    Becomes (.seqLoopCountWrite r n v) s (execSeqLoopCountWrite r.val n.val v.toNat s.dev) :=
  becomes_of_onDie rfl hup

theorem execSeqLoopCountWrite_no_plan {d : Dev} (ha : d.get R.TIDE_STATUS_state ≠ tsArmed)
    (hr : d.get R.TIDE_STATUS_state ≠ tsRunning) (r n v : Nat) :
    execSeqLoopCountWrite r n v d = d.store R.SEQ_LOOP_COUNT_count (r * 16 + n) v :=
  if_neg (not_or_intro hr ha)

theorem execSeqLoopCountWrite_plan {d : Dev}
    (h : d.get R.TIDE_STATUS_state = tsRunning ∨ d.get R.TIDE_STATUS_state = tsArmed) (r n v : Nat) :
    execSeqLoopCountWrite r n v d = d.raise E.SEQ_WRITE_REFUSED (some r) := if_pos h

/-! ### COUNTER_CLEAR -/

theorem becomes_counterClear (s : State) (off : BitVec 25) :
    Becomes (.counterClear off) s (execCounterClear off.toNat s.dev) :=
  becomes_of_settled rfl

theorem execCounterClear_clears {d : Dev} {off : Nat} {w : RegWord} {i : Nat} (hreg : regAt off = some (w, i))
    (hpresent : d.absentReg w.word i = false) (hup : d.regHeld w i = false) (hclears : w.clears = true) :
    execCounterClear off d = clearCounters w.word i d := by
  simp [execCounterClear, hreg, hpresent, hup, hclears]

/-! ### The statement -/

/-- Settles O11: each write through its own arm and the case of its function that the premises choose. -/
theorem tideRegisterWritesComplete : Obligations.TideRegisterWritesComplete := by
  refine ⟨fun s v hup =>
      ⟨fun hst => ⟨?origin, fun hp => ?period, fun hp => ?illegalPeriod⟩, fun hst origin => ?notStopped⟩,
    fun s v hup => becomes_tideCtlWrite hup v, fun s r n v hup => ⟨fun ⟨ha, hr⟩ => ?noPlan, fun hst => ?plan⟩,
    fun s off w i hreg hpresent hheld hclears => ?clear⟩
  case origin => exact (becomes_tideConfigWrite hup true v).trans (execTideConfigWrite_origin hst _)
  case period => exact (becomes_tideConfigWrite hup false v).trans (execTideConfigWrite_period hst hp)
  case illegalPeriod => exact (becomes_tideConfigWrite hup false v).trans (execTideConfigWrite_illegal_period hst hp)
  case notStopped => exact (becomes_tideConfigWrite hup origin v).trans (execTideConfigWrite_not_stopped hst _ _)
  case noPlan => exact (becomes_seqLoopCountWrite hup n v).trans (execSeqLoopCountWrite_no_plan ha hr _ _ _)
  case plan => exact (becomes_seqLoopCountWrite hup n v).trans (execSeqLoopCountWrite_plan hst _ _ _)
  case clear => exact (becomes_counterClear s off).trans (execCounterClear_clears hreg hpresent hheld hclears)

end Sys2Proof.Machine
end

section
/-! SUPPORT. The register accesses (R3, R508, R509, R520, R526, R527): a write by its requester, a refused one, a
misaligned one, and the read of a half. -/

namespace Sys2Proof.Machine

/-! ### A write at an offset where a register lies -/

section
variable {base : Nat} {w : RegWord} {i : Nat} (hreg : regAt base = some (w, i)) (p : RegPart) (q v : Nat) (t : Time)
  (d : Dev)
include hreg

theorem writeBar0_at_register : writeBar0 base p q v t d = writeReg w i p q v t d := by
  simp [writeBar0, hreg]

/-- Table 20.4 names a field of the register that BAR2 writes. -/
theorem writeBar2_writable (hw : w.fields.any (fun r => r.bar2w) = true) :
    writeBar2 base p q v t d = writeReg w i p q v t d := by
  simp only [writeBar2, hreg, hw, if_true]

/-- The register is outside Table 20.4 (R527). -/
theorem writeBar2_outside_view (hw : w.fields.any (fun r => r.bar2w) = false) (hview : w.bar2 = false) :
    writeBar2 base p q v t d = refuseAccess d := by
  simp [writeBar2, hreg, hw, hview]

end

/-! ### REGISTER_WRITE -/

theorem becomes_registerWrite (src : RegSource) (off : BitVec 25) (p : RegPart) (v : Word) (t : Time) (s : State) :
    Becomes (.registerWrite src off p v t) s (execRegisterWrite src off.toNat p v.toNat t s.dev) :=
  becomes_of_settled rfl

theorem execRegisterWrite_misaligned {p : RegPart} {off : Nat} (h : partAligned p off = false) (src : RegSource)
    (v : Nat) (t : Time) (d : Dev) : execRegisterWrite src off p v t d = countRefused (d.advance t) := by
  simp [execRegisterWrite, h]

section
variable {p : RegPart} {off : Nat} (h : partAligned p off = true) (v : Nat) (t : Time) (d : Dev)
include h

theorem execRegisterWrite_bar0 :
    execRegisterWrite .bar0 off p v t d = writeBar0 (off / 8 * 8) p 0 v t (d.advance t) := by
  simp [execRegisterWrite, h, writerPlace]

theorem execRegisterWrite_keeper :
    execRegisterWrite .keeper off p v t d = writeBar0 (off / 8 * 8) p 2 v t (d.advance t) := by
  simp [execRegisterWrite, h, writerPlace]

theorem execRegisterWrite_bar2 :
    execRegisterWrite .bar2 off p v t d = writeBar2 (off / 8 * 8) p 1 v t (d.advance t) := by
  simp [execRegisterWrite, h, writerPlace]

theorem execRegisterWrite_drift_admitted (a : BitVec 20) (hsec : (d.advance t).is R.SEC_CTL_remote_bar2 = true) :
    execRegisterWrite (.drift a) off p v t d = writeBar2 (off / 8 * 8) p (3 + a.toNat) v t (d.advance t) := by
  simp [execRegisterWrite, h, hsec, writerPlace]

theorem execRegisterWrite_drift_refused (a : BitVec 20) (hsec : (d.advance t).is R.SEC_CTL_remote_bar2 = false) :
    execRegisterWrite (.drift a) off p v t d = refuseAccess (d.advance t) := by
  simp [execRegisterWrite, h, hsec]

end

/-! ### BAR2_REFUSED and MISALIGNED_ACCESS -/

theorem becomes_bar2Refused (off : BitVec 25) (t : Time) (s : State) :
    Becomes (.bar2Refused off t) s (execBar2Refused off.toNat t s.dev) :=
  becomes_of_settled rfl

theorem execBar2Refused_outside_view {off : Nat} {w : RegWord} {i : Nat} (hreg : regAt (off / 8 * 8) = some (w, i))
    (hview : w.bar2 = false) (t : Time) (d : Dev) : execBar2Refused off t d = refuseAccess (d.advance t) := by
  simp [execBar2Refused, hreg, hview]

theorem becomes_misalignedAccess (off : BitVec 25) (size : BitVec 8) (t : Time) (s : State) :
    Becomes (.misalignedAccess off size t) s (execMisalignedAccess off.toNat size.toNat t s.dev) :=
  becomes_of_settled rfl

theorem execMisalignedAccess_counts {off size : Nat} (h : ¬ ((size = 4 ∨ size = 8) ∧ off % size = 0)) (t : Time)
    (d : Dev) : execMisalignedAccess off size t d = countRefused (d.advance t) := if_neg h

/-! ### HALF_READ -/

theorem becomes_halfRead (q : BitVec 22) (off : BitVec 25) (s : State) :
    Becomes (.halfRead q off) s (execHalfRead q.toNat off.toNat s.dev) :=
  becomes_of_settled rfl

/-- The snapshot is the one that the requester's read of the low half at `base` took. -/
def HalfSnap.isOf (requester base : Nat) : HalfSnap → Bool := fun x =>
  decide (x.requester = requester ∧ x.offset = base)

/-- The snapshots without that one. -/
def Dev.otherSnaps (d : Dev) (requester base : Nat) : List HalfSnap :=
  d.evt.snaps.filter (fun x => !x.isOf requester base)

/-- The device with the snapshots given. -/
def Dev.withSnaps (d : Dev) (l : List HalfSnap) : Dev := { d with evt := { d.evt with snaps := l } }

/-! A read of a register that its requester's view shows, of an engine that is present, and not of TIME_CAPTURE.value,
has no effect but on the snapshots. -/

section
variable {d : Dev} {q off : Nat} {w : RegWord} {i : Nat} (hreg : regAt (off / 8 * 8) = some (w, i))
  (hpresent : d.absentReg w.word i = false) (hword : w.word ≠ 128) (hview : readsBar2 q = true → w.bar2 = true)
include hreg hpresent hword hview

theorem execHalfRead_low (hlow : off % 8 = 0) :
    execHalfRead q off d = answerHost q (d.readAt (readsBar2 q) (off / 8 * 8) % 2 ^ 32)
      (d.withSnaps (d.otherSnaps q (off / 8 * 8) ++
        [⟨q, off / 8 * 8, d.readAt (readsBar2 q) (off / 8 * 8) / 2 ^ 32⟩])) := by
  have hseen := not_and_not_right.mpr hview
  simp only [execHalfRead, hreg, hpresent, hword, hseen, hlow, if_false, if_true, Bool.false_eq_true]
  rfl

theorem execHalfRead_high_held (hhigh : off % 8 = 4) {y : HalfSnap}
    (hy : d.evt.snaps.find? (HalfSnap.isOf q (off / 8 * 8)) = some y) :
    execHalfRead q off d = answerHost q y.high (d.withSnaps (d.otherSnaps q (off / 8 * 8))) := by
  have hseen := not_and_not_right.mpr hview
  unfold HalfSnap.isOf at hy
  simp only [execHalfRead, hreg, hpresent, hword, hseen, hhigh, hy, if_false, if_true, Bool.false_eq_true]
  rfl

theorem execHalfRead_high_unheld (hhigh : off % 8 = 4)
    (hy : d.evt.snaps.find? (HalfSnap.isOf q (off / 8 * 8)) = none) :
    execHalfRead q off d = answerHost q (d.readAt (readsBar2 q) (off / 8 * 8) / 2 ^ 32)
      (d.withSnaps (d.otherSnaps q (off / 8 * 8))) := by
  have hseen := not_and_not_right.mpr hview
  unfold HalfSnap.isOf at hy
  simp only [execHalfRead, hreg, hpresent, hword, hseen, hhigh, hy, if_false, if_true, Bool.false_eq_true]
  rfl

end

/-! ### The statement -/

/-- Settles O46: each command through its own arm and the case of its function that the premises choose. -/
theorem registerCommandsComplete : Obligations.RegisterCommandsComplete := by
  intro s t off
  refine ⟨fun p v => ⟨fun hal => ⟨fun w i hreg => ⟨?bar0, ?keeper, fun hw => ?bar2, fun hview hw => ?bar2Outside⟩,
      fun a => ⟨fun hsec => ?drift, fun hsec => ?driftRefused⟩⟩, fun hmis src => ?misaligned⟩,
    fun w i hreg hview => ?bar2Refused, fun size hsize => ?misalignedAccess,
    fun q w i hreg hpresent hword hview =>
      ⟨fun hlow => ?low, fun hhigh y hy => ?highHeld, fun hhigh hy => ?highUnheld⟩⟩
  case bar0 =>
    exact (becomes_registerWrite .bar0 off p v t s).trans
      ((execRegisterWrite_bar0 hal _ _ _).trans (writeBar0_at_register hreg ..))
  case keeper =>
    exact (becomes_registerWrite .keeper off p v t s).trans
      ((execRegisterWrite_keeper hal _ _ _).trans (writeBar0_at_register hreg ..))
  case bar2 =>
    exact (becomes_registerWrite .bar2 off p v t s).trans
      ((execRegisterWrite_bar2 hal _ _ _).trans (writeBar2_writable hreg _ _ _ _ _ hw))
  case bar2Outside =>
    exact (becomes_registerWrite .bar2 off p v t s).trans
      ((execRegisterWrite_bar2 hal _ _ _).trans (writeBar2_outside_view hreg _ _ _ _ _ hw hview))
  case drift =>
    exact (becomes_registerWrite (.drift a) off p v t s).trans (execRegisterWrite_drift_admitted hal _ _ _ a hsec)
  case driftRefused =>
    exact (becomes_registerWrite (.drift a) off p v t s).trans (execRegisterWrite_drift_refused hal _ _ _ a hsec)
  case misaligned =>
    exact (becomes_registerWrite src off p v t s).trans (execRegisterWrite_misaligned hmis src _ _ _)
  case bar2Refused => exact (becomes_bar2Refused off t s).trans (execBar2Refused_outside_view hreg hview _ _)
  case misalignedAccess => exact (becomes_misalignedAccess off size t s).trans (execMisalignedAccess_counts hsize _ _)
  case low => exact (becomes_halfRead q off s).trans (execHalfRead_low hreg hpresent hword hview hlow)
  case highHeld =>
    exact (becomes_halfRead q off s).trans (execHalfRead_high_held hreg hpresent hword hview hhigh hy)
  case highUnheld =>
    exact (becomes_halfRead q off s).trans (execHalfRead_high_unheld hreg hpresent hword hview hhigh hy)

end Sys2Proof.Machine
end

section
/-! SUPPORT. The commands of the device's organisation (R17, R19, R23, R24, R28), case by case. -/

namespace Sys2Proof.Machine

/-! ### DEV_FUNC_MODE_WRITE -/

theorem becomes_devFuncModeWrite (s : State) (v : BitVec 10) :
    Becomes (.devFuncModeWrite v) s (execDevFuncModeWrite v.toNat s.dev) :=
  becomes_of_settled rfl

/-! ### MODE_CHANGE_EFFECT -/

theorem becomes_modeChangeEffect (s : State) (fn : Fin 10) :
    Becomes (.modeChangeEffect fn) s (execModeChangeEffect fn.val s.dev) :=
  becomes_of_settled rfl

@[simp] theorem regs_modeLinks (d : Dev) : (modeLinks d).regs = d.regs :=
  List.foldlRecOn (motive := fun e => e.regs = d.regs) _ _ rfl (fun e he l _ => (regs_modLink e l _).trans he)

@[simp] theorem get_modeLinks (d : Dev) (f : Fld) (i : Nat) : (modeLinks d).get f i = d.get f i := by
  simp only [Dev.get, regs_modeLinks]

/-- The device at which a function's quiet point is judged: of link training the quiet links have taken their mode. -/
def modeReady (fn : Nat) (d : Dev) : Dev := if fn = 1 then modeLinks d else d

@[simp] theorem get_modeReady (fn : Nat) (d : Dev) (f : Fld) (i : Nat) : (modeReady fn d).get f i = d.get f i := by
  unfold modeReady
  split
  · exact get_modeLinks d f i
  · rfl

/-- What a function starts to count afresh with its new mode: the servo's adjustment, the service's refills. -/
def modeRestarts (fn : Nat) (d : Dev) : Dev :=
  if fn = 2 then d.modTime (fun x => { x with adjSince := d.now })
  else if fn = 9 then modSvc (fun v => { v with refillAt := d.now, refills := 0 }) d else d

/-- No function restarts both counts, so the order in which the model asks does not matter. -/
theorem modeRestarts_eq (fn : Nat) (d : Dev) :
    (let e := if fn = 2 then d.modTime (fun x => { x with adjSince := d.now }) else d
     if fn = 9 then modSvc (fun v => { v with refillAt := e.now, refills := 0 }) e else e) = modeRestarts fn d := by
  unfold modeRestarts
  by_cases h2 : fn = 2
  · simp [h2]
  · simp only [h2, if_false]

theorem execModeChangeEffect_quiet {fn : Nat} {d : Dev}
    (hnew : flag (bit (d.get R.DEV_FUNC_MODE_ACTIVE_active) fn) ≠ d.get (modeField fn))
    (hquiet : (modeReady fn d).modeQuiet fn = true) :
    execModeChangeEffect fn d =
      (modeRestarts fn ((modeReady fn d).set R.DEV_FUNC_MODE_ACTIVE_active 0
        (setBit (d.get R.DEV_FUNC_MODE_ACTIVE_active) fn (decide (d.get (modeField fn) = 1))))).raise
        E.MODE_CHANGED none (some fn) := by
  have hgoes : ¬ (flag (bit ((modeReady fn d).get R.DEV_FUNC_MODE_ACTIVE_active) fn) =
      (modeReady fn d).get (modeField fn) ∨ ¬ (modeReady fn d).modeQuiet fn = true) := by
    simp [hnew, hquiet]
  rw [← modeRestarts_eq, ← get_modeReady fn d, ← get_modeReady fn d]
  exact if_neg hgoes

/-! ### KEEPER_ACCESS and KEEPER_RESTART_DONE -/

theorem becomes_keeperAccess (s : State) (a : Word) :
    Becomes (.keeperAccess a) s (execKeeperAccess a.toNat s.dev) :=
  becomes_of_settled rfl

theorem execKeeperAccess_barred {a : Nat} {d : Dev} (h : d.keeperBarred a = true) :
    execKeeperAccess a d = d.raise E.KEEPER_ACCESS := if_pos h

theorem execKeeperAccess_open {a : Nat} {d : Dev} (h : d.keeperBarred a = false) : execKeeperAccess a d = d :=
  if_neg (Bool.eq_false_iff.mp h)

theorem becomes_keeperRestartDone {s : State} (hup : s.dev.coreUp 1 = true) :
    Becomes .keeperRestartDone s (execKeeperRestartDone s.dev) :=
  becomes_of_estuary rfl hup

theorem execKeeperRestartDone_restarting {d : Dev} (h : d.fabric.keeperRestart = true) :
    execKeeperRestartDone d = keeperReady d := if_pos h

/-! ### ABSENT_ENGINE_ACCESS -/

theorem becomes_absentEngineAccess (s : State) (off : BitVec 25) (wr : Bool) :
    Becomes (.absentEngineAccess off wr) s (execAbsentEngineAccess off.toNat wr s.dev) :=
  becomes_of_settled rfl

section
variable {d : Dev} {off : Nat} {w : RegWord} {i : Nat} (hreg : regAt (off / 8 * 8) = some (w, i)) (wr : Bool)
include hreg

theorem execAbsentEngineAccess_cell {r c : Nat} (hcell : cellOfWord w.word i = some (r, c))
    (habsent : d.cellPresent r c = false) :
    execAbsentEngineAccess off wr d = d.raise E.ABSENT_ENGINE (some r) (some c) := by
  simp [execAbsentEngineAccess, hreg, Dev.absentReg, absentEvent, hcell, habsent]

theorem execAbsentEngineAccess_port (hcell : cellOfWord w.word i = none) (habsent : d.absentReg w.word i = true) :
    execAbsentEngineAccess off wr d = d.raise E.ABSENT_ENGINE := by
  simp [execAbsentEngineAccess, hreg, habsent, absentEvent, hcell]

end

/-! ### The statement -/

/-- Settles O10: each command through its own arm and the case of its function that the premises choose. A Keeper access
elsewhere, and the words of a port that the package lacks, follow the model's choice (notes/assumptions, entries 70
and 48). -/
theorem deviceCommandsComplete : Obligations.DeviceCommandsComplete := by
  refine ⟨becomes_devFuncModeWrite, fun s fn hnew hquiet => ?modeChange,
    fun s a => ⟨fun hbarred => ?barred, fun hopen => ?unbarred⟩, fun s hup hrestart => ?restart,
    fun s off wr w i hreg => ⟨fun r c hcell habsent => ?cell, fun hcell habsent => ?port⟩⟩
  case modeChange => exact (becomes_modeChangeEffect s fn).trans (execModeChangeEffect_quiet hnew hquiet)
  case barred => exact (becomes_keeperAccess s a).trans (execKeeperAccess_barred hbarred)
  case unbarred => exact (becomes_keeperAccess s a).trans (execKeeperAccess_open hopen)
  case restart => exact (becomes_keeperRestartDone hup).trans (execKeeperRestartDone_restarting hrestart)
  case cell => exact (becomes_absentEngineAccess s off wr).trans (execAbsentEngineAccess_cell hreg wr hcell habsent)
  case port => exact (becomes_absentEngineAccess s off wr).trans (execAbsentEngineAccess_port hreg wr hcell habsent)

end Sys2Proof.Machine
end

section
/-! SUPPORT. Patrol scrub, segment classes and harbour windows (R152, R156, R160, R164), case by case. -/

namespace Sys2Proof.Machine

/-! ### SP_PATROL_SCRUB -/

theorem becomes_spPatrolScrub {s : State} {r : Region} (hup : s.dev.coreUp (dieOf r.val) = true) (us : List Upset) :
    Becomes (.spPatrolScrub r us) s (execSpPatrolScrub r.val us s.dev) :=
  becomes_of_onDie rfl hup

/-! ### SEG_CLASS_WRITE -/

theorem becomes_segClassWrite {s : State} {r : Region} (hup : s.dev.coreUp (dieOf r.val) = true) (c : Fin 32) (v : Word) :
    Becomes (.segClassWrite r c v) s (execSegClassWrite r.val c.val v.toNat s.dev) :=
  becomes_of_onDie rfl hup

/-- The mask takes the bits of the region's segments: 64 on Headland, 32 on Estuary. -/
def classMask (r v : Nat) : Nat := if r < 8 then v % 2 ^ 64 else v % 2 ^ 32

/-- A cell whose classes go from one mask to another: each changed segment is reinitialised and forgets its load. -/
def reclassed (r old new : Nat) (x : CellSt) : CellSt :=
  { x with
    reinit := x.reinit ||| BitVec.ofNat 64 (Nat.xor old new)
    loaded := (changedSegs r old new).foldl (fun m g => tput none m g none) x.loaded }

section
variable {d : Dev} {r c : Nat} (hpresent : d.cellPresent r c = true) (v : Nat)
include hpresent

theorem execSegClassWrite_open (hst : d.get R.TIDE_STATUS_state = tsStopped) (hlock : d.admitLocked (dieOf r) = false) :
    execSegClassWrite r c v d = (d.set R.SP_SEG_CLASS_weight (cellIx r c) (classMask r v)).modCell r c
      (reclassed r (d.get R.SP_SEG_CLASS_weight (cellIx r c)) (classMask r v)) := by
  have hfree : ¬ (d.get R.TIDE_STATUS_state ≠ 0 ∨ d.admitLocked (dieOf r) = true) :=
    not_or_intro (not_not_intro hst) (Bool.eq_false_iff.mp hlock)
  exact (if_neg (not_not_intro hpresent)).trans (if_neg hfree)

theorem execSegClassWrite_locked
    (hshut : ¬ (d.get R.TIDE_STATUS_state = tsStopped ∧ d.admitLocked (dieOf r) = false)) :
    execSegClassWrite r c v d = d := by
  have hrefused : d.get R.TIDE_STATUS_state ≠ 0 ∨ d.admitLocked (dieOf r) = true :=
    (not_and_or.mp hshut).imp_right eq_true_of_ne_false
  exact (if_neg (not_not_intro hpresent)).trans (if_pos hrefused)

end

/-! ### SEG_REINIT_DONE -/

theorem becomes_segReinitDone {s : State} {r : Region} (hup : s.dev.coreUp (dieOf r.val) = true) (c : Fin 32)
    (seg : Fin 64) : Becomes (.segReinitDone r c seg) s (execSegReinitDone r.val c.val seg.val s.dev) :=
  becomes_of_onDie rfl hup

theorem execSegReinitDone_pending {d : Dev} {r c seg : Nat} (h : (d.cell r c).reinit.getLsbD seg = true) :
    execSegReinitDone r c seg d = (zeroSegment r c seg d).modCell r c (fun x =>
      { x with reinit := x.reinit &&& ~~~ (1#64 <<< seg),
               spErr := x.spErr.filter (fun e => !decide (e.1 / 8192 = seg)) }) := if_pos h

/-! ### HARBOUR_WRITE -/

theorem becomes_harbourWrite {s : State} {r : Region} (hup : s.dev.coreUp (dieOf r.val) = true) (c : Fin 32) (w : Fin 8)
    (v : Word) (bar2 : Bool) :
    Becomes (.harbourWrite r c w v bar2) s (execHarbourWrite r.val c.val w.val v.toNat s.dev) :=
  becomes_of_onDie rfl hup

/-- A write that opens a window which is empty or reaches past the cell (R160). -/
def badWindow (r v : Nat) : Bool :=
  bit v 0 && decide (bits v 32 17 = 0 ∨ (bits v 16 16 + bits v 32 17) * 64 > spSize r)

/-- The device with window `w` of a cell as a write leaves it: a bad one is closed. -/
def storeWindow (r c w v : Nat) (d : Dev) : Dev :=
  let i := cellIx r c * 8 + w
  ((((d.store R.SP_HARBOUR_open i (flag (bit v 0 && !badWindow r v))).store R.SP_HARBOUR_write_rights i
    (bits v 4 4)).store R.SP_HARBOUR_read_rights i (bits v 8 4)).store R.SP_HARBOUR_base i (bits v 16 16)).store
    R.SP_HARBOUR_size i (bits v 32 17)

section
variable {d : Dev} {r c : Nat} (hpresent : d.cellPresent r c = true) (w : Nat) {v : Nat}
include hpresent

theorem execHarbourWrite_good (hgood : badWindow r v = false) : execHarbourWrite r c w v d = storeWindow r c w v d :=
  (if_neg (not_not_intro hpresent)).trans (if_neg (Bool.eq_false_iff.mp hgood))

theorem execHarbourWrite_bad (hbad : badWindow r v = true) :
    execHarbourWrite r c w v d = (storeWindow r c w v d).raise E.HARBOUR_CONFIG (some r) (some c) :=
  (if_neg (not_not_intro hpresent)).trans (if_pos hbad)

end

/-! ### The statement -/

/-- Settles O15: each command through its own arm and the case of its function that the premises choose. -/
theorem scratchpadCommandsComplete : Obligations.ScratchpadCommandsComplete := by
  intro s r hup
  refine ⟨becomes_spPatrolScrub hup,
    fun c v hpresent => ⟨fun ⟨hst, hlock⟩ => ?classOpen, fun hshut => ?classLocked⟩, fun c seg hpending => ?reinit,
    fun c w v bar2 hpresent => ⟨fun hgood => ?windowGood, fun hbad => ?windowBad⟩⟩
  case classOpen => exact (becomes_segClassWrite hup c v).trans (execSegClassWrite_open hpresent _ hst hlock)
  case classLocked => exact (becomes_segClassWrite hup c v).trans (execSegClassWrite_locked hpresent _ hshut)
  case reinit => exact (becomes_segReinitDone hup c seg).trans (execSegReinitDone_pending hpending)
  case windowGood => exact (becomes_harbourWrite hup c w v bar2).trans (execHarbourWrite_good hpresent _ hgood)
  case windowBad => exact (becomes_harbourWrite hup c w v bar2).trans (execHarbourWrite_bad hpresent _ hbad)

end Sys2Proof.Machine
end

section
/-! SUPPORT. The Quay ports' commands (R414 to R419), case by case. -/

namespace Sys2Proof.Machine

/-! ### ARP_REQUEST and FCS_FAILED_FRAME -/

theorem becomes_arpRequest {s : State} (hup : s.dev.coreUp 1 = true) (q : Fin 2) (ip : BitVec 32) (mac : BitVec 48)
    (sender : BitVec 32) :
    Becomes (.arpRequest q ip mac sender) s (execArpRequest q.val ip mac sender s.dev) :=
  becomes_of_estuary rfl hup

theorem execArpRequest_own {d : Dev} {q : Nat} {ip : BitVec 32} (hport : d.quayUp q = true)
    (hip : ip.toNat = d.get R.QUAY_PORT_ipv4 q) (mac : BitVec 48) (sender : BitVec 32) :
    execArpRequest q ip mac sender d = sendQuay (.arp q mac sender) d := if_pos ⟨hport, hip⟩

theorem becomes_fcsFailedFrame {s : State} (hup : s.dev.coreUp 1 = true) (q : Fin 2) (kind : BadFrame) :
    Becomes (.fcsFailedFrame q kind) s (execFcsFailedFrame q.val kind s.dev) :=
  becomes_of_estuary rfl hup

section
variable {d : Dev} {q : Nat} (hport : d.quayUp q = true)
include hport

theorem execFcsFailedFrame_fcs : execFcsFailedFrame q .fcs d = d.inc C.QUAY_COUNTS_fcs_errors q :=
  if_neg (not_not_intro hport)

theorem execFcsFailedFrame_icrc : execFcsFailedFrame q .icrc d = d.inc C.QUAY_COUNTS_icrc_errors q :=
  if_neg (not_not_intro hport)

theorem execFcsFailedFrame_other : execFcsFailedFrame q .other d = d :=
  if_neg (not_not_intro hport)

end

/-! ### ROCE_READ_RESPONSE -/

theorem becomes_roceReadResponse {s : State} (hup : s.dev.coreUp 1 = true) (k : Fin 64) (psn : BitVec 24)
    (marked : Bool) (bs : List Byte) (t : Time) :
    Becomes (.roceReadResponse k psn marked bs t) s (execRoceReadResponse k.val psn marked bs t s.dev) :=
  becomes_of_estuary rfl hup

/-- The congestion notification that a marked response calls for. -/
def noteMark (marked : Bool) (k : Nat) (d : Dev) : Dev := if marked then sendCnp k d else d

/-- The number of the response that a READ expects next. -/
def QuayRead.want (r : QuayRead) : BitVec 24 := r.psn + BitVec.ofNat 24 r.got

/-! A response to a target that is READY, whose port is up, and which has a READ outstanding. -/

section
variable {d : Dev} {k : Nat} {t : Time} {marked : Bool} {r : QuayRead} {rest : List QuayRead}
  (hready : (d.advance t).get R.QUAY_TARGET_state k = qsReady)
  (hport : (d.advance t).quayUp ((d.advance t).get R.QUAY_TARGET_port k) = true)
  (hreads : ((noteMark marked k (d.advance t)).qp k).reads = r :: rest)
include hready hport hreads

theorem execRoceReadResponse_outstanding (psn : BitVec 24) (bs : List Byte) :
    execRoceReadResponse k psn marked bs t d =
      if psn = r.want then
        (if bs.length = Nat.min quayMtu (r.len - quayMtu * r.got) then
          takeResponse k r rest bs (noteMark marked k (d.advance t))
        else noteMark marked k (d.advance t))
      else if (psn - r.want).toInt > 0 ∧ ¬ ((noteMark marked k (d.advance t)).qp k).again = true then
        retryReads k (noteMark marked k (d.advance t))
      else noteMark marked k (d.advance t) := by
  have hgoes : ¬ ((d.advance t).get R.QUAY_TARGET_state k ≠ qsReady ∨
      ¬ (d.advance t).quayUp ((d.advance t).get R.QUAY_TARGET_port k) = true) :=
    not_or_intro (not_not_intro hready) (not_not_intro hport)
  unfold noteMark at hreads
  refine (if_neg hgoes).trans ?_
  simp only [hreads]
  rfl

theorem execRoceReadResponse_expected {bs : List Byte}
    (hlen : bs.length = Nat.min quayMtu (r.len - quayMtu * r.got)) {psn : BitVec 24} (hpsn : psn = r.want) :
    execRoceReadResponse k psn marked bs t d = takeResponse k r rest bs (noteMark marked k (d.advance t)) := by
  rw [execRoceReadResponse_outstanding hready hport hreads, if_pos hpsn, if_pos hlen]

theorem execRoceReadResponse_later {psn : BitVec 24} (hpsn : psn ≠ r.want) (hlater : (psn - r.want).toInt > 0)
    (hagain : ((noteMark marked k (d.advance t)).qp k).again = false) (bs : List Byte) :
    execRoceReadResponse k psn marked bs t d = retryReads k (noteMark marked k (d.advance t)) := by
  rw [execRoceReadResponse_outstanding hready hport hreads, if_neg hpsn,
    if_pos ⟨hlater, Bool.eq_false_iff.mp hagain⟩]

end

/-! ### ROCE_ACK_TIMEOUT -/

theorem becomes_roceAckTimeout {s : State} (hup : s.dev.coreUp 1 = true) (k : Fin 64) (t : Time) :
    Becomes (.roceAckTimeout k t) s (execRoceAckTimeout k.val t s.dev) :=
  becomes_of_estuary rfl hup

theorem execRoceAckTimeout_due {d : Dev} {k : Nat} {t : Time}
    (hready : (d.advance t).get R.QUAY_TARGET_state k = qsReady) (hreads : ((d.advance t).qp k).reads ≠ [])
    (hdue : tdiff t ((d.advance t).qp k).timerAt ≥ (quayTimeout : Nat)) :
    execRoceAckTimeout k t d = retryReads k (d.advance t) := if_pos ⟨hready, hreads, hdue⟩

/-! ### PFC_PAUSE -/

theorem becomes_pfcPause {s : State} (hup : s.dev.coreUp 1 = true) (q : Fin 2) (n : BitVec 3) (quanta : BitVec 16)
    (t : Time) : Becomes (.pfcPause q n quanta t) s (execPfcPause q.val n.toNat quanta.toNat t s.dev) :=
  becomes_of_estuary rfl hup

/-- The port's pause ends `quanta` from now. -/
def setPauseEnd (q quanta : Nat) (d : Dev) : Dev :=
  { d with quay := { d.quay with
    pauseEnd := tput 0 d.quay.pauseEnd q (d.now + BitVec.ofNat 64 (quanta * 2048 / 100)) } }

/-- The targets of a port issue the READs that its pause held back. -/
def issueWaiting (q : Nat) (d : Dev) : Dev :=
  ((List.range 64).filter (fun t =>
    decide (d.get R.QUAY_TARGET_port t = q ∧ (d.qp t).waiting ≠ []))).foldl (fun d t => issueReads t d) d

section
variable {d : Dev} {q n : Nat} {t : Time} (hport : (d.advance t).quayUp q = true)
  (hpcp : n = (d.advance t).get R.QUAY_PORT_pcp q)
include hport hpcp

theorem execPfcPause_own_priority (quanta : Nat) :
    execPfcPause q n quanta t d =
      let e := (setPauseEnd q quanta (d.advance t)).setB R.QUAY_PORT_paused q (decide (quanta ≠ 0))
      if quanta = 0 then issueWaiting q e else e :=
  if_neg (not_or_intro (not_not_intro hport) (not_not_intro hpcp))

theorem execPfcPause_pauses {quanta : Nat} (hquanta : quanta ≠ 0) :
    execPfcPause q n quanta t d = (setPauseEnd q quanta (d.advance t)).setB R.QUAY_PORT_paused q true := by
  rw [execPfcPause_own_priority hport hpcp, if_neg hquanta, decide_eq_true hquanta]

theorem execPfcPause_ends {quanta : Nat} (hquanta : quanta = 0) :
    execPfcPause q n quanta t d =
      issueWaiting q ((setPauseEnd q quanta (d.advance t)).setB R.QUAY_PORT_paused q false) := by
  rw [execPfcPause_own_priority hport hpcp, if_pos hquanta, decide_eq_false (not_not_intro hquanta)]

end

/-! ### QUAY_TARGET_ENABLE and QUAY_TARGET_DISABLE -/

theorem becomes_quayTargetEnable {s : State} (hup : s.dev.coreUp 1 = true) (k : Fin 64) (v : Word) (t : Time) :
    Becomes (.quayTargetEnable k v t) s (execQuayTargetEnable k.val v.toNat t s.dev) :=
  becomes_of_estuary rfl hup

/-- A target with the address and port of a write of word 0, no reads, and its first number as given, READY. -/
def readyTarget (k v : Nat) (d : Dev) : Dev :=
  let e := dropReads k (setTarget k v d)
  ((e.modQp k (fun x => { x with next := BitVec.ofNat 24 (e.get R.QUAY_TARGET_sq_psn k), cnpAt := none })).set
    R.QUAY_TARGET_enable k 1).set R.QUAY_TARGET_state k qsReady

/-- The port of a target went down in the PX cycle in progress. -/
def portJustDown (k : Nat) (d : Dev) : Prop :=
  tget none d.quay.downAt (d.get R.QUAY_TARGET_port k) = some (cycleOf d.now)

section
variable {d : Dev} {k : Nat} {t : Time} (hquay : (d.advance t).quayPresent = true)
  (hoff : (d.advance t).is R.QUAY_TARGET_enable k = false) {v : Nat}
include hquay hoff

theorem execQuayTargetEnable_ready (hdown : ¬ portJustDown k (readyTarget k v (d.advance t))) :
    execQuayTargetEnable k v t d = readyTarget k v (d.advance t) :=
  (if_neg (not_or_intro (not_not_intro hquay) (Bool.eq_false_iff.mp hoff))).trans (if_neg hdown)

theorem execQuayTargetEnable_error (hdown : portJustDown k (readyTarget k v (d.advance t))) :
    execQuayTargetEnable k v t d = targetError k (readyTarget k v (d.advance t)) :=
  (if_neg (not_or_intro (not_not_intro hquay) (Bool.eq_false_iff.mp hoff))).trans (if_pos hdown)

end

theorem becomes_quayTargetDisable {s : State} (hup : s.dev.coreUp 1 = true) (k : Fin 64) (v : Word) :
    Becomes (.quayTargetDisable k v) s (execQuayTargetDisable k.val v.toNat s.dev) :=
  becomes_of_estuary rfl hup

section
variable {d : Dev} {k : Nat} (hquay : d.quayPresent = true) (v : Nat)
include hquay

theorem execQuayTargetDisable_enabled (hon : d.is R.QUAY_TARGET_enable k = true) :
    execQuayTargetDisable k v d =
      failFetches k (dropReads k ((d.set R.QUAY_TARGET_enable k 0).set R.QUAY_TARGET_state k qsIdle)) :=
  (if_neg (not_not_intro hquay)).trans (if_pos hon)

theorem execQuayTargetDisable_disabled (hoff : d.is R.QUAY_TARGET_enable k = false) :
    execQuayTargetDisable k v d = setTarget k v d :=
  (if_neg (not_not_intro hquay)).trans (if_neg (Bool.eq_false_iff.mp hoff))

end

/-! ### QUAY_LINK_DOWN and QUAY_LINK_UP -/

theorem becomes_quayLinkDown {s : State} (hup : s.dev.coreUp 1 = true) (q : Fin 2) (t : Time) :
    Becomes (.quayLinkDown q t) s (execQuayLinkDown q.val t s.dev) :=
  becomes_of_estuary rfl hup

/-- The port is down, its pause ended, the cycle noted, counted and reported. -/
def portLost (q : Nat) (d : Dev) : Dev :=
  let c := (d.set R.QUAY_PORT_link_up q 0).set R.QUAY_PORT_paused q 0
  let c := { c with quay := { c.quay with downAt := tput none c.quay.downAt q (some (cycleOf c.now)) } }
  (c.inc C.QUAY_COUNTS_link_downs q).raise E.QUAY_LINK_DOWN none (some q)

/-- Every READY target of a port enters ERROR. -/
def failTargets (q : Nat) (d : Dev) : Dev :=
  ((List.range 64).filter (fun t =>
    decide (d.get R.QUAY_TARGET_port t = q ∧ d.get R.QUAY_TARGET_state t = qsReady))).foldl
    (fun d t => targetError t d) d

section
variable {d : Dev} {q : Nat} {t : Time} (hquay : (d.advance t).quayPresent = true)
  (hlink : (d.advance t).is R.QUAY_PORT_link_up q = true)
include hquay hlink

theorem execQuayLinkDown_without_time
    (hptp : (failTargets q (portLost q (d.advance t))).get R.TIME_PTP_state q = ptIdle) :
    execQuayLinkDown q t d = failTargets q (portLost q (d.advance t)) :=
  (if_neg (not_or_intro (not_not_intro hquay) (not_not_intro hlink))).trans (if_pos hptp)

theorem execQuayLinkDown_with_time
    (hptp : (failTargets q (portLost q (d.advance t))).get R.TIME_PTP_state q ≠ ptIdle) :
    execQuayLinkDown q t d = chooseSource false
      (((failTargets q (portLost q (d.advance t))).modPtp q (fun x => { x with gm := none })).set
        R.TIME_PTP_state q ptLost) :=
  (if_neg (not_or_intro (not_not_intro hquay) (not_not_intro hlink))).trans (if_neg hptp)

end

theorem becomes_quayLinkUp {s : State} (hup : s.dev.coreUp 1 = true) (q : Fin 2) (t : Time) :
    Becomes (.quayLinkUp q t) s (execQuayLinkUp q.val t s.dev) :=
  becomes_of_estuary rfl hup

theorem execQuayLinkUp_enabled {d : Dev} {q : Nat} {t : Time} (hquay : (d.advance t).quayPresent = true)
    (hon : (d.advance t).is R.QUAY_PORT_enable q = true) (hlink : (d.advance t).is R.QUAY_PORT_link_up q = false) :
    execQuayLinkUp q t d = ((d.advance t).set R.QUAY_PORT_link_up q 1).raise E.QUAY_LINK_UP none (some q) :=
  if_pos ⟨hquay, hon, Bool.eq_false_iff.mp hlink⟩

/-! ### The statement -/

/-- Settles O34: each command through its own arm and the case of its function that the premises choose. That a disabled
target fails its FETCHes is the model's choice (notes/assumptions, entry 72). -/
theorem quayCommandsComplete : Obligations.QuayCommandsComplete := by
  intro s t hup hquay u d hquayNow
  refine ⟨fun q ip sender mac hport hip => ?arp, fun q hport => ⟨?fcs, ?icrc, ?other⟩,
    fun k psn marked bs r rest hready hport hreads =>
      ⟨fun hpsn hlen => ?expected, fun hpsn hlater hagain => ?later⟩,
    fun k hready hreads hdue => ?timeout,
    fun q n quanta hport hpcp => ⟨fun hquanta => ?pauses, fun hquanta => ?pauseEnds⟩,
    fun k v => ⟨fun hoff => ⟨fun hdown => ?ready, fun hdown => ?error⟩, fun hon => ?disable, fun hoff => ?rewrite⟩,
    fun q => ⟨fun hlink => ⟨fun hptp => ?down, fun hptp => ?downTime⟩, fun hon hlink => ?up⟩⟩
  case arp => exact (becomes_arpRequest hup q ip mac sender).trans (execArpRequest_own hport hip mac sender)
  case fcs => exact (becomes_fcsFailedFrame hup q .fcs).trans (execFcsFailedFrame_fcs hport)
  case icrc => exact (becomes_fcsFailedFrame hup q .icrc).trans (execFcsFailedFrame_icrc hport)
  case other => exact (becomes_fcsFailedFrame hup q .other).trans (execFcsFailedFrame_other hport)
  case expected =>
    exact (becomes_roceReadResponse hup k psn marked bs t).trans
      (execRoceReadResponse_expected hready hport hreads hlen hpsn)
  case later =>
    exact (becomes_roceReadResponse hup k psn marked bs t).trans
      (execRoceReadResponse_later hready hport hreads hpsn hlater hagain bs)
  case timeout => exact (becomes_roceAckTimeout hup k t).trans (execRoceAckTimeout_due hready hreads hdue)
  case pauses => exact (becomes_pfcPause hup q n quanta t).trans (execPfcPause_pauses hport hpcp hquanta)
  case pauseEnds => exact (becomes_pfcPause hup q n quanta t).trans (execPfcPause_ends hport hpcp hquanta)
  case ready =>
    exact (becomes_quayTargetEnable hup k v t).trans (execQuayTargetEnable_ready hquayNow hoff hdown)
  case error =>
    exact (becomes_quayTargetEnable hup k v t).trans (execQuayTargetEnable_error hquayNow hoff hdown)
  case disable => exact (becomes_quayTargetDisable hup k v).trans (execQuayTargetDisable_enabled hquay _ hon)
  case rewrite => exact (becomes_quayTargetDisable hup k v).trans (execQuayTargetDisable_disabled hquay _ hoff)
  case down => exact (becomes_quayLinkDown hup q t).trans (execQuayLinkDown_without_time hquayNow hlink hptp)
  case downTime => exact (becomes_quayLinkDown hup q t).trans (execQuayLinkDown_with_time hquayNow hlink hptp)
  case up => exact (becomes_quayLinkUp hup q t).trans (execQuayLinkUp_enabled hquayNow hon hlink)

end Sys2Proof.Machine
end

section
/-! SUPPORT. Drift requests at their target (R161, R162, R182, R199, R321 to R323, R475, Table 17.8), case by case. -/

namespace Sys2Proof.Machine

theorem becomes_of_active {i : Instr} {s : State} {die : Nat} {f : Dev → Dev} (harm : exec i s = active die f s)
    (hup : s.dev.coreUp die = true) (hlive : s.dev.fatal = false) : Becomes i s (f s.dev) :=
  harm.trans (active_up hup hlive)

/-! ### Arrival -/

section
variable {p : Packet} {t : Time} {d : Dev} (hdest : p.dest.toNat = (d.advance t).get R.DEV_ADDR_address) {op : Nat}
  (hop : p.opcode.toNat = op) (f : Packet → Dev → Dev)
include hdest hop

theorem receive_wellFormed (hok : packetOk p = true) :
    receive op p f t d = drainRequests (f p (unqueue p (d.advance t))) :=
  (if_neg (not_or_intro (not_not_intro hop) (not_not_intro hdest))).trans (if_pos hok)

theorem receive_malformed (hbad : packetOk p = false) : receive op p f t d = malformed (unqueue p (d.advance t)) :=
  (if_neg (not_or_intro (not_not_intro hop) (not_not_intro hdest))).trans (if_neg (Bool.eq_false_iff.mp hbad))

theorem receiveWhenReady_waits (hok : packetOk p = true) (hwaits : (d.advance t).unitWaits p = true) :
    receiveWhenReady op p f t d = enqueueSelf p (d.advance t) := if_pos ⟨hop, hdest, hok, hwaits⟩

theorem receiveWhenReady_taken (hok : packetOk p = true) (hfree : (d.advance t).unitWaits p = false) :
    receiveWhenReady op p f t d = drainRequests (f p (unqueue p (d.advance t))) :=
  (if_neg fun ⟨_, _, _, hwaits⟩ => Bool.eq_false_iff.mp hfree hwaits).trans (receive_wellFormed hdest hop f hok)

theorem receiveWhenReady_malformed (hbad : packetOk p = false) :
    receiveWhenReady op p f t d = malformed (unqueue p (d.advance t)) :=
  (if_neg fun ⟨_, _, hok, _⟩ => Bool.eq_false_iff.mp hbad hok).trans (receive_malformed hdest hop f hbad)

end

section
variable {s : State} (hup : s.dev.coreUp 1 = true) (hlive : s.dev.fatal = false) (p : Packet) (t : Time)
include hup hlive

theorem becomes_read : Becomes (.read p t) s (execRead p t s.dev) :=
  becomes_of_active rfl hup hlive

theorem becomes_write : Becomes (.write p t) s (execWrite p t s.dev) :=
  becomes_of_active rfl hup hlive

theorem becomes_relay : Becomes (.relay p t) s (execRelay p t s.dev) :=
  becomes_of_active rfl hup hlive

theorem becomes_mgmtReq (a : Option (BitVec 7 × BitVec 32)) :
    Becomes (.mgmtReq p a t) s (execMgmtReq p (a.map (fun x => (x.1.toNat, x.2.toNat))) t s.dev) :=
  becomes_of_active rfl hup hlive

end

/-! ### READ -/

theorem afterLines_untracked {p : Packet} {n : Nat} {d : Dev} (h : d.hallLines p.addr.toNat n = []) (f : Dev → Dev) :
    afterLines p n f d = f d := by
  rw [afterLines, h]

section
variable {p : Packet} {d : Dev}

theorem takeRead_range (h : d.driftTarget p.addr.toNat (8 * p.words.toNat) = .range) :
    takeRead p d = bounce p stRange d := by
  simp only [takeRead, h]

theorem takeRead_refused (h : d.driftTarget p.addr.toNat (8 * p.words.toNat) = .refused) :
    takeRead p d = bounce p stRefused (refuseAccess d) := by
  simp only [takeRead, h]

theorem takeRead_absent (h : d.driftTarget p.addr.toNat (8 * p.words.toNat) = .absent) :
    takeRead p d = bounce p stAbsent d := by
  simp only [takeRead, h]

theorem takeRead_silent (h : d.driftTarget p.addr.toNat (8 * p.words.toNat) = .silent) : takeRead p d = d := by
  simp only [takeRead, h]

/-- A READ's access to the HBM of a die. -/
def readTarget (p : Packet) (die a : Nat) (d : Dev) : Dev × Bool :=
  hbmRead byDrift none die a (8 * p.words.toNat) (wakeFor die a (8 * p.words.toNat) d)

section
variable {die a : Nat} (h : d.driftTarget p.addr.toNat (8 * p.words.toNat) = .hbm die a)
  (hlines : d.hallLines p.addr.toNat (8 * p.words.toNat) = [])
include h hlines

theorem takeRead_hbm :
    takeRead p d =
      if (readTarget p die a d).2 then bounce p stUncorrectable (readTarget p die a d).1
      else respond p opReadResp stOk (mbytes (readTarget p die a d).1.mem (hbmKey die a) (8 * p.words.toNat))
        (readTarget p die a d).1 := by
  simp only [takeRead, h]
  exact afterLines_untracked hlines _

theorem takeRead_hbm_uncorrectable (hue : (readTarget p die a d).2 = true) :
    takeRead p d = bounce p stUncorrectable (readTarget p die a d).1 :=
  (takeRead_hbm h hlines).trans (if_pos hue)

theorem takeRead_hbm_data (hgood : (readTarget p die a d).2 = false) :
    takeRead p d = respond p opReadResp stOk
      (mbytes (readTarget p die a d).1.mem (hbmKey die a) (8 * p.words.toNat)) (readTarget p die a d).1 :=
  (takeRead_hbm h hlines).trans (if_neg (Bool.eq_false_iff.mp hgood))

end

theorem takeRead_scratchpad {r c off : Nat} (h : d.driftTarget p.addr.toNat (8 * p.words.toNat) = .sp r c off) :
    takeRead p d = spRequest p r c off (8 * p.words.toNat) d := by
  simp only [takeRead, h]

/-- The bytes that register words read by drift show, in the order of their offsets. -/
def readDriftRegs (offs : List Nat) (d : Dev) : Dev × List Byte :=
  offs.foldl (fun (acc : Dev × List Byte) o =>
    let y := readDriftReg o acc.1
    (y.1, acc.2 ++ leBytes 8 y.2)) (d, [])

theorem takeRead_registers {off : Nat} (h : d.driftTarget p.addr.toNat (8 * p.words.toNat) = .regs off) :
    takeRead p d = respond p opReadResp stOk (readDriftRegs (regOffsets off (8 * p.words.toNat)) d).2
      (readDriftRegs (regOffsets off (8 * p.words.toNat)) d).1 := by
  simp only [takeRead, h]
  rfl

/-! ### WRITE -/

theorem takeWrite_range (h : d.driftTarget p.addr.toNat p.data.length = .range) :
    takeWrite p d = bounce p stRange d := by
  simp only [takeWrite, h]

theorem takeWrite_refused (h : d.driftTarget p.addr.toNat p.data.length = .refused) :
    takeWrite p d = bounce p stRefused (refuseAccess d) := by
  simp only [takeWrite, h]

theorem takeWrite_absent (h : d.driftTarget p.addr.toNat p.data.length = .absent) :
    takeWrite p d = bounce p stAbsent d := by
  simp only [takeWrite, h]

theorem takeWrite_silent (h : d.driftTarget p.addr.toNat p.data.length = .silent) : takeWrite p d = d := by
  simp only [takeWrite, h]

theorem takeWrite_hbm {die a : Nat} (h : d.driftTarget p.addr.toNat p.data.length = .hbm die a)
    (hlines : d.hallLines p.addr.toNat p.data.length = []) :
    takeWrite p d = respond p opWriteAck stOk [] (hbmWrite die a p.data (wakeFor die a p.data.length d)) := by
  simp only [takeWrite, h]
  exact afterLines_untracked hlines _

theorem takeWrite_scratchpad {r c off : Nat} (h : d.driftTarget p.addr.toNat p.data.length = .sp r c off) :
    takeWrite p d = spRequest p r c off p.data.length d := by
  simp only [takeWrite, h]

/-- The words of a WRITE written to the register view of drift, as its source writes them. -/
def writeDriftRegs (p : Packet) (off : Nat) (d : Dev) : Dev :=
  (List.range (p.data.length / 8)).foldl (fun d k =>
    writeBar2 (off + 8 * k) .full (3 + p.src.toNat) (leNat ((p.data.drop (8 * k)).take 8)) d.now d) d

section
variable {off : Nat} (h : d.driftTarget p.addr.toNat p.data.length = .regs off)
include h

theorem takeWrite_registers_closed (hsec : d.is R.SEC_CTL_remote_bar2 = false) :
    takeWrite p d = bounce p stRefused (refuseAccess d) := by
  simp [takeWrite, h, hsec]

theorem takeWrite_registers_misaligned (hsec : d.is R.SEC_CTL_remote_bar2 = true) (hoff : off % 8 ≠ 0) :
    takeWrite p d = respond p opWriteAck stOk [] (countRefused d) := by
  simp [takeWrite, h, hsec, hoff]

theorem takeWrite_registers (hsec : d.is R.SEC_CTL_remote_bar2 = true) (hoff : off % 8 = 0) :
    takeWrite p d = respond p opWriteAck stOk [] (writeDriftRegs p off d) := by
  simp only [takeWrite, h, hsec, hoff, not_true_eq_false, if_false, ne_eq]
  rfl

end

/-! ### RELAY -/

/-- The RECV run `i`, which is `r`, takes a packet's bytes. -/
def joinRun (i : Nat) (r : FerryRun) (p : Packet) (d : Dev) : Dev :=
  { d with ferry := { d.ferry with runs := tput none d.ferry.runs i (some { r with rx := r.rx ++ p.data }) } }

theorem takeRelay_awaited {i : Nat} {r : FerryRun} (hrecv : d.recvRun p = some i) (hrun : d.run i = some r)
    (hpower : d.powerState ≠ psPark) : takeRelay p d = respond p opWriteAck stOk [] (joinRun i r p d) := by
  simp only [takeRelay, hrecv, if_neg hpower, hrun]
  rfl

theorem takeRelay_unawaited (hrecv : d.recvRun p = none) : takeRelay p d = bounce p stRefused d := by
  simp only [takeRelay, hrecv]

/-! ### MGMT_REQ -/

theorem takeMgmt_restarting (h : d.fabric.keeperRestart = true) (q : Option (Nat × Nat)) :
    takeMgmt p q d = { d with fabric := { d.fabric with mgmt := d.fabric.mgmt ++ [(p, q)] } } := if_pos h

theorem takeMgmt_ready (h : d.fabric.keeperRestart = false) (q : Option (Nat × Nat)) :
    takeMgmt p q d = keeperAnswer p q d := if_neg (Bool.eq_false_iff.mp h)

end

/-! ### The statement, opcode by opcode -/

section
variable {s : State} {p : Packet} {t : Time} (hup : s.dev.coreUp 1 = true) (hlive : s.dev.fatal = false)
  (hdest : p.dest.toNat = (s.dev.advance t).get R.DEV_ADDR_address) (hok : packetOk p = true)
include hup hlive hdest hok

section
variable (hfree : (s.dev.advance t).unitWaits p = false)
include hfree

/-- A READ that its target unit takes at once becomes what the unit makes of it. -/
theorem becomes_read_taken (hop : p.opcode.toNat = opRead) {e : Dev}
    (htaken : takeRead p (unqueue p (s.dev.advance t)) = e) : Becomes (.read p t) s (drainRequests e) :=
  htaken ▸ (becomes_read hup hlive p t).trans (receiveWhenReady_taken hdest hop takeRead hok hfree)

/-- A WRITE that its target unit takes at once becomes what the unit makes of it. -/
theorem becomes_write_taken (hop : p.opcode.toNat = opWrite) {e : Dev}
    (htaken : takeWrite p (unqueue p (s.dev.advance t)) = e) : Becomes (.write p t) s (drainRequests e) :=
  htaken ▸ (becomes_write hup hlive p t).trans (receiveWhenReady_taken hdest hop takeWrite hok hfree)

/-- A RELAY that the Ferry takes at once becomes what the Ferry makes of it. -/
theorem becomes_relay_taken (hop : p.opcode.toNat = opRelay) {e : Dev}
    (htaken : takeRelay p (unqueue p (s.dev.advance t)) = e) : Becomes (.relay p t) s (drainRequests e) :=
  htaken ▸ (becomes_relay hup hlive p t).trans (receiveWhenReady_taken hdest hop takeRelay hok hfree)

end

/-- A MGMT_REQ becomes what the Keeper makes of it. -/
theorem becomes_mgmtReq_taken (hop : p.opcode.toNat = opMgmtReq) (a : Option (BitVec 7 × BitVec 32)) {e : Dev}
    (htaken : takeMgmt p (a.map (fun x => (x.1.toNat, x.2.toNat))) (unqueue p (s.dev.advance t)) = e) :
    Becomes (.mgmtReq p a t) s (drainRequests e) :=
  htaken ▸ (becomes_mgmtReq hup hlive p t a).trans (receive_wellFormed hdest hop _ hok)

end

/-- Settles O27: a malformed packet, a packet that waits, and a packet that its target unit takes, by the place that its
address names. That a RELAY is matched by its byte place to the running RECV, and acknowledged by WRITE_ACK, is the
model's choice (notes/assumptions, entries 52 and 51). -/
theorem driftRequestsAnswered : Obligations.DriftRequestsAnswered := by
  intro s p t hup hlive e d hdest
  refine ⟨fun hbad => ⟨fun hop => ?badRead, fun hop => ?badWrite, fun hop => ?badRelay, fun hop a => ?badMgmt⟩,
    fun hok hwaits => ⟨fun hop => ?waitRead, fun hop => ?waitWrite, fun hop => ?waitRelay⟩,
    fun hok hfree => ⟨fun hop => ?read, fun hop => ?write, fun hop => ?relay⟩,
    fun hok hop a => ⟨fun hrestart => ?mgmtWaits, fun hready => ?mgmt⟩⟩
  case badRead => exact (becomes_read hup hlive p t).trans (receiveWhenReady_malformed hdest hop _ hbad)
  case badWrite => exact (becomes_write hup hlive p t).trans (receiveWhenReady_malformed hdest hop _ hbad)
  case badRelay => exact (becomes_relay hup hlive p t).trans (receiveWhenReady_malformed hdest hop _ hbad)
  case badMgmt => exact (becomes_mgmtReq hup hlive p t a).trans (receive_malformed hdest hop _ hbad)
  case waitRead => exact (becomes_read hup hlive p t).trans (receiveWhenReady_waits hdest hop _ hok hwaits)
  case waitWrite => exact (becomes_write hup hlive p t).trans (receiveWhenReady_waits hdest hop _ hok hwaits)
  case waitRelay => exact (becomes_relay hup hlive p t).trans (receiveWhenReady_waits hdest hop _ hok hwaits)
  case read =>
    have hread {x : Dev} : takeRead p d = x → Becomes (.read p t) s (drainRequests x) :=
      becomes_read_taken hup hlive hdest hok hfree hop
    exact ⟨fun h => hread (takeRead_range h), fun h => hread (takeRead_refused h), fun h => hread (takeRead_absent h),
      fun h => hread (takeRead_silent h),
      fun die a h hlines => ⟨fun hue => hread (takeRead_hbm_uncorrectable h hlines hue),
        fun hgood => hread (takeRead_hbm_data h hlines hgood)⟩,
      fun r c off h => hread (takeRead_scratchpad h), fun off h => hread (takeRead_registers h)⟩
  case write =>
    have hwrite {x : Dev} : takeWrite p d = x → Becomes (.write p t) s (drainRequests x) :=
      becomes_write_taken hup hlive hdest hok hfree hop
    exact ⟨fun h => hwrite (takeWrite_range h), fun h => hwrite (takeWrite_refused h),
      fun h => hwrite (takeWrite_absent h), fun h => hwrite (takeWrite_silent h),
      fun die a h hlines => hwrite (takeWrite_hbm h hlines), fun r c off h => hwrite (takeWrite_scratchpad h),
      fun off h => ⟨fun hsec => hwrite (takeWrite_registers_closed h hsec),
        fun hsec hoff => hwrite (takeWrite_registers_misaligned h hsec hoff),
        fun hsec hoff => hwrite (takeWrite_registers h hsec hoff)⟩⟩
  case relay =>
    have hrelay {x : Dev} : takeRelay p d = x → Becomes (.relay p t) s (drainRequests x) :=
      becomes_relay_taken hup hlive hdest hok hfree hop
    exact ⟨fun i r hrecv hrun hpower => hrelay (takeRelay_awaited hrecv hrun hpower),
      fun hrecv => hrelay (takeRelay_unawaited hrecv)⟩
  case mgmtWaits => exact becomes_mgmtReq_taken hup hlive hdest hok hop a (takeMgmt_restarting hrestart _)
  case mgmt => exact becomes_mgmtReq_taken hup hlive hdest hok hop a (takeMgmt_ready hready _)

end Sys2Proof.Machine
end

section
/-! SUPPORT. The tide unit's occasions (R30, R34, R36, R38, R45, R48 to R50, R55, R56, R303), case by case. -/

namespace Sys2Proof.Machine

/-! ### Regions as time goes on, and as they change -/

@[simp] theorem regions_advance (d : Dev) (t : Time) : (d.advance t).regions = d.regions := by
  unfold Dev.advance
  split
  · rfl
  · rfl

@[simp] theorem reg_advance (d : Dev) (t : Time) (r : Nat) : (d.advance t).reg r = d.reg r := by
  rw [Dev.reg, regions_advance, Dev.reg]

/-- A canonical table of regions reads a region as it was changed. -/
theorem reg_modReg_same {d : Dev} (hwf : tableWf ({} : RegionSt) d.regions = true) (r : Nat)
    (f : RegionSt → RegionSt) : (d.modReg r f).reg r = f (d.reg r) :=
  tget_tput_same r hwf

/-! ### The occasions of the tide unit -/

section
variable {s : State} (hup : s.dev.coreUp 1 = true) (hlive : s.dev.fatal = false) (t : Time)
include hup hlive

theorem becomes_tideMark : Becomes (.tideMark t) s (execTideMark t s.dev) := becomes_of_active rfl hup hlive

theorem becomes_tideStart : Becomes (.tideStart t) s (execTideStart t s.dev) := becomes_of_active rfl hup hlive

theorem becomes_armedStart : Becomes (.armedStart t) s (execArmedStart t s.dev) := becomes_of_active rfl hup hlive

theorem becomes_tideEnd : Becomes (.tideEnd t) s (execTideEnd t s.dev) := becomes_of_active rfl hup hlive

theorem becomes_tideDeadlineExpiry : Becomes (.tideDeadlineExpiry t) s (execTideDeadlineExpiry t s.dev) :=
  becomes_of_active rfl hup hlive

end

/-! ### TIDE_MARK -/

/-- The mark of tide `n` is counted while no plan runs or has run (R30). -/
def countMark (n : Nat) (d : Dev) : Dev :=
  if d.get R.TIDE_STATUS_state = tsStopped ∨ d.get R.TIDE_STATUS_state = tsArmed then d.set R.TIDE_NUMBER_tide 0 n
  else d

/-- Every link that is up owes a CREDIT_SYNC flit (R303). -/
def askCreditSync (d : Dev) : Dev :=
  ((List.range 6).filter (fun l => d.linkUp l)).foldl (fun d l => d.modLink l (fun x => { x with syncDue := true })) d

theorem execTideMark_at_mark {d : Dev} {t : Time} {n : Nat} (hmark : (d.advance t).markAt t = some n) :
    execTideMark t d = markServing t (askCreditSync (countMark n (d.advance t))) := by
  simp only [execTideMark, hmark]
  rfl

/-! ### TIDE_START and ARMED_START -/

/-- start(k+1) of the tide in progress, where that tide ended at `e` (R36). -/
def Dev.startAfter (d : Dev) (e : Time) : Time := laterOf (d.markOf (d.get R.TIDE_NUMBER_tide + 1)) e

theorem nextStart_of_ended {d : Dev} {e : Time} (hended : d.tide.ended = some e) :
    d.nextStart = some (d.startAfter e) := by
  rw [Dev.nextStart, hended]
  rfl

theorem execTideStart_due {d : Dev} {t e : Time} (hended : (d.advance t).tide.ended = some e)
    (hrunning : (d.advance t).get R.TIDE_STATUS_state = tsRunning) (hboundary : (d.advance t).svc.due = none)
    (hcome : tdiff t ((d.advance t).startAfter e) ≥ 0) :
    execTideStart t d =
      startTide ((d.advance t).get R.TIDE_NUMBER_tide + 1) ((d.advance t).startAfter e) (d.advance t) := by
  simp only [execTideStart, nextStart_of_ended hended]
  exact if_pos ⟨hrunning, hboundary, hcome⟩

/-- The launch tide. -/
def Dev.launchTide (d : Dev) : Nat := d.get R.TIDE_LAUNCH_launch_tide

theorem execArmedStart_due {d : Dev} {t : Time} (harmed : (d.advance t).get R.TIDE_STATUS_state = tsArmed)
    (hquiesce : (d.advance t).tide.quiesce = false)
    (hcome : tdiff t ((d.advance t).markOf (d.advance t).launchTide) ≥ 0) :
    execArmedStart t d =
      startRunning (d.advance t).launchTide ((d.advance t).markOf (d.advance t).launchTide) (d.advance t) :=
  if_pos ⟨harmed, Bool.eq_false_iff.mp hquiesce, hcome⟩

/-! ### TIDE_END and TIDE_DEADLINE_EXPIRY -/

theorem execTideEnd_ends {d : Dev} {t : Time} (hends : (d.advance t).tideEnds = true)
    (hgood : (endTide t (d.advance t)).get R.TIDE_STATUS_state ≠ tsFaulted) :
    execTideEnd t d = noteStepEnd ((d.advance t).get R.TIDE_NUMBER_tide) t (endTide t (d.advance t)) :=
  (if_neg (not_not_intro hends)).trans (if_neg hgood)

theorem deadlineOpen_iff {d : Dev} :
    d.deadlineOpen = true ↔
      d.get R.TIDE_STATUS_state = tsRunning ∧ d.tide.ended = none ∧ d.is R.TIDE_STATUS_deferred = false := by
  simp [Dev.deadlineOpen, and_assoc]

theorem execTideDeadlineExpiry_open {d : Dev} {t : Time} (hopen : (d.advance t).deadlineOpen = true)
    (hpast : tdiff t (d.advance t).tide.startTime ≥ ((d.advance t).get R.TIDE_PERIOD_period : Nat)) :
    execTideDeadlineExpiry t d = missDeadline (d.advance t) :=
  (if_neg (Int.not_lt.mpr hpast)).trans (if_pos hopen)

theorem missDeadline_fault {d : Dev} (h : d.tide.policy = 0) : missDeadline d = d.raise E.TIDE_OVERRUN := if_pos h

theorem missDeadline_defer {d : Dev} (h : d.tide.policy ≠ 0) :
    missDeadline d = ((d.set R.TIDE_STATUS_deferred 0 1).inc C.TIDE_COUNTS_overruns).raise E.TIDE_DEFERRED := if_neg h

/-! ### The occasions of a region -/

section
variable {s : State} {r : Region} (hup : s.dev.coreUp (dieOf r.val) = true) (hlive : s.dev.fatal = false)
include hup hlive

theorem becomes_holdLimitExpiry (t : Time) :
    Becomes (.holdLimitExpiry r t) s (execHoldLimitExpiry r.val t s.dev) := becomes_of_active rfl hup hlive

theorem becomes_landingGraceExpiry (t : Time) :
    Becomes (.landingGraceExpiry r t) s (execLandingGraceExpiry r.val t s.dev) := becomes_of_active rfl hup hlive

theorem becomes_crossingArrival (ch : Fin 8) :
    Becomes (.crossingArrival r ch) s (execCrossingArrival r.val ch.val s.dev) := becomes_of_active rfl hup hlive

theorem becomes_regionWake (t : Time) : Becomes (.regionWake r t) s (wakeRegion r.val t s.dev) :=
  becomes_of_active rfl hup hlive

end

/-! ### HOLD_LIMIT_EXPIRY and LANDING_GRACE_EXPIRY -/

/-- A hold in progress is the one that is judged. -/
theorem judgedHold_of_hold {d : Dev} {r : Nat} {h : Hold} (hh : (d.reg r).hold = some h) : d.judgedHold r = some h := by
  rw [Dev.judgedHold, hh]
  rfl

section
variable {d : Dev} {r : Nat} {t : Time} {h : Hold} (hh : ((d.advance t).reg r).hold = some h)
include hh

theorem execHoldLimitExpiry_over (hover : tdiff t h.since > ((d.advance t).get R.TIDE_HOLD_LIMIT_limit : Nat)) :
    execHoldLimitExpiry r t d = (d.advance t).raise E.HOLD_LIMIT (some r) := by
  simp only [execHoldLimitExpiry, judgedHold_of_hold hh]
  exact if_pos hover

theorem execLandingGraceExpiry_spent (hspent : h.landTicks ≥ (d.advance t).tide.grace) :
    execLandingGraceExpiry r t d =
      (h.lands.filter ((d.advance t).landOpen r)).foldl (fun d id => missNow r id d) (d.advance t) := by
  simp only [execLandingGraceExpiry, judgedHold_of_hold hh]
  exact if_pos hspent

end

/-! ### CROSSING_ARRIVAL -/

theorem execCrossingArrival_within_die {d : Dev} {r ch : Nat} {f : CrossFly} {rest : List CrossFly}
    (hflying : (d.chan r ch).flying = f :: rest) (hist : f.ist = false) :
    execCrossingArrival r ch d = d.modChan r ch (fun c => { c with flying := rest, fifo := c.fifo ++ [f.data] }) := by
  simp only [execCrossingArrival, hflying]
  exact if_neg (Bool.eq_false_iff.mp hist)

/-! ### REGION_WAKE -/

/-- The start for which a region wakes: the plan's, or the next tide's (R34). -/
def Dev.wakeStart (d : Dev) : Time :=
  if d.get R.TIDE_STATUS_state = tsArmed then d.markOf d.launchTide else d.markOf (d.get R.TIDE_NUMBER_tide + 1)

/-- The conditions on which a region enters WAKE at time `t` (R34). -/
structure Dev.Wakes (d : Dev) (r : Nat) (t : Time) : Prop where
  planned : d.get R.TIDE_STATUS_state = tsArmed ∨ d.get R.TIDE_STATUS_state = tsRunning
  used : r ∈ d.usedRegions
  lead : tdiff t d.wakeStart ≥ -((d.tide.wakeLead * nsU : Nat) : Int)
  asleep : (d.reg r).phase = .dark ∨ (d.reg r).phase = .done
  unstarted : (d.reg r).started = false

/-- The region in WAKE, its clock's edges from `t` on. -/
def enterWake (r : Nat) (t : Time) (d : Dev) : Dev := d.modReg r (fun u => { u with phase := .wake, edge := t })

theorem execRegionWake_wakes {d : Dev} {r : Nat} {t : Time} (h : (d.advance t).Wakes r t) :
    execRegionWake r t d = enterWake r t (d.advance t) :=
  if_pos ⟨h.planned, h.used, h.lead, h.asleep, Bool.eq_false_iff.mp h.unstarted⟩

theorem phase_enterWake {d : Dev} (hwf : tableWf ({} : RegionSt) d.regions = true) (r : Nat) (t : Time) :
    ((enterWake r t d).reg r).phase = .wake := by
  rw [enterWake, reg_modReg_same hwf]

/-- The region was not in WAKE, so the wake takes its gating over (R434). -/
theorem wakeRegion_wakes {d : Dev} {r : Nat} {t : Time} (hwf : tableWf ({} : RegionSt) d.regions = true)
    (h : (d.advance t).Wakes r t) : wakeRegion r t d = clearGates r (enterWake r t (d.advance t)) := by
  have hnow : ((enterWake r t (d.advance t)).reg r).phase = .wake :=
    phase_enterWake ((regions_advance d t).symm ▸ hwf) r t
  have hbefore : (d.reg r).phase ≠ .wake := by
    rw [← reg_advance d t]
    rcases h.asleep with hdark | hdone
    · exact ne_of_eq_of_ne hdark nofun
    · exact ne_of_eq_of_ne hdone nofun
  rw [wakeRegion, execRegionWake_wakes h]
  exact if_pos ⟨hnow, hbefore⟩

/-! ### The statement -/

/-- Settles O12: each occasion through its own arm and the case of its function that the premises choose. -/
theorem tideOccasionsComplete : Obligations.TideOccasionsComplete := by
  intro s t hlive
  refine ⟨fun hup => ⟨fun n hmark => ?mark, fun e hended hrunning hboundary hcome => ?start,
      fun harmed hquiesce hcome => ?armed, fun hends hgood => ?finish,
      fun hrunning hended hdeferred hpast => ?deadline⟩,
    fun r hup => ⟨fun h hh hover => ?limit, fun h hh hspent => ?grace, fun ch f rest hflying hist => ?crossing,
      fun hwf hused hlead hplanned hasleep hunstarted => ?wake⟩⟩
  case mark => exact (becomes_tideMark hup hlive t).trans (execTideMark_at_mark hmark)
  case start =>
    exact (becomes_tideStart hup hlive t).trans (execTideStart_due hended hrunning hboundary hcome)
  case armed => exact (becomes_armedStart hup hlive t).trans (execArmedStart_due harmed hquiesce hcome)
  case finish => exact (becomes_tideEnd hup hlive t).trans (execTideEnd_ends hends hgood)
  case deadline =>
    have hmissed : Becomes (.tideDeadlineExpiry t) s (missDeadline (s.dev.advance t)) :=
      (becomes_tideDeadlineExpiry hup hlive t).trans
        (execTideDeadlineExpiry_open (deadlineOpen_iff.mpr ⟨hrunning, hended, hdeferred⟩) hpast)
    exact ⟨fun hfault => hmissed.trans (missDeadline_fault hfault),
      fun hdefer => hmissed.trans (missDeadline_defer hdefer)⟩
  case limit => exact (becomes_holdLimitExpiry hup hlive t).trans (execHoldLimitExpiry_over hh hover)
  case grace => exact (becomes_landingGraceExpiry hup hlive t).trans (execLandingGraceExpiry_spent hh hspent)
  case crossing => exact (becomes_crossingArrival hup hlive ch).trans (execCrossingArrival_within_die hflying hist)
  case wake =>
    exact (becomes_regionWake hup hlive t).trans
      (wakeRegion_wakes hwf ⟨hplanned, hused, hlead, hasleep, hunstarted⟩)

end Sys2Proof.Machine
end

section
/-! SUPPORT. The periods of a region (R35, R39, R40, R69, R92, R145, R146), case by case. -/

namespace Sys2Proof.Machine

section
variable {s : State} {r : Region} (hup : s.dev.coreUp (dieOf r.val) = true) (hlive : s.dev.fatal = false) (t : Time)
include hup hlive

theorem becomes_planTick (us : List Upset) : Becomes (.planTick r t us) s (execPlanTick r.val t us s.dev) :=
  becomes_of_active rfl hup hlive

theorem becomes_holdTick (us : List Upset) : Becomes (.holdTick r t us) s (execHoldTick r.val t us s.dev) :=
  becomes_of_active rfl hup hlive

theorem becomes_slipPeriod : Becomes (.slipPeriod r t) s (execSlipPeriod r.val t s.dev) :=
  becomes_of_active rfl hup hlive

end

/-! ### What a period with a tick to execute makes of the region -/

theorem issueWord_unheld {r : Nat} {w : CWord} {d : Dev} (h : (countLate r d).holdOf r w = none) (units : Nat)
    (first : Bool) (since : Time) :
    issueWord r w units first since d = wordTick r w units first (resume r (countLate r d)) := by
  simp only [issueWord, h]

/-- A hold that is not a landing's has no grace to run out. -/
theorem issueWord_held {r : Nat} {w : CWord} {d : Dev} {k : HoldKind} (h : (countLate r d).holdOf r w = some k)
    (hk : ∀ id, k ≠ .landing id) (units : Nat) (first : Bool) (since : Time) :
    issueWord r w units first since d = holdRegion r k [] since (countLate r d) := by
  simp only [issueWord, h]

section
variable {r : Nat} {d : Dev} (since : Time)

theorem regionPeriod_ended (hend : d.is R.SEQ_STATUS_ended r = true) : regionPeriod r since d = idleTick r d :=
  if_pos hend

variable {w : CWord} {n : Nat} (hend : d.is R.SEQ_STATUS_ended r = false) (hfetch : d.fetch r = .word w n)
include hend hfetch

theorem regionPeriod_word : regionPeriod r since d = issueWord r w n (d.reg r).repLeft.isNone since d := by
  simp [regionPeriod, hend, hfetch]

theorem regionPeriod_unheld (h : (countLate r d).holdOf r w = none) :
    regionPeriod r since d = wordTick r w n (d.reg r).repLeft.isNone (resume r (countLate r d)) :=
  (regionPeriod_word since hend hfetch).trans (issueWord_unheld h ..)

theorem regionPeriod_held {k : HoldKind} (h : (countLate r d).holdOf r w = some k) (hk : ∀ id, k ≠ .landing id) :
    regionPeriod r since d = holdRegion r k [] since (countLate r d) :=
  (regionPeriod_word since hend hfetch).trans (issueWord_held h hk ..)

end

/-! ### PLAN_TICK and HOLD_TICK -/

/-- The region once a period has been spent in it: a slip that its tick costs begins, and the tide's last tick marks. -/
def closePeriod (r : Nat) (now : Time) (d : Dev) : Dev := finishTide r (enterSlip r now d)

/-- The time at which the period in progress began, and the region at its new edge, the upsets met. -/
def periodEdge (r : Nat) (us : List Upset) (d : Dev) : Time × Dev := newEdge r (takeUpsets r us d)

/-- The region in RUN. -/
def enterRun (r : Nat) (d : Dev) : Dev := d.modReg r (fun u => { u with phase := .run })

theorem execPlanTick_runs {d : Dev} {r : Nat} {t : Time} (hrun : (d.advance t).running r = true)
    (hslip : ((d.advance t).reg r).slip = none) (hleft : ((d.advance t).reg r).tideTick < (d.advance t).plan.ticks)
    (us : List Upset) :
    execPlanTick r t us d =
      closePeriod r (enterRun r (periodEdge r us (d.advance t)).2).now
        (regionPeriod r (periodEdge r us (d.advance t)).1 (enterRun r (periodEdge r us (d.advance t)).2)) :=
  if_pos ⟨hrun, hslip, hleft⟩

theorem execHoldTick_held {d : Dev} {r : Nat} {t : Time} {h : Hold} (hh : ((d.advance t).reg r).hold = some h)
    (hkind : h.kind ≠ .slip) (us : List Upset) :
    execHoldTick r t us d =
      closePeriod r (periodEdge r us (d.advance t)).2.now
        (regionPeriod r (periodEdge r us (d.advance t)).1 (periodEdge r us (d.advance t)).2) := by
  simp only [execHoldTick, hh]
  exact if_neg hkind

/-! ### SLIP_PERIOD -/

/-- The region after one more period in HOLD. -/
def slipEdge (r : Nat) (d : Dev) : Dev := holdPeriod r (newEdge r d).2

section
variable {d : Dev} {r : Nat} {t : Time} {x : Slip} (hslip : ((d.advance t).reg r).slip = some x)
  (hrecorded : x.recorded = true)
include hslip hrecorded

theorem execSlipPeriod_more (hleft : x.left > 1) :
    execSlipPeriod r t d = (slipEdge r (d.advance t)).modReg r (fun u =>
      { u with slip := some { x with left := x.left - 1, recorded := true } }) := by
  simp only [execSlipPeriod, hslip, hrecorded, if_true, if_neg (Nat.not_le.mpr hleft)]
  rfl

theorem execSlipPeriod_last (hleft : x.left ≤ 1) :
    execSlipPeriod r t d =
      finishTide r (endHold r ((slipEdge r (d.advance t)).modReg r (fun u => { u with slip := none }))) := by
  simp only [execSlipPeriod, hslip, hrecorded, if_true, if_pos hleft]
  rfl

end

/-! ### The statement -/

/-- Settles O13: each period through its own arm, by what the region has to execute: no word once the plan has ended, a
word that must wait, or one that need not. -/
theorem regionPeriodsComplete : Obligations.RegionPeriodsComplete := by
  intro s r t us hlive hup d struck since e' e b' b
  refine ⟨fun hrun hslip hleft => ?planTick, fun h hh hkind hend w n hfetch => ?holdTick,
    fun x hslip hrecorded => ⟨fun hleft => ?more, fun hleft => ?last⟩⟩
  case planTick =>
    have htick : Becomes (.planTick r t us) s (closePeriod r.val b'.now (regionPeriod r.val since b')) :=
      (becomes_planTick hup hlive t us).trans (execPlanTick_runs hrun hslip hleft us)
    exact ⟨fun hend => htick.trans (congrArg _ (regionPeriod_ended since hend)), fun hend w n hfetch =>
      ⟨fun hfree => htick.trans (congrArg _ (regionPeriod_unheld since hend hfetch hfree)),
        fun hheld => htick.trans (congrArg _ (regionPeriod_held since hend hfetch hheld nofun))⟩⟩
  case holdTick =>
    have htick : Becomes (.holdTick r t us) s (closePeriod r.val e'.now (regionPeriod r.val since e')) :=
      (becomes_holdTick hup hlive t us).trans (execHoldTick_held hh hkind us)
    exact ⟨fun hfree => htick.trans (congrArg _ (regionPeriod_unheld since hend hfetch hfree)),
      fun hheld => htick.trans (congrArg _ (regionPeriod_held since hend hfetch hheld nofun))⟩
  case more => exact (becomes_slipPeriod hup hlive t).trans (execSlipPeriod_more hslip hrecorded hleft)
  case last => exact (becomes_slipPeriod hup hlive t).trans (execSlipPeriod_last hslip hrecorded hleft)

end Sys2Proof.Machine
end

section
/-! SUPPORT. Admission and the launch of a plan (R63, R379, R382 to R387, R400), case by case. -/

namespace Sys2Proof.Machine

/-! ### ADMIT, ADMIT_COMPLETE and ADMIT_RELEASE -/

section
variable {s : State} (hup : s.dev.coreUp 1 = true)
include hup

theorem becomes_admitPlan (t : Time) : Becomes (.admitPlan t) s (execAdmit t s.dev) := becomes_of_estuary rfl hup

theorem becomes_admitComplete (n : BitVec 5) (t : Time) :
    Becomes (.admitComplete n t) s (finishAdmission n.toNat t s.dev) := becomes_of_estuary rfl hup

theorem becomes_admitRelease : Becomes .admitRelease s (releaseAdmission s.dev) := becomes_of_estuary rfl hup

end

/-- STOPPED or FAULTED: an admission may start, and a plan may be released. -/
def Dev.still (d : Dev) : Prop :=
  d.get R.TIDE_STATUS_state = tsStopped ∨ d.get R.TIDE_STATUS_state = tsFaulted

theorem execAdmit_still {d : Dev} {t : Time} (hstill : (d.advance t).still)
    (hload : (d.advance t).get R.DEV_ADMIT_STATUS_state ≠ asLoading) :
    execAdmit t d = (d.advance t).set R.DEV_ADMIT_STATUS_state 0 asLoading := if_pos ⟨hstill, hload⟩

/-- The image at `image` is admitted, or not, under the map of DEV_ADMIT_MAP; then the records that waited are taken. -/
def admitImage (image isthmus : Nat) (d : Dev) : Dev :=
  takeHeld (admitPlan image (d.get R.DEV_ADMIT_MAP_map) isthmus d)

section
variable {d : Dev} {t : Time} (hload : (d.advance t).get R.DEV_ADMIT_STATUS_state = asLoading)
  (hreinit : (d.advance t).reinitPending = false) (n : Nat)
include hload hreinit

theorem finishAdmission_serving {image : Nat} (himage : (d.advance t).svc.loading = some image) :
    finishAdmission n t d = afterAdmission (svcAdmitted (admitImage image n (d.advance t))) := by
  simp only [finishAdmission, hload, hreinit, himage, ne_eq, not_true_eq_false, Bool.false_eq_true, or_self, if_false]
  rfl

theorem finishAdmission_host (himage : (d.advance t).svc.loading = none) :
    finishAdmission n t d =
      afterAdmission (admitImage ((d.advance t).get R.DEV_ADMIT_IMAGE_image) n (d.advance t)) := by
  simp only [finishAdmission, hload, hreinit, himage, ne_eq, not_true_eq_false, Bool.false_eq_true, or_self, if_false]
  rfl

end

theorem execAdmitRelease_still {d : Dev} (hstill : d.still) :
    execAdmitRelease d =
      { releasePlan d with launch := { held := d.launch.held, heldStart := d.launch.heldStart } } := if_pos hstill

/-! ### The launch commands -/

section
variable {s : State} (hup : s.dev.coreUp 1 = true) (hlive : s.dev.fatal = false) (t : Time)
include hup hlive

theorem becomes_launchStart (n : BitVec 48) : Becomes (.launchStart n t) s (execLaunchStart n.toNat t s.dev) :=
  becomes_of_active rfl hup hlive

theorem becomes_launchRecord (p : Packet) : Becomes (.launchRecord p t) s (execLaunchRecordPacket p t s.dev) :=
  becomes_of_active rfl hup hlive

theorem becomes_launchAck (p : Packet) : Becomes (.launchAck p t) s (execLaunchAckPacket p t s.dev) :=
  becomes_of_active rfl hup hlive

theorem becomes_launchSend (v : BitVec 15) : Becomes (.launchSend v t) s (execLaunchSend v.toNat t s.dev) :=
  becomes_of_active rfl hup hlive

theorem becomes_launchWaitExpiry (v : BitVec 15) :
    Becomes (.launchWaitExpiry v t) s (execLaunchWaitExpiry v.toNat t s.dev) := becomes_of_active rfl hup hlive

theorem becomes_launchHostWaitExpiry : Becomes (.launchHostWaitExpiry t) s (execLaunchHostWaitExpiry t s.dev) :=
  becomes_of_active rfl hup hlive

end

/-! ### LAUNCH_START -/

section
variable {d : Dev} (hopen : d.is R.TIDE_LAUNCH_valid = false) (l : Nat)
include hopen

theorem startLaunch_admitted (hadmitted : d.admitted = true) :
    startLaunch l d = takeLaunch l d.plan.virtualDevice none d :=
  (if_neg (Bool.eq_false_iff.mp hopen)).trans (if_pos hadmitted)

theorem startLaunch_not_admitted (hadmitted : d.admitted = false) : startLaunch l d = d.raise E.LAUNCH_REFUSED :=
  (if_neg (Bool.eq_false_iff.mp hopen)).trans (if_neg (Bool.eq_false_iff.mp hadmitted))

end

/-- A START that need not wait for a loading. -/
theorem execLaunchStart_not_loading {d : Dev} {t : Time} (hopen : (d.advance t).is R.TIDE_LAUNCH_valid = false)
    (hload : (d.advance t).get R.DEV_ADMIT_STATUS_state ≠ asLoading) (l : Nat) :
    execLaunchStart l t d = startLaunch l (d.advance t) :=
  (if_neg (Bool.eq_false_iff.mp hopen)).trans (if_neg hload)

/-! ### LAUNCH_RECORD and LAUNCH_ACK -/

section
variable {p : Packet} {t : Time} {d : Dev} (hop : p.opcode.toNat = opLaunch)
  (hdest : p.dest.toNat = (d.advance t).get R.DEV_ADDR_address) (hok : packetOk p = true)
include hop hdest hok

theorem execLaunchRecordPacket_record (hkind : p.data.getD 28 0 = 0) :
    execLaunchRecordPacket p t d = drainRequests (launchRecord p (unqueue p (d.advance t))) :=
  (if_pos hkind).trans (receive_wellFormed hdest hop launchRecord hok)

theorem execLaunchAckPacket_ack (hkind : p.data.getD 28 0 = 1) :
    execLaunchAckPacket p t d = drainRequests (launchAck p (unqueue p (d.advance t))) :=
  (if_pos hkind).trans (receive_wellFormed hdest hop launchAck hok)

end

/-! ### LAUNCH_SEND and the waits -/

/-- The host is no longer asked to relay (R387). -/
def unasked (d : Dev) : Dev := modLaunch (fun x => { x with asked := none }) d

theorem execLaunchSend_new_child {d : Dev} {t : Time} {v : Nat} (hhost : (d.advance t).hosted 5 = true)
    (hlaunched : (d.advance t).launch.tide.isSome = true) (hindex : v < (d.advance t).plan.deviceCount)
    (hnew : ∀ c ∈ (d.advance t).launch.children, c.index ≠ v) :
    execLaunchSend v t d = settleLaunch (sendRecord v (unasked (d.advance t))) :=
  if_pos ⟨hhost, hlaunched, hindex, by simpa using hnew⟩

theorem execLaunchWaitExpiry_over {d : Dev} {t : Time} {v : Nat} {c : LaunchChild}
    (hchild : (d.advance t).launch.children.find? (fun c => decide (c.index = v)) = some c)
    (hover : tdiff t c.sentAt ≥ ((d.advance t).get R.DEV_LAUNCH_CTL_launch_wait * usU : Nat)) :
    execLaunchWaitExpiry v t d = settleLaunch (loseChild v (d.advance t)) := by
  simp only [execLaunchWaitExpiry, hchild]
  exact if_pos hover

theorem execLaunchHostWaitExpiry_over {d : Dev} {t since : Time} (hasked : (d.advance t).launch.asked = some since)
    (hover : tdiff t since ≥ ((d.advance t).get R.DEV_LAUNCH_CTL_host_wait * msU : Nat)) :
    execLaunchHostWaitExpiry t d =
      settleLaunch (relayAll ((unasked (d.advance t)).raise E.HOST_WAIT_EXPIRED_LAUNCH)) := by
  simp only [execLaunchHostWaitExpiry, hasked]
  exact if_pos hover

/-! ### The statement -/

/-- Settles O32: each command through its own arm and the case of its function that the premises choose. The map that an
admission of the serving controller uses, and the answers to LAUNCH packets, are the model's choice (notes/assumptions,
entries 71 and 74). -/
theorem launchCommandsComplete : Obligations.LaunchCommandsComplete := by
  intro s t hup d still
  refine ⟨fun hstill hload => ?startLoading,
    fun n hload hreinit => ⟨fun image himage => ?serving, fun himage => ?host⟩, fun hstill => ?release,
    fun hlive => ⟨fun n hopen hload => ⟨fun hadmitted => ?start, fun hadmitted => ?refused⟩,
      fun p hop hdest hok => ⟨fun hkind => ?record, fun hkind => ?ack⟩, fun v hhost hlaunched hindex hnew => ?send,
      fun v c hchild hover => ?wait, fun since hasked hover => ?hostWait⟩⟩
  case startLoading => exact (becomes_admitPlan hup t).trans (execAdmit_still hstill hload)
  case serving => exact (becomes_admitComplete hup n t).trans (finishAdmission_serving hload hreinit _ himage)
  case host => exact (becomes_admitComplete hup n t).trans (finishAdmission_host hload hreinit _ himage)
  case release =>
    exact (becomes_admitRelease hup).trans (congrArg gateService (execAdmitRelease_still hstill))
  case start =>
    exact (becomes_launchStart hup hlive t n).trans
      ((execLaunchStart_not_loading hopen hload _).trans (startLaunch_admitted hopen _ hadmitted))
  case refused =>
    exact (becomes_launchStart hup hlive t n).trans
      ((execLaunchStart_not_loading hopen hload _).trans (startLaunch_not_admitted hopen _ hadmitted))
  case record =>
    exact (becomes_launchRecord hup hlive t p).trans (execLaunchRecordPacket_record hop hdest hok hkind)
  case ack => exact (becomes_launchAck hup hlive t p).trans (execLaunchAckPacket_ack hop hdest hok hkind)
  case send =>
    exact (becomes_launchSend hup hlive t v).trans (execLaunchSend_new_child hhost hlaunched hindex hnew)
  case wait => exact (becomes_launchWaitExpiry hup hlive t v).trans (execLaunchWaitExpiry_over hchild hover)
  case hostWait => exact (becomes_launchHostWaitExpiry hup hlive t).trans (execLaunchHostWaitExpiry_over hasked hover)

end Sys2Proof.Machine
end

section
/-! SUPPORT. The slots of a control word bit for bit (Tables 3.2, 3.4 to 3.12): decoding is the inverse of encoding. -/

namespace Sys2Proof.Machine

/-! ### A field within one part of a concatenation -/

theorem extractLsb'_append_of_within {n m : Nat} (x : BitVec n) (y : BitVec m) {lo k : Nat} (h : lo + k ≤ m ∨ m ≤ lo) :
    (x ++ y).extractLsb' lo k = if m ≤ lo then x.extractLsb' (lo - m) k else y.extractLsb' lo k := by
  split
  · next hm => exact BitVec.extractLsb'_append_eq_of_le hm
  · next hm => exact BitVec.extractLsb'_append_eq_of_add_le (h.resolve_right hm)

@[simp] theorem getElem_bv1_zero (b : Bool) : (bv1 b)[0] = b := by cases b <;> rfl

/-! ### A slot decodes from its encoding

Each field that a decoder takes lies within one part of the concatenation that the encoder writes. That the parts'
widths make 48 is seen only with simp's index off. -/

theorem decArr_encArr (s : ArrSlot) : decArr (encArr s) = some s := by
  cases s <;> simp -index only [decArr, encArr, extractLsb'_append_of_within, BitVec.getLsbD_append, Nat.reduceLeDiff,
    Nat.reduceSub, Nat.reduceAdd, or_true, true_or, reduceIte] <;> simp

theorem vecOpOf_code (o : VecOp) : vecOpOf o.code = some o := by cases o <;> rfl

theorem decVec_encVec (s : VecSlot) : decVec (encVec s) = some s := by
  simp -index only [decVec, encVec, extractLsb'_append_of_within, BitVec.getLsbD_append, Nat.reduceLeDiff,
    Nat.reduceSub, Nat.reduceAdd, or_true, true_or, reduceIte]
  simp [vecOpOf_code]

theorem decGen_encGen (s : GenSlot) : decGen (encGen s) = some s := by
  cases s <;> simp -index only [decGen, encGen, extractLsb'_append_of_within, Nat.reduceLeDiff, Nat.reduceSub,
    Nat.reduceAdd, or_true, true_or, reduceIte] <;> simp

theorem decXbar_encXbar (s : XbarSlot) : decXbar (encXbar s) = some s := by
  obtain ⟨scatter, gen, unit, mask⟩ := s
  cases scatter <;> simp -index only [decXbar, encXbar, extractLsb'_append_of_within, Nat.reduceLeDiff, Nat.reduceSub,
    Nat.reduceAdd, or_true, true_or, reduceIte] <;> simp

theorem decXfer_encXfer (s : XferSlot) : decXfer (encXfer s) = some s := by
  cases s <;> simp -index only [decXfer, encXfer, extractLsb'_append_of_within, Nat.reduceLeDiff, Nat.reduceSub,
    Nat.reduceAdd, or_true, true_or, reduceIte] <;> simp

theorem decLoop_encLoop (s : LoopSlot) : decLoop (encLoop s) = some s := by
  cases s <;> simp -index only [decLoop, encLoop, extractLsb'_append_of_within, BitVec.getLsbD_append,
    Nat.reduceLeDiff, Nat.reduceSub, Nat.reduceAdd, or_true, true_or, reduceIte] <;> simp

theorem decDesc_encDesc (s : DescSlot) : decDesc (encDesc s) = some s := by
  cases s <;> simp -index only [decDesc, encDesc, extractLsb'_append_of_within, Nat.reduceLeDiff, Nat.reduceSub,
    Nat.reduceAdd, or_true, true_or, reduceIte] <;> simp

theorem decPred_encPred (s : PredSlot) : decPred (encPred s) = some s := by
  cases s <;> simp -index only [decPred, encPred, extractLsb'_append_of_within, Nat.reduceLeDiff, Nat.reduceSub,
    Nat.reduceAdd, or_true, true_or, reduceIte] <;> simp

/-! ### What decodes is the slot's encoding -/

section
variable {w : BitVec 48}

theorem encVec_of_decVec {s : VecSlot} (h : decVec w = some s) : encVec s = w := by
  obtain ⟨o, ho, rfl⟩ := Option.map_eq_some_iff.mp h
  have hcode : o.code = w.extractLsb' 42 6 := by simpa using List.find?_some ho
  rw [encVec, hcode]
  ext i hi
  simp -index only [BitVec.getElem_append]
  grind [bv1]

theorem encXbar_of_decXbar {s : XbarSlot} (h : decXbar w = some s) : encXbar s = w := by
  obtain ⟨henc, hs⟩ := Option.ite_none_right_eq_some.mp h
  exact Option.some.inj hs ▸ henc

theorem decArr_eq_some_iff {s : ArrSlot} : decArr w = some s ↔ encArr s = w :=
  ⟨fun h => of_decide_eq_true (Option.filter_eq_some_iff.mp h).2, fun h => h ▸ decArr_encArr s⟩

theorem decVec_eq_some_iff {s : VecSlot} : decVec w = some s ↔ encVec s = w :=
  ⟨encVec_of_decVec, fun h => h ▸ decVec_encVec s⟩

theorem decGen_eq_some_iff {s : GenSlot} : decGen w = some s ↔ encGen s = w :=
  ⟨fun h => of_decide_eq_true (Option.filter_eq_some_iff.mp h).2, fun h => h ▸ decGen_encGen s⟩

theorem decXbar_eq_some_iff {s : XbarSlot} : decXbar w = some s ↔ encXbar s = w :=
  ⟨encXbar_of_decXbar, fun h => h ▸ decXbar_encXbar s⟩

theorem decXfer_eq_some_iff {s : XferSlot} : decXfer w = some s ↔ encXfer s = w :=
  ⟨fun h => of_decide_eq_true (Option.filter_eq_some_iff.mp h).2, fun h => h ▸ decXfer_encXfer s⟩

theorem decLoop_eq_some_iff {s : LoopSlot} : decLoop w = some s ↔ encLoop s = w :=
  ⟨fun h => of_decide_eq_true (Option.filter_eq_some_iff.mp h).2, fun h => h ▸ decLoop_encLoop s⟩

theorem decDesc_eq_some_iff {s : DescSlot} : decDesc w = some s ↔ encDesc s = w :=
  ⟨fun h => of_decide_eq_true (Option.filter_eq_some_iff.mp h).2, fun h => h ▸ decDesc_encDesc s⟩

theorem decPred_eq_some_iff {s : PredSlot} : decPred w = some s ↔ encPred s = w :=
  ⟨fun h => of_decide_eq_true (Option.filter_eq_some_iff.mp h).2, fun h => h ▸ decPred_encPred s⟩

end

/-! ### A slot by its presence bit -/

theorem slot_index_lt (s : Slot) : s.index < 21 := by
  cases s <;> simp only [Slot.index] <;> omega

theorem decSlot_index_encSlot (s : Slot) : decSlot s.index (encSlot s) = some s := by
  cases s with
  | arr i s => simp [decSlot, Slot.index, encSlot, decArr_encArr]
  | vec p s => fin_cases p <;> simp [decSlot, Slot.index, encSlot, decVec_encVec]
  | gen i s => fin_cases i <;> simp [decSlot, Slot.index, encSlot, decGen_encGen]
  | xbar p s => fin_cases p <;> simp [decSlot, Slot.index, encSlot, decXbar_encXbar]
  | xfer p s => fin_cases p <;> simp [decSlot, Slot.index, encSlot, decXfer_encXfer]
  | loop s => simp [decSlot, Slot.index, encSlot, decLoop_encLoop]
  | desc s => simp [decSlot, Slot.index, encSlot, decDesc_encDesc]
  | pred s => simp [decSlot, Slot.index, encSlot, decPred_encPred]

theorem decSlot_arr {i : Nat} (h : i < 8) (w : BitVec 48) : decSlot i w = (decArr w).map (.arr ⟨i, h⟩) := dif_pos h

theorem decSlot_gen {i : Nat} (hlo : 10 ≤ i) (hhi : i < 14) (w : BitVec 48) :
    decSlot i w = (decGen w).map (.gen ⟨i - 10, by omega⟩) := by
  obtain rfl | rfl | rfl | rfl : i = 10 ∨ i = 11 ∨ i = 12 ∨ i = 13 := by omega
  all_goals rfl

theorem decSlot_absent {i : Nat} (h : 21 ≤ i) (w : BitVec 48) : decSlot i w = none := by
  unfold decSlot
  rw [dif_neg (by omega), if_neg (by omega), if_neg (by omega), dif_neg (by omega)]
  iterate 7 rw [if_neg (by omega)]

theorem index_encSlot_of_map {α : Type} {dec : BitVec 48 → Option α} {enc : α → BitVec 48} {mk : α → Slot} {i : Nat}
    {w : BitVec 48} {s : Slot} (h : (dec w).map mk = some s) (hdec : ∀ {x}, dec w = some x ↔ enc x = w)
    (hindex : ∀ x, (mk x).index = i) (henc : ∀ x, encSlot (mk x) = enc x) : s.index = i ∧ encSlot s = w := by
  obtain ⟨x, hx, rfl⟩ := Option.map_eq_some_iff.mp h
  exact ⟨hindex x, (henc x).trans (hdec.mp hx)⟩

/-- A slot decodes at its own presence bit and from its own encoding alone. -/
theorem decSlot_eq_some_iff {i : Nat} {w : BitVec 48} {s : Slot} :
    decSlot i w = some s ↔ s.index = i ∧ encSlot s = w := by
  refine ⟨fun h => ?_, fun ⟨hi, hw⟩ => by rw [← hi, ← hw, decSlot_index_encSlot]⟩
  obtain harr | rfl | rfl | ⟨hlo, hhi⟩ | rfl | rfl | rfl | rfl | rfl | rfl | rfl | habsent :
      i < 8 ∨ i = 8 ∨ i = 9 ∨ (10 ≤ i ∧ i < 14) ∨ i = 14 ∨ i = 15 ∨ i = 16 ∨ i = 17 ∨ i = 18 ∨ i = 19 ∨
        i = 20 ∨ 21 ≤ i := by omega
  · exact index_encSlot_of_map ((decSlot_arr harr w).symm.trans h) decArr_eq_some_iff (fun _ => rfl) (fun _ => rfl)
  · exact index_encSlot_of_map h decVec_eq_some_iff (fun _ => rfl) (fun _ => rfl)
  · exact index_encSlot_of_map h decVec_eq_some_iff (fun _ => rfl) (fun _ => rfl)
  · exact index_encSlot_of_map ((decSlot_gen hlo hhi w).symm.trans h) decGen_eq_some_iff
      (fun _ => Nat.add_sub_cancel' hlo) (fun _ => rfl)
  · exact index_encSlot_of_map h decXbar_eq_some_iff (fun _ => rfl) (fun _ => rfl)
  · exact index_encSlot_of_map h decXbar_eq_some_iff (fun _ => rfl) (fun _ => rfl)
  · exact index_encSlot_of_map h decXfer_eq_some_iff (fun _ => rfl) (fun _ => rfl)
  · exact index_encSlot_of_map h decXfer_eq_some_iff (fun _ => rfl) (fun _ => rfl)
  · exact index_encSlot_of_map h decLoop_eq_some_iff (fun _ => rfl) (fun _ => rfl)
  · exact index_encSlot_of_map h decDesc_eq_some_iff (fun _ => rfl) (fun _ => rfl)
  · exact index_encSlot_of_map h decPred_eq_some_iff (fun _ => rfl) (fun _ => rfl)
  · cases (decSlot_absent habsent w).symm.trans h

end Sys2Proof.Machine
end

section
/-! SUPPORT. Control words bit for bit (R65, R66, R68, Table 3.1): a word decodes exactly where its bits are the encoding
of a well-formed word. -/

namespace Sys2Proof.Machine

/-! ### The presence mask -/

theorem bit_eq_testBit (v i : Nat) : bit v i = v.testBit i := by
  rw [bit, Nat.testBit_eq_decide_div_mod_eq]

theorem presentBits_eq_bitIndices {m : Nat} (h : m < 2 ^ 24) : presentBits m = m.bitIndices := by
  refine List.SortedLT.eq_of_mem_iff ((List.sortedLT_range 24).pairwise.filter _).sortedLT Nat.bitIndices_sorted
    fun i => ?_
  rw [presentBits, List.mem_filter, List.mem_range, Nat.mem_bitIndices, bit_eq_testBit, and_iff_right_iff_imp]
  intro hi
  exact (Nat.pow_lt_pow_iff_right (by decide)).mp ((Nat.ge_two_pow_of_testBit hi).trans_lt h)

theorem ascending_iff_sortedLT {l : List Nat} : ascending l = true ↔ l.SortedLT := by
  rw [List.sortedLT_iff_isChain]
  induction l with
  | nil => simp [ascending]
  | cons a l ih =>
    cases l with
    | nil => simp [ascending]
    | cons b l => simp [ascending, ih]

/-- The presence mask of a list of slots. -/
def presence (ss : List Slot) : Nat := ((ss.map Slot.index).map (2 ^ ·)).sum

theorem presence_eq_foldl (ss : List Slot) : (ss.map (fun s => 2 ^ s.index)).foldl (· + ·) 0 = presence ss := by
  rw [presence, List.map_map, List.sum_eq_foldl]
  rfl

theorem bitIndices_presence {ss : List Slot} (h : (ss.map Slot.index).SortedLT) :
    (presence ss).bitIndices = ss.map Slot.index := Nat.bitIndices_sum_map_two_pow h

theorem presence_lt {ss : List Slot} (h : (ss.map Slot.index).SortedLT) : presence ss < 2 ^ 21 := by
  refine Nat.lt_pow_two_of_testBit _ fun i hi => Bool.eq_false_iff.mpr fun hbit => ?_
  obtain ⟨s, -, rfl⟩ := List.mem_map.mp (bitIndices_presence h ▸ Nat.mem_bitIndices.mpr hbit)
  exact absurd (slot_index_lt s) (Nat.not_lt.mpr hi)

theorem length_le_of_sortedLT {ss : List Slot} (h : (ss.map Slot.index).SortedLT) : ss.length ≤ 21 := by
  have hsub : ss.map Slot.index ⊆ List.range 21 := by
    intro i hi
    obtain ⟨s, -, rfl⟩ := List.mem_map.mp hi
    exact List.mem_range.mpr (slot_index_lt s)
  simpa using (h.nodup.subperm hsub).length_le

/-! ### The slots' bits -/

/-- The bits of a list of slots, one after the other. -/
def payload (ss : List Slot) : Nat := (ss.map (fun s => (encSlot s).toNat)).foldr (fun s acc => s + 2 ^ 48 * acc) 0

theorem payload_cons (s : Slot) (ss : List Slot) : payload (s :: ss) = (encSlot s).toNat + 2 ^ 48 * payload ss := rfl

theorem payload_lt (ss : List Slot) : payload ss < 2 ^ (48 * ss.length) := by
  induction ss with
  | nil => decide
  | cons s ss ih =>
    have hs := (encSlot s).isLt
    rw [payload_cons, List.length_cons, Nat.mul_succ, Nat.add_comm (48 * _), Nat.pow_add]
    calc (encSlot s).toNat + 2 ^ 48 * payload ss
        < 2 ^ 48 * (payload ss + 1) := by omega
      _ ≤ 2 ^ 48 * 2 ^ (48 * ss.length) := Nat.mul_le_mul_left _ ih

theorem decodeSlots_cons_eq_some_iff {i : Nat} {idx : List Nat} {rest : Nat} {s : Slot} {ss : List Slot} :
    decodeSlots (i :: idx) rest = some (s :: ss) ↔
      decSlot i (BitVec.ofNat 48 rest) = some s ∧ decodeSlots idx (rest / 2 ^ 48) = some ss := by
  rw [decodeSlots]
  split <;> simp_all

theorem decodeSlots_cons_ne_nil {i : Nat} {idx : List Nat} {rest : Nat} : decodeSlots (i :: idx) rest ≠ some [] := by
  rw [decodeSlots]
  split <;> simp

/-- A number of 48 bits and more, by its low 48 bits and the rest. -/
theorem add_mul_eq_mod_iff {a b rest n : Nat} (ha : a < 2 ^ 48) :
    a + 2 ^ 48 * b = rest % 2 ^ (48 * (n + 1)) ↔ a = rest % 2 ^ 48 ∧ b = rest / 2 ^ 48 % 2 ^ (48 * n) := by
  rw [Nat.mul_succ, Nat.add_comm (48 * n), Nat.pow_add, Nat.mod_mul]
  generalize rest / 2 ^ 48 % 2 ^ (48 * n) = q
  omega

/-- Bits decode to slots exactly where they are those slots' bits. -/
theorem decodeSlots_eq_some_iff {idx : List Nat} {rest : Nat} {ss : List Slot} :
    decodeSlots idx rest = some ss ↔ ss.map Slot.index = idx ∧ payload ss = rest % 2 ^ (48 * idx.length) := by
  induction idx generalizing rest ss with
  | nil => cases ss <;> simp [decodeSlots, payload, Nat.mod_one]
  | cons i idx ih =>
    cases ss with
    | nil => simp [decodeSlots_cons_ne_nil]
    | cons s ss =>
      rw [decodeSlots_cons_eq_some_iff, decSlot_eq_some_iff, ih, List.map_cons, List.cons_eq_cons, payload_cons,
        List.length_cons, add_mul_eq_mod_iff (encSlot s).isLt, ← BitVec.toNat_inj, BitVec.toNat_ofNat]
      tauto

/-! ### A word's bits -/

/-- The first 60 bits of a word: presence, count, reserved, repeat, predicate (Table 3.1). -/
def CWord.header (w : CWord) : Nat :=
  presence w.slots + w.slots.length * 2 ^ 24 + w.rep.toNat * 2 ^ 32 + w.gov.pred.toNat * 2 ^ 44 + flag w.gov.inv * 2 ^ 48

/-- Header, parity and slots in their places. -/
def layout (header parity slots : Nat) : Nat := header + parity * 2 ^ 60 + slots * 2 ^ 64

theorem body_eq_layout (w : CWord) : w.body = layout (CWord.header w) 0 (payload w.slots) := by
  rw [CWord.body, presence_eq_foldl, layout, Nat.zero_mul, Nat.add_zero]
  rfl

theorem encodeWord_eq_layout (w : CWord) :
    encodeWord w = layout (CWord.header w) (parityOf w.body w.slots.length) (payload w.slots) := by
  rw [encodeWord]
  nth_rewrite 1 [body_eq_layout]
  rw [layout, layout]
  omega

theorem eq_layout_iff {v h p q : Nat} (hh : h < 2 ^ 60) (hp : p < 16) :
    v = layout h p q ↔ v % 2 ^ 60 = h ∧ bits v 60 4 = p ∧ v / 2 ^ 64 = q := by
  rw [layout, bits]
  omega

theorem bit_mod_of_lt {j k : Nat} (h : j < k) (v : Nat) : bit (v % 2 ^ k) j = bit v j := by
  rw [bit_eq_testBit, bit_eq_testBit, Nat.testBit_mod_two_pow, decide_eq_true h, Bool.true_and]

theorem bit_div_of_le {j k : Nat} (h : k ≤ j) (v : Nat) : bit (v / 2 ^ k) (j - k) = bit v j := by
  rw [bit_eq_testBit, bit_eq_testBit, Nat.testBit_div_two_pow, Nat.sub_add_cancel h]

/-- Words that differ in their parity fields alone have the same other bits. -/
theorem bit_eq_of_parity_apart {v w j : Nat} (hlow : v % 2 ^ 60 = w % 2 ^ 60) (hhigh : v / 2 ^ 64 = w / 2 ^ 64)
    (hj : j < 60 ∨ 64 ≤ j) : bit v j = bit w j := by
  rcases hj with hj | hj
  · rw [← bit_mod_of_lt hj, hlow, bit_mod_of_lt hj]
  · rw [← bit_div_of_le hj, hhigh, bit_div_of_le hj]

theorem parityBelow_congr {v w i b : Nat} (h : ∀ j, j < 60 ∨ 64 ≤ j → bit v j = bit w j) :
    parityBelow v i b = parityBelow w i b := by
  induction b with
  | zero => rfl
  | succ b ih =>
    rw [parityBelow, parityBelow, ih]
    by_cases hb : 60 ≤ b ∧ b < 64
    · simp [hb.1, hb.2]
    · rw [h b (by omega)]

/-- Parity does not depend on the parity field. -/
theorem parityOf_congr {v w : Nat} (hlow : v % 2 ^ 60 = w % 2 ^ 60) (hhigh : v / 2 ^ 64 = w / 2 ^ 64) (n : Nat) :
    parityOf v n = parityOf w n := by
  simp only [parityOf, parityBelow_congr fun _ hj => bit_eq_of_parity_apart hlow hhigh hj]

theorem parityOf_lt (w n : Nat) : parityOf w n < 16 := by
  unfold parityOf
  have hflag (i : Nat) := flag_le (parityBelow w i (wordBits n))
  have h0 := hflag 0
  have h1 := hflag 1
  have h2 := hflag 2
  have h3 := hflag 3
  omega

theorem flag_bit (v i : Nat) : flag (bit v i) = v / 2 ^ i % 2 := by
  rcases Nat.mod_two_eq_zero_or_one (v / 2 ^ i) with h | h <;> simp [flag, bit, h]

section
variable {w : CWord} (hsorted : (w.slots.map Slot.index).SortedLT)
include hsorted

theorem header_lt : CWord.header w < 2 ^ 60 := by
  have hpresence := presence_lt hsorted
  have hlength := length_le_of_sortedLT hsorted
  have hrep := w.rep.isLt
  have hpred := w.gov.pred.isLt
  have hinv := flag_le w.gov.inv
  unfold CWord.header
  omega

/-- The first 60 bits of a word are a header's exactly where each field of Table 3.1 is. -/
theorem mod_eq_header_iff {v : Nat} :
    v % 2 ^ 60 = CWord.header w ↔
      bits v 0 24 = presence w.slots ∧ bits v 24 5 = w.slots.length ∧ bits v 29 3 = 0 ∧
      bits v 32 12 = w.rep.toNat ∧ bits v 44 4 = w.gov.pred.toNat ∧ flag (bit v 48) = flag w.gov.inv ∧
      bits v 49 11 = 0 := by
  have hpresence := presence_lt hsorted
  have hlength := length_le_of_sortedLT hsorted
  have hrep := w.rep.isLt
  have hpred := w.gov.pred.isLt
  have hinv := flag_le w.gov.inv
  rw [CWord.header, flag_bit]
  simp only [bits]
  omega

/-- A number is a word's encoding exactly where its header, its parity and its slots' bits are. -/
theorem eq_encodeWord_iff {v : Nat} :
    v = encodeWord w ↔
      v % 2 ^ 60 = CWord.header w ∧ parityOf v w.slots.length = bits v 60 4 ∧ v / 2 ^ 64 = payload w.slots := by
  rw [encodeWord_eq_layout, eq_layout_iff (header_lt hsorted) (parityOf_lt ..)]
  refine and_congr_right fun hheader => and_congr_left fun hpayload => ?_
  obtain ⟨hbody, -, hbody'⟩ := (eq_layout_iff (header_lt hsorted) (by decide)).mp (body_eq_layout w)
  rw [parityOf_congr (hheader.trans hbody.symm) (hpayload.trans hbody'.symm), eq_comm]

theorem encodeWord_lt : encodeWord w < 2 ^ wordBits w.slots.length := by
  obtain ⟨-, -, hpayload⟩ := (eq_encodeWord_iff hsorted).mp rfl
  rw [wordBits, Nat.add_comm, Nat.pow_add, ← Nat.div_lt_iff_lt_mul (by decide), hpayload]
  exact payload_lt w.slots

end

/-! ### Words -/

theorem wf_iff {w : CWord} :
    w.wf = true ↔ (w.slots.map Slot.index).SortedLT ∧ w.slots.all Slot.legal = true ∧ w.countSource = true := by
  rw [CWord.wf, Bool.and_eq_true, Bool.and_eq_true, ascending_iff_sortedLT, and_assoc]

theorem bits_lt (v lo k : Nat) : bits v lo k < 2 ^ k := Nat.mod_lt _ (Nat.two_pow_pos k)

theorem ofNat_bits_eq_iff {v lo k : Nat} {x : BitVec k} : BitVec.ofNat k (bits v lo k) = x ↔ bits v lo k = x.toNat := by
  rw [← BitVec.toNat_inj, BitVec.toNat_ofNat, Nat.mod_eq_of_lt (bits_lt v lo k)]

theorem flag_eq_flag_iff {a b : Bool} : flag a = flag b ↔ a = b := by cases a <;> cases b <;> decide

theorem decoded_eq_iff {v : Nat} {ss : List Slot} {w : CWord} :
    ({ rep := BitVec.ofNat 12 (bits v 32 12), gov := { pred := BitVec.ofNat 4 (bits v 44 4), inv := bit v 48 },
       slots := ss } : CWord) = w ↔
      (bits v 32 12 = w.rep.toNat ∧ bits v 44 4 = w.gov.pred.toNat ∧ flag (bit v 48) = flag w.gov.inv) ∧
        ss = w.slots := by
  obtain ⟨rep, ⟨pred, inv⟩, slots⟩ := w
  simp only [CWord.mk.injEq, Gov.mk.injEq, ofNat_bits_eq_iff, flag_eq_flag_iff, and_assoc]

/-- What decoding asks of the first bits `v` of memory, where `idx` are the presence bits found there. -/
theorem decodeWord_eq_ok_iff {raw v : Nat} {w : CWord} {idx : List Nat} (hidx : presentBits (bits raw 0 24) = idx)
    (hv : raw % 2 ^ wordBits idx.length = v) :
    decodeWord raw = .ok w ↔
      parityOf v idx.length = bits v 60 4 ∧
      (bits v 24 5 = idx.length ∧ bits v 29 3 = 0 ∧ bits v 49 11 = 0 ∧ bits raw 0 24 < 2 ^ 21) ∧
      (bits v 32 12 = w.rep.toNat ∧ bits v 44 4 = w.gov.pred.toNat ∧ flag (bit v 48) = flag w.gov.inv) ∧
      decodeSlots idx (v / 2 ^ 64) = some w.slots ∧ w.slots.all Slot.legal = true ∧ w.countSource = true := by
  rw [decodeWord, hidx, hv]
  split
  · next hparity => exact iff_of_false nofun fun h => hparity h.1
  next hparity =>
  split
  · next hformat => exact iff_of_false nofun fun ⟨_, ⟨hcount, hreserved, hgap, hmask⟩, _⟩ => by omega
  next hformat =>
  have hfields : bits v 24 5 = idx.length ∧ bits v 29 3 = 0 ∧ bits v 49 11 = 0 ∧ bits raw 0 24 < 2 ^ 21 := by omega
  rw [and_iff_right (not_not.mp hparity), and_iff_right hfields]
  split
  · next hslots => exact iff_of_false nofun fun ⟨_, hsome, _⟩ => nomatch hslots.symm.trans hsome
  next ss hslots =>
  rw [hslots, Option.some.injEq, ← and_assoc (b := ss = _), ← decoded_eq_iff]
  dsimp only
  split
  · next hlegal =>
    rw [Except.ok.injEq]
    exact ⟨fun h => ⟨h, by subst h; exact Bool.and_eq_true_iff.mp hlegal⟩, And.left⟩
  · next hlegal => exact iff_of_false nofun fun ⟨h, hw⟩ => hlegal (by subst h; exact Bool.and_eq_true_iff.mpr hw)

theorem bits_mod_wordBits (raw n : Nat) : bits (raw % 2 ^ wordBits n) 0 24 = bits raw 0 24 := by
  rw [bits, bits, Nat.pow_zero, Nat.div_one, Nat.div_one, Nat.mod_mod_of_dvd]
  exact Nat.pow_dvd_pow 2 (by unfold wordBits; omega)

theorem div_lt_of_lt_wordBits {v n : Nat} (h : v < 2 ^ wordBits n) : v / 2 ^ 64 < 2 ^ (48 * n) := by
  rwa [Nat.div_lt_iff_lt_mul (by decide), ← Nat.pow_add, Nat.add_comm]

/-- The slots that stand at the presence bits of a mask, by their number and the mask. -/
theorem map_index_eq_presentBits_iff {ss : List Slot} {m : Nat} (hm : m < 2 ^ 24) :
    ss.map Slot.index = presentBits m ↔ (ss.map Slot.index).SortedLT ∧ m = presence ss := by
  rw [presentBits_eq_bitIndices hm]
  constructor
  · intro h
    exact ⟨h ▸ Nat.bitIndices_sorted, by rw [presence, h, Nat.sum_map_two_pow_bitIndices]⟩
  · rintro ⟨hsorted, rfl⟩
    exact (bitIndices_presence hsorted).symm

/-- A word decodes exactly where it is well formed and the bits are its encoding. -/
theorem decodeWord_eq_ok_iff_encodeWord {raw : Nat} {w : CWord} :
    decodeWord raw = .ok w ↔ w.wf = true ∧ raw % 2 ^ wordBits w.slots.length = encodeWord w := by
  have hv : raw % 2 ^ wordBits w.slots.length < 2 ^ wordBits w.slots.length := Nat.mod_lt _ (Nat.two_pow_pos _)
  have hpayload := div_lt_of_lt_wordBits hv
  have hmask : bits raw 0 24 < 2 ^ 24 := bits_lt raw 0 24
  have hlow := bits_mod_wordBits raw w.slots.length
  by_cases hidx : w.slots.map Slot.index = presentBits (bits raw 0 24)
  · have hlength : (presentBits (bits raw 0 24)).length = w.slots.length := by rw [← hidx, List.length_map]
    obtain ⟨hsorted, hpresence⟩ := (map_index_eq_presentBits_iff hmask).mp hidx
    rw [decodeWord_eq_ok_iff rfl rfl, decodeSlots_eq_some_iff, wf_iff, hlength, eq_encodeWord_iff hsorted,
      mod_eq_header_iff hsorted, hlow, Nat.mod_eq_of_lt hpayload]
    have hsmall := hpresence ▸ presence_lt hsorted
    tauto
  · refine iff_of_false (fun h => hidx ?_) (fun ⟨hwf, h⟩ => hidx ?_)
    · rw [decodeWord_eq_ok_iff rfl rfl, decodeSlots_eq_some_iff] at h
      tauto
    · have hsorted := (wf_iff.mp hwf).1
      obtain ⟨hheader, -⟩ := (eq_encodeWord_iff hsorted).mp h
      exact (map_index_eq_presentBits_iff hmask).mpr ⟨hsorted, hlow ▸ ((mod_eq_header_iff hsorted).mp hheader).1⟩

/-- Settles O54: a word's encoding decodes to the word, whatever follows it (`decodeWord_eq_ok_iff_encodeWord`, from the
encoding). -/
theorem controlWordsDecodeAsEncoded : Obligations.ControlWordsDecodeAsEncoded := by
  intro w rest hwf
  have hlt := encodeWord_lt (wf_iff.mp hwf).1
  exact ⟨hlt, decodeWord_eq_ok_iff_encodeWord.mpr ⟨hwf, by rw [Nat.add_mul_mod_self_right, Nat.mod_eq_of_lt hlt]⟩⟩

/-- Settles O55: what decodes is the encoding of a well-formed word (`decodeWord_eq_ok_iff_encodeWord`, from the
decoding). -/
theorem decodedWordsAreEncodings : Obligations.DecodedWordsAreEncodings :=
  fun _ _ => decodeWord_eq_ok_iff_encodeWord.mp

end Sys2Proof.Machine
end

section
/-! SUPPORT. A word of one slot (R69 to R72): what its tick does where nothing stops it, by what its slot does. -/

namespace Sys2Proof.Machine

/-! ### Trials -/

theorem foldl_eq_self {α β : Type} {f : β → α → β} {b : β} {l : List α} (h : ∀ a ∈ l, f b a = b) : l.foldl f b = b := by
  induction l with
  | nil => rfl
  | cons a l ih =>
    rw [List.foldl_cons, h a List.mem_cons_self]
    exact ih fun a ha => h a (List.mem_cons_of_mem _ ha)

theorem errs_foldl {α : Type} {f : Trial → α → Trial} (h : ∀ t a, (f t a).errs = t.errs) (t : Trial) (l : List α) :
    (l.foldl f t).errs = t.errs := by
  induction l generalizing t with
  | nil => rfl
  | cons a l ih => rw [List.foldl_cons, ih, h]

/-- A step of each cell that changes the device alone. -/
theorem forCells_device (f : Dev → Nat → Dev) (t : Trial) (cells : List Nat) :
    t.forCells cells (fun t c => { t with d := f t.d c }) = { t with d := cells.foldl f t.d } := by
  unfold Trial.forCells
  induction cells generalizing t with
  | nil => rfl
  | cons c cells ih => rw [List.foldl_cons, ih, List.foldl_cons]

/-- The tile reads find no fault. -/
@[simp] theorem errs_readTiles (x : Ctx) (t : Trial) : (readTiles x t).errs = t.errs := by
  refine errs_foldl (fun t c => errs_foldl (fun t a => ?_) _ _) _ _
  split
  · rfl
  · split
    · rfl
    · refine errs_foldl (fun t o => ?_) _ _
      rfl

/-! ### A tick whose accesses are clean -/

theorem eccAll_clean {r : Nat} {accs : List Acc} {d : Dev}
    (h : ∀ p ∈ eccTargets d r accs, (codeWords d r p.1 p.2).all (fun o => (d.cell r p.1).wrong o = 0) = true) :
    eccAll r accs d = (d, false) := foldl_eq_self fun p hp => if_pos (h p hp)

/-- The device after a tick that no check stops; `t` is its trial, `arriving` the writes that reach the cells in it. -/
def tickDone (x : Ctx) (routers : List Nat) (after : Dev → Dev) (t : Trial) (arriving : List Acc) : Dev :=
  let all := t.accs ++ arriving
  let e := applyWrites x.r t.accs t.d
  let e := noteShare x.r (e.reg x.r).tideTick (usedBy all routers) e
  endTick x.r (banksOf all) (slipOf e x.r x.pc (e.reg x.r).tideTick all) (after e)

theorem finishTick_clean {x : Ctx} {redo : Dev → Trial} {t : Trial} {d : Dev} (ht : redo d = t) (herrs : t.errs = [])
    (hclean : accessesClean d x.r t.accs (arrivingAccs d x.r x.tick)) (routers : List Nat) (after : Dev → Dev) (d0 : Dev) :
    finishTick x [] redo routers after d0 d = tickDone x routers after t (arrivingAccs d x.r x.tick) := by
  obtain ⟨hclass, hecc⟩ := hclean
  have hfaults : tickFaults x [] t d = [] := by simp [tickFaults, herrs, hclass]
  simp only [finishTick, ht, hfaults, eccAll_clean hecc, ne_eq, not_true_eq_false, if_false, Bool.false_eq_true, if_true]
  rfl

/-! ### The word -/

@[simp] theorem checked_ok {α : Type} (a x : α) : checked a (.ok x) = (x, []) := rfl

/-- A word of one slot, as a slot command issues it. -/
abbrev slotAlone (g : Gov) (slot : Slot) : CWord := { rep := 0, gov := g, slots := [slot] }

/-- The first tick of a word that no check stops. -/
theorem wordOn_first {r units : Nat} {w : CWord} {a b e : Dev} {u : RegionSt} {clamped : Bool} {x : Ctx}
    {cnt : Option (Nat × Nat)} {t : Trial} (hb : beginWord r w.gov a = b)
    (hloop : enterLoop r (a.reg r).planTicks (a.imagePc r) (!(a.reg r).skipL) w b = .ok (u, clamped))
    (hx : wordCtx r (a.reg r).planTicks (a.reg r).planTicks (a.imagePc r) true u.loopShadow b = x)
    (he : b.setReg r u = e) (hcount : countWrite x w e = .ok cnt)
    (hpresent : (a.targets r).any (fun c => !bit (a.presentCells r) c) = false)
    (hinside : u.loops.any (fun k => decide (a.imagePc r < k.last ∧ k.last < a.imagePc r + units)) = false)
    (htick : slotsTick x w { d := e } = t) (herrs : t.errs = [])
    (hclean : accessesClean e r t.accs (arrivingAccs e r x.tick)) :
    wordOn r w units true a =
      tickDone x (routersOf x w) (closeWord x w units cnt clamped) t (arrivingAccs e r x.tick) := by
  have hnone : absentTarget r a = [] := if_neg (Bool.eq_false_iff.mp hpresent)
  have hr : x.r = r := congrArg Ctx.r hx.symm
  simp only [wordOn, if_true, Bool.true_and, hb, hloop, checked_ok, hx, he, hcount, hnone, hinside, Bool.false_eq_true,
    if_false, List.append_nil]
  rw [finishTick_clean htick herrs (hr.symm ▸ hclean), hr]

section
variable {r : Nat} {g : Gov} {slot : Slot} {f : RegionSt → RegionSt} {d : Dev} {t : Trial} {clamped : Bool}
  {mid : Dev → Dev} {cnt : Option (Nat × Nat)}

/-- A word of one slot that runs, from what its L slot, its count and its tick do. -/
theorem slotWord_runs
    (hloop : enterLoop r ((slotStart r d).reg r).planTicks ((slotStart r d).imagePc r)
      (!((slotStart r d).reg r).skipL) (slotAlone g slot) (beginWord r g (slotStart r d)) =
        .ok (f ((beginWord r g (slotStart r d)).reg r), clamped))
    (hcount : countWrite (slotCtx r g f d) (slotAlone g slot) (slotBegun r g f d) = .ok cnt)
    (htick : slotsTick (slotCtx r g f d) (slotAlone g slot) { d := slotBegun r g f d } = t) (herrs : t.errs = [])
    (hclose : closeWord (slotCtx r g f d) (slotAlone g slot) 7 cnt clamped =
      fun e => closeTick (slotCtx r g f d) 0 7 clamped (mid e))
    (hruns : SlotRuns r g f slot t.accs d) :
    slotWord r g [slot] d = slotDone r g f slot t.accs clamped mid t.d d := by
  obtain ⟨-, -, hslip, hwf, hhold, hpresent, hinside, hclean⟩ := hruns
  have hissue : slotWord r g [slot] d =
      enterSlip r d.now (wordTick r (slotAlone g slot) 7 true (resume r (slotAt r d))) := by
    rw [slotWord, if_neg (not_not_intro hslip), if_neg (not_not_intro hwf)]
    exact congrArg (enterSlip r d.now) (issueWord_unheld hhold ..)
  have hword : wordTick r (slotAlone g slot) 7 true (resume r (slotAt r d)) =
      tickDone (slotCtx r g f d) (routersOf (slotCtx r g f d) (slotAlone g slot))
        (fun e => closeTick (slotCtx r g f d) 0 7 clamped (mid e)) t
        (arrivingAccs (slotBegun r g f d) r (slotCtx r g f d).tick) := by
    rw [← hclose]
    exact wordOn_first (units := 7) (w := slotAlone g slot) rfl hloop rfl rfl hcount hpresent hinside htick herrs hclean
  exact hissue.trans (congrArg (enterSlip r d.now) hword)

end

/-! ### The tick of a word of one slot -/

section
variable (x : Ctx) (g : Gov) (t : Trial)

theorem slotsTick_clear (a : Fin 8) (acc : BitVec 2) (win : BitVec 8) :
    slotsTick x (slotAlone g (.arr a (.clear acc win))) t = clearSlot x a.val acc win (readTiles x t) := rfl

theorem slotsTick_wswap (a : Fin 8) :
    slotsTick x (slotAlone g (.arr a .wswap)) t = wswapSlot x a.val (readTiles x t) := rfl

theorem slotsTick_gen (k : Fin 4) (s : GenSlot) :
    slotsTick x (slotAlone g (.gen k s)) t = readTiles x (genSlot x k.val s t) := rfl

theorem slotsTick_xfer (p : Fin 2) (s : XferSlot) :
    slotsTick x (slotAlone g (.xfer p s)) t = readTiles x (xferSlot x p.val s t) := rfl

theorem slotsTick_loop (s : LoopSlot) : slotsTick x (slotAlone g (.loop s)) t = readTiles x t := rfl

theorem slotsTick_desc (hfirst : x.first = true) (s : DescSlot) :
    slotsTick x (slotAlone g (.desc s)) t = descSlot x s (readTiles x t) := if_pos hfirst

theorem slotsTick_pred (s : PredSlot) : slotsTick x (slotAlone g (.pred s)) t = readTiles x t := rfl

theorem slotsTick_vec (p : Fin 2) {s : VecSlot} (hop : decide (s.op = .rdacc) = false) :
    slotsTick x (slotAlone g (.vec p s)) t = vecSlot x p.val s (readTiles x t) := by
  rw [decide_eq_false_iff_not] at hop
  simp [slotsTick, CWord.arrs, CWord.vecs, CWord.gens, CWord.xfer, CWord.xbars, CWord.descSlot, macSlots, hop]
  rfl

theorem macSlots_one (a port acc : Nat) (hport : port ≤ 1) :
    macSlots x [(a, port, acc)] t = x.cells.foldl (macCell x port [(a, acc)]) t := by
  obtain rfl | rfl : port = 0 ∨ port = 1 := by omega
  · rfl
  · rfl

theorem slotsTick_mac (a : Fin 8) (xport acc : BitVec 2) (hport : xport.toNat ≤ 1) :
    slotsTick x (slotAlone g (.arr a (.mac xport acc))) t =
      readTiles x (x.cells.foldl (macCell x xport.toNat [(a.val, acc.toNat)]) t) :=
  congrArg (readTiles x) (macSlots_one x t a.val xport.toNat acc.toNat hport)

end

/-! ### The kinds of slot that the statements name -/

/-- A slot that is no L slot and no P slot, and writes no count register. -/
structure PlainSlot (slot : Slot) : Prop where
  unlooped : ∀ g, CWord.loopSlot (slotAlone g slot) = none
  unpredicated : ∀ g, CWord.predSlot (slotAlone g slot) = none
  uncounted : ∀ x g d, countWrite x (slotAlone g slot) d = .ok none

theorem plainSlot_arr (a : Fin 8) (s : ArrSlot) : PlainSlot (.arr a s) := ⟨fun _ => rfl, fun _ => rfl, fun _ _ _ => rfl⟩
theorem plainSlot_vec (p : Fin 2) (s : VecSlot) : PlainSlot (.vec p s) := ⟨fun _ => rfl, fun _ => rfl, fun _ _ _ => rfl⟩
theorem plainSlot_gen (k : Fin 4) (s : GenSlot) : PlainSlot (.gen k s) := ⟨fun _ => rfl, fun _ => rfl, fun _ _ _ => rfl⟩
theorem plainSlot_xfer (p : Fin 2) (s : XferSlot) : PlainSlot (.xfer p s) :=
  ⟨fun _ => rfl, fun _ => rfl, fun _ _ _ => rfl⟩

theorem enterLoop_unlooped {w : CWord} (h : CWord.loopSlot w = none) (r start ia : Nat) (runs : Bool) (d : Dev) :
    enterLoop r start ia runs w d = .ok (d.reg r, false) := by
  rw [enterLoop, h]

/-- A count register takes what the D slot gave it (R83). -/
def writeCount (r : Nat) (cnt : Option (Nat × Nat)) (d : Dev) : Dev :=
  match cnt with
  | some (n, v) => d.setRw R.SEQ_LOOP_COUNT_count (r * 16 + n) v
  | none => d

/-- The close of a word's tick that writes no predicate. -/
theorem closeWord_unpredicated {x : Ctx} {w : CWord} (h : CWord.predSlot w = none) (units : Nat)
    (cnt : Option (Nat × Nat)) (clamped : Bool) :
    closeWord x w units cnt clamped = fun d => closeTick x w.rep.toNat units clamped (writeCount x.r cnt d) := by
  funext d
  simp only [closeWord, h]
  cases cnt <;> rfl

section
variable {i : Instr} {s : State} {r : Region} {g : Gov} {slot : Slot}
  (harm : exec i s = active (dieOf r.val) (slotWord r.val g [slot]) s)
include harm

theorem becomes_slotWord {f : RegionSt → RegionSt} {accs : List Acc} (hruns : SlotRuns r.val g f slot accs s.dev) :
    Becomes i s (slotWord r.val g [slot] s.dev) := becomes_of_active harm hruns.1 hruns.2.1

/-- A word of one slot that is no L slot. -/
theorem becomes_slotDone {t : Trial} {cnt : Option (Nat × Nat)} {mid : Dev → Dev}
    (hloop : CWord.loopSlot (slotAlone g slot) = none)
    (hcount : countWrite (slotCtx r.val g id s.dev) (slotAlone g slot) (slotBegun r.val g id s.dev) = .ok cnt)
    (htick : slotsTick (slotCtx r.val g id s.dev) (slotAlone g slot) { d := slotBegun r.val g id s.dev } = t)
    (herrs : t.errs = [])
    (hclose : closeWord (slotCtx r.val g id s.dev) (slotAlone g slot) 7 cnt false =
      fun e => closeTick (slotCtx r.val g id s.dev) 0 7 false (mid e))
    (hruns : SlotRuns r.val g id slot t.accs s.dev) :
    Becomes i s (slotDone r.val g id slot t.accs false mid t.d s.dev) :=
  (becomes_slotWord harm hruns).trans
    (slotWord_runs (f := id) (enterLoop_unlooped hloop ..) hcount htick herrs hclose hruns)

theorem slotTries_of_tick {trial : Ctx → Trial → Trial} (hslot : PlainSlot slot)
    (htick : ∀ t, slotsTick (slotCtx r.val g id s.dev) (slotAlone g slot) t = trial (slotCtx r.val g id s.dev) t) :
    SlotTries i s r g slot trial := by
  intro herrs hruns
  exact becomes_slotDone harm (cnt := none) (mid := id) (hslot.unlooped g) (hslot.uncounted ..) (htick _) herrs
    (closeWord_unpredicated (hslot.unpredicated g) ..) hruns

theorem slotGives_of_tick {early late : Ctx → Dev → Dev} {t : Trial} (hslot : PlainSlot slot)
    (ht : readTiles (slotCtx r.val g id s.dev)
      { d := early (slotCtx r.val g id s.dev) (slotBegun r.val g id s.dev) } = t)
    (htick : slotsTick (slotCtx r.val g id s.dev) (slotAlone g slot) { d := slotBegun r.val g id s.dev } =
      { t with d := late (slotCtx r.val g id s.dev) t.d }) :
    SlotGives i s r g slot early late := by
  intro hruns
  have herrs : t.errs = [] := ht ▸ errs_readTiles ..
  rw [ht] at hruns ⊢
  exact becomes_slotDone harm (t := { t with d := late (slotCtx r.val g id s.dev) t.d }) (cnt := none) (mid := id)
    (hslot.unlooped g) (hslot.uncounted ..) htick herrs (closeWord_unpredicated (hslot.unpredicated g) ..) hruns

theorem slotEnds_of_close {mid : Ctx → Dev → Dev} {cnt : Option (Nat × Nat)}
    (hloop : CWord.loopSlot (slotAlone g slot) = none)
    (htick : ∀ t, slotsTick (slotCtx r.val g id s.dev) (slotAlone g slot) t = readTiles (slotCtx r.val g id s.dev) t)
    (hcount : countWrite (slotCtx r.val g id s.dev) (slotAlone g slot) (slotBegun r.val g id s.dev) = .ok cnt)
    (hclose : closeWord (slotCtx r.val g id s.dev) (slotAlone g slot) 7 cnt false = fun e =>
      closeTick (slotCtx r.val g id s.dev) 0 7 false (mid (slotCtx r.val g id s.dev) e)) :
    SlotEnds i s r g slot mid := by
  intro hruns
  exact becomes_slotDone harm hloop hcount (htick _) (errs_readTiles ..) hclose hruns

end

theorem slotLoops_of_enter {i : Instr} {s : State} {r : Region} {g : Gov} {l : LoopSlot}
    (harm : exec i s = active (dieOf r.val) (slotWord r.val g [.loop l]) s) {f : RegionSt → RegionSt} {clamped : Bool}
    (hloop : enterLoop r.val ((slotStart r.val s.dev).reg r.val).planTicks ((slotStart r.val s.dev).imagePc r.val)
      (!((slotStart r.val s.dev).reg r.val).skipL) (slotAlone g (.loop l))
      (beginWord r.val g (slotStart r.val s.dev)) =
        .ok (f ((beginWord r.val g (slotStart r.val s.dev)).reg r.val), clamped)) :
    SlotLoops i s r g (.loop l) f clamped := by
  intro hruns
  exact (becomes_slotWord harm hruns).trans (slotWord_runs (cnt := none) (mid := id) hloop rfl (slotsTick_loop ..)
    (errs_readTiles ..) (closeWord_unpredicated rfl ..) hruns)

end Sys2Proof.Machine
end

section
/-! SUPPORT. CLEAR, WSWAP and MAC (R75, R110, R113), the special functions, TOPK and REDUCE (R77, R124, R126, R130). -/

namespace Sys2Proof.Machine

/-! ### Steps of the cells that may fail -/

theorem Trial.errs_fail_ne (t : Trial) (e : Ev) : (t.fail e).errs ≠ [] := List.append_ne_nil_of_right_ne_nil _ (by simp)

/-- A step that changes the device alone, or fails, and keeps the faults found. -/
structure StepsDevice (f : Trial → Nat → Trial) (g : Dev → Nat → Dev) : Prop where
  keeps : ∀ t c, t.errs ≠ [] → (f t c).errs ≠ []
  step : ∀ t c, (f t c).errs ≠ [] ∨ f t c = { t with d := g t.d c }

section
variable {f : Trial → Nat → Trial} {g : Dev → Nat → Dev} (h : StepsDevice f g)
include h

theorem StepsDevice.errs_foldl {cells : List Nat} {t : Trial} (ht : t.errs ≠ []) : (cells.foldl f t).errs ≠ [] := by
  induction cells generalizing t with
  | nil => exact ht
  | cons c cells ih => exact ih (h.keeps t c ht)

/-- A trial that ends without a fault has met none on its way. -/
theorem StepsDevice.forCells {cells : List Nat} {t : Trial} (hend : (t.forCells cells f).errs = []) :
    t.forCells cells f = { t with d := cells.foldl g t.d } := by
  unfold Trial.forCells at hend ⊢
  induction cells generalizing t with
  | nil => rfl
  | cons c cells ih =>
    rw [List.foldl_cons] at hend ⊢
    have hstep := (h.step t c).resolve_left fun hbad => h.errs_foldl hbad hend
    rw [ih hend, hstep, List.foldl_cons]

end

/-! ### CLEAR and WSWAP -/

theorem clearSlot_eq (x : Ctx) (a : Nat) (acc : BitVec 2) (win : BitVec 8) (t : Trial) :
    clearSlot x a acc win t =
      { t with d := x.live.foldl (fun d c => d.modSet x.r c a acc.toNat (fun _ => { win := win.toInt })) t.d } :=
  forCells_device (fun d c => d.modSet x.r c a acc.toNat (fun _ => { win := win.toInt })) t x.live

/-- The two weight buffers of an array exchanged (R75). -/
def swapBuffers (r a : Nat) (d : Dev) (c : Nat) : Dev :=
  d.modArr r c a (fun y => { y with active := y.standby, standby := y.active })

theorem wswapSlot_eq {x : Ctx} {a : Nat} {t : Trial} (hfree : (wswapSlot x a t).errs = []) :
    wswapSlot x a t = { t with d := x.live.foldl (swapBuffers x.r a) t.d } := by
  refine StepsDevice.forCells ⟨fun t c ht => ?_, fun t c => ?_⟩ hfree
  · split
    · split
      · exact t.errs_fail_ne _
      · exact ht
    · exact ht
  · split
    · split
      · exact .inl (t.errs_fail_ne _)
      · exact .inr rfl
    · exact .inr rfl

/-- Settles O1: each slot's tick, its cells one by one; a WSWAP that its trial admits fails in none of them. -/
theorem arraySlotsComplete : Obligations.ArraySlotsComplete := by
  refine ⟨fun s r g a acc win => ?clear, fun s r g a hfree => ?wswap, fun s r g a xport acc hxport => ?mac⟩
  case clear => exact slotGives_of_tick rfl (plainSlot_arr ..) rfl ((slotsTick_clear ..).trans (clearSlot_eq ..))
  case wswap => exact slotGives_of_tick rfl (plainSlot_arr ..) rfl ((slotsTick_wswap ..).trans (wswapSlot_eq hfree))
  case mac => exact slotTries_of_tick rfl (plainSlot_arr ..) fun t => slotsTick_mac _ _ _ a xport acc hxport

/-! ### Operations on registers alone -/

theorem modCell_congr {d : Dev} {r c : Nat} {f g : CellSt → CellSt} (h : f (d.cell r c) = g (d.cell r c)) :
    d.modCell r c f = d.modCell r c g :=
  congrArg (fun v => d.setReg r { d.reg r with cells := tput {} (d.reg r).cells c v }) h

/-- The result of an operation put on its way in a cell (R133). -/
def flyResult (x : Ctx) (p : Nat) (s : VecSlot) (lanes : CellSt → List Nat) (d : Dev) (c : Nat) : Dev :=
  d.modCell x.r c (fun u => { u with vfly := u.vfly ++ [
    { due := x.tick + opLatency s.op s.bf16 - 1, issue := x.tick, port := p, vd := s.vd.toNat, shift := 0,
      data := regOfLanes s.bf16 (lanes u) }] })

theorem fly_eq (t : Trial) (x : Ctx) (p : Nat) (s : VecSlot) (lanes : CellSt → List Nat) (c : Nat) :
    t.fly x c { due := x.tick + opLatency s.op s.bf16 - 1, issue := x.tick, port := p, vd := s.vd.toNat, shift := 0,
                data := regOfLanes s.bf16 (lanes (t.d.cell x.r c)) } =
      { t with d := flyResult x p s lanes t.d c } := by
  unfold Trial.fly flyResult
  rw [modCell_congr]
  rfl

/-- The result lanes of an operation on registers alone. -/
def aluLanes (s : VecSlot) (u : CellSt) : List Nat :=
  let a := regLanes s.bf16 (u.vreg s.va.toNat)
  let b := regLanes s.bf16 (u.vreg s.vb.toNat)
  let c := regLanes s.bf16 (u.vreg s.vc.toNat)
  match s.op with
  | .topk => topkLanes (s.mod.toNat + 1) a b
  | .reduce => reduceLanes s.bf16 s.mod.toNat a
  | op => (List.range (laneCount s.bf16)).map (fun i =>
      laneOp op s.bf16 s.mod.toNat (a.getD i 0) (b.getD i 0) (c.getD i 0))

/-- The special-function unit of a cell taken (R77). -/
def takeUnit (x : Ctx) (bf16 : Bool) (d : Dev) (c : Nat) : Dev :=
  d.modCell x.r c (fun u => { u with sfuFree := x.tick + if bf16 then 8 else 4 })

section
variable {x : Ctx} {p : Nat} {s : VecSlot}

theorem aluCell_unspecial (hs : opSpecial s.op = false) (t : Trial) (c : Nat) :
    aluCell x p s t c = { t with d := flyResult x p s (aluLanes s) t.d c } := by
  rw [← fly_eq, aluCell, if_neg (Bool.eq_false_iff.mp hs)]
  rfl

variable (hs : opSpecial s.op = true)
include hs

theorem aluCell_special (t : Trial) (c : Nat) :
    aluCell x p s t c = { takeSfu x s.bf16 t c with d := flyResult x p s (aluLanes s) (takeSfu x s.bf16 t c).d c } := by
  rw [← fly_eq, aluCell, if_pos hs]
  rfl

theorem aluCell_steps :
    StepsDevice (aluCell x p s) (fun d c => flyResult x p s (aluLanes s) (takeUnit x s.bf16 d c) c) where
  keeps t c ht := by
    rw [aluCell_special hs, takeSfu]
    split
    · exact t.errs_fail_ne _
    · exact ht
  step t c := by
    rw [aluCell_special hs, takeSfu]
    split
    · exact .inl (t.errs_fail_ne _)
    · exact .inr rfl

end

theorem opSpecial_iff {o : VecOp} : opSpecial o = true ↔ o = .exp2 ∨ o = .log2 ∨ o = .rcp ∨ o = .rsqrt := by
  cases o <;> decide

/-- One cell's result, as the statements write it. -/
theorem alu_one {s : VecSlot} {lat : Nat} {f : Val → Val → Val → Val} (hlat : opLatency s.op s.bf16 = lat)
    (hlanes : ∀ u, aluLanes s u = (List.range (laneCount s.bf16)).map (fun i =>
      toLane s.bf16 (f (laneVal s.bf16 ((regLanes s.bf16 (u.vreg s.va.toNat)).getD i 0))
        (laneVal s.bf16 ((regLanes s.bf16 (u.vreg s.vb.toNat)).getD i 0))
        (laneVal s.bf16 ((regLanes s.bf16 (u.vreg s.vc.toNat)).getD i 0))))) (x : Ctx) (p : Nat) (d : Dev) (c : Nat) :
    alu p s.bf16 s.vd s.va s.vb s.vc lat f { x with cells := [c], shadow := [] } d = flyResult x p s (aluLanes s) d c := by
  subst hlat
  rw [funext hlanes]
  rfl

theorem aluLanes_special {s : VecSlot} (hs : opSpecial s.op = true) (u : CellSt) :
    aluLanes s u = (List.range (laneCount s.bf16)).map (fun i => laneOp s.op s.bf16 s.mod.toNat
      ((regLanes s.bf16 (u.vreg s.va.toNat)).getD i 0) ((regLanes s.bf16 (u.vreg s.vb.toNat)).getD i 0)
      ((regLanes s.bf16 (u.vreg s.vc.toNat)).getD i 0)) := by
  obtain ⟨op, bf16, vd, va, vb, vc, m, arg⟩ := s
  obtain rfl | rfl | rfl | rfl := opSpecial_iff.mp hs
  all_goals rfl

theorem aluAll_eq {s : VecSlot} {lat : Nat} {f : List Nat → List Nat → List Nat} (hlat : opLatency s.op s.bf16 = lat)
    (hlanes : ∀ u, aluLanes s u = f (regLanes s.bf16 (u.vreg s.va.toNat)) (regLanes s.bf16 (u.vreg s.vb.toNat)))
    (x : Ctx) (p : Nat) (d : Dev) :
    aluAll p s.bf16 s.vd s.va s.vb lat f x d = x.live.foldl (flyResult x p s (aluLanes s)) d := by
  subst hlat
  rw [funext hlanes]
  rfl

/-- TOPK and REDUCE on port 0: no check of theirs can fail. -/
theorem vecSlot_whole {x : Ctx} {s : VecSlot} {lat : Nat} {f : List Nat → List Nat → List Nat}
    (hop : s.op = .topk ∧ s.bf16 = false ∨ s.op = .reduce) (hlat : opLatency s.op s.bf16 = lat)
    (hlanes : ∀ u, aluLanes s u = f (regLanes s.bf16 (u.vreg s.va.toNat)) (regLanes s.bf16 (u.vreg s.vb.toNat)))
    (t : Trial) : vecSlot x 0 s t = { t with d := aluAll 0 s.bf16 s.vd s.va s.vb lat f x t.d } := by
  have hs : opSpecial s.op = false := by rcases hop with ⟨h, -⟩ | h <;> rw [h] <;> rfl
  have hcells : vecSlot x 0 s t = t.forCells x.live (aluCell x 0 s) := by
    obtain ⟨op, bf16, vd, va, vb, vc, m, arg⟩ := s
    obtain ⟨rfl, rfl⟩ | rfl := hop
    · rfl
    · rfl
  rw [hcells, funext₂ (aluCell_unspecial hs), forCells_device, aluAll_eq hlat hlanes]

/-- A special function of one operand that is free in every live cell. -/
theorem vecSlot_special {x : Ctx} {p : Nat} {op : VecOp} {f : Val → Val} {bf16 : Bool} {vd va : BitVec 5} {t : Trial}
    (hs : opSpecial op = true) (hf : ∀ a b c, laneOp op bf16 0 a b c = toLane bf16 (f (laneVal bf16 a)))
    (hfree : (vecSlot x p ⟨op, bf16, vd, va, 0, 0, 0, 0⟩ t).errs = []) :
    vecSlot x p ⟨op, bf16, vd, va, 0, 0, 0, 0⟩ t =
      { t with d := x.live.foldl (fun d c => alu p bf16 vd va 0 0 (if bf16 then 14 else 10) (fun a _ _ => f a)
          { x with cells := [c], shadow := [] } (takeUnit x bf16 d c)) t.d } := by
  have hcells : vecSlot x p ⟨op, bf16, vd, va, 0, 0, 0, 0⟩ t =
      t.forCells x.live (aluCell x p ⟨op, bf16, vd, va, 0, 0, 0, 0⟩) := by
    obtain rfl | rfl | rfl | rfl := opSpecial_iff.mp hs
    all_goals rfl
  have hone := alu_one (s := ⟨op, bf16, vd, va, 0, 0, 0, 0⟩) (lat := if bf16 then 14 else 10) (f := fun a _ _ => f a)
    (by obtain rfl | rfl | rfl | rfl := opSpecial_iff.mp hs
        all_goals rfl)
    (fun u => (aluLanes_special hs u).trans (List.map_congr_left fun i _ => hf ..)) x p
  rw [hcells] at hfree ⊢
  rw [(aluCell_steps hs).forCells hfree]
  simp only [← hone]

section
variable {i : Instr} {s : State} {r : Region} {g : Gov}

theorem slotGives_special {p : Fin 2} {op : VecOp} {f : Val → Val} {bf16 : Bool} {vd va : BitVec 5}
    (harm : exec i s = active (dieOf r.val) (slotWord r.val g [.vec p ⟨op, bf16, vd, va, 0, 0, 0, 0⟩]) s)
    (hop : decide (op = .rdacc) = false) (hs : opSpecial op = true)
    (hf : ∀ a b c, laneOp op bf16 0 a b c = toLane bf16 (f (laneVal bf16 a)))
    (hfree : (vecSlot (slotCtx r.val g id s.dev) p.val ⟨op, bf16, vd, va, 0, 0, 0, 0⟩
      (readTiles (slotCtx r.val g id s.dev) { d := slotBegun r.val g id s.dev })).errs = []) :
    SlotGives i s r g (.vec p ⟨op, bf16, vd, va, 0, 0, 0, 0⟩) unchanged (fun x d => x.live.foldl (fun d c =>
      alu p.val bf16 vd va 0 0 (if bf16 then 14 else 10) (fun a _ _ => f a) { x with cells := [c], shadow := [] }
        (takeUnit x bf16 d c)) d) :=
  slotGives_of_tick harm (plainSlot_vec ..) rfl ((slotsTick_vec _ _ _ p hop).trans (vecSlot_special hs hf hfree))

theorem slotGives_whole {v : VecSlot} {lat : Nat} {f : List Nat → List Nat → List Nat}
    (harm : exec i s = active (dieOf r.val) (slotWord r.val g [.vec 0 v]) s) (hrdacc : decide (v.op = .rdacc) = false)
    (hop : v.op = .topk ∧ v.bf16 = false ∨ v.op = .reduce) (hlat : opLatency v.op v.bf16 = lat)
    (hlanes : ∀ u, aluLanes v u = f (regLanes v.bf16 (u.vreg v.va.toNat)) (regLanes v.bf16 (u.vreg v.vb.toNat))) :
    SlotGives i s r g (.vec 0 v) unchanged (aluAll 0 v.bf16 v.vd v.va v.vb lat f) :=
  slotGives_of_tick harm (plainSlot_vec ..) rfl ((slotsTick_vec _ _ _ 0 hrdacc).trans (vecSlot_whole hop hlat hlanes _))

end

/-- Settles O3: a special function takes the unit of each live cell and sends its lanes on their way; TOPK and REDUCE
send theirs. -/
theorem specialFunctionsComplete : Obligations.SpecialFunctionsComplete := by
  intro s r g p bf16 vd va vb m taken free
  refine ⟨fun h => ?exp2, fun h => ?log2, fun h => ?rcp, fun h => ?rsqrt, ?topk, ?reduce⟩
  case exp2 => exact slotGives_special rfl rfl rfl (fun _ _ _ => rfl) h
  case log2 => exact slotGives_special rfl rfl rfl (fun _ _ _ => rfl) h
  case rcp => exact slotGives_special rfl rfl rfl (fun _ _ _ => rfl) h
  case rsqrt => exact slotGives_special rfl rfl rfl (fun _ _ _ => rfl) h
  case topk => exact slotGives_whole rfl rfl (.inl ⟨rfl, rfl⟩) rfl (fun _ => rfl)
  case reduce => exact slotGives_whole rfl rfl (.inr rfl) rfl (fun _ => rfl)

end Sys2Proof.Machine
end

section
/-! SUPPORT. The generator and transfer slots (R78, R80, R392, R548). -/

namespace Sys2Proof.Machine

/-! ### START, STEP and SETPOS -/

/-- A generator takes a state (R78). -/
def putGen (r k : Nat) (v : GenState) (d : Dev) : Dev := d.modReg r (fun u => { u with gens := tput none u.gens k (some v) })

theorem genSlot_start {x : Ctx} {t : Trial} {h : BitVec 16} {desc : Desc} {sel : Nat}
    (hresolve : t.d.resolve x.r h x.start = .ok (desc, sel)) (k : Nat) :
    genSlot x k (.start h) t = { t with d := putGen x.r k { desc := desc, select := sel, pos := 0 } t.d } := by
  simp only [genSlot, hresolve, Trial.bind]
  rfl

section
variable {x : Ctx} {t : Trial} {k : Nat} {v : GenState} (hgen : tget none (t.d.reg x.r).gens k = some v) (n : BitVec 24)
include hgen

theorem genSlot_step :
    genSlot x k (.step n) t = { t with d := putGen x.r k { v with pos := (v.pos + n.toNat) % v.desc.total } t.d } := by
  simp only [genSlot, hgen]
  rfl

theorem genSlot_setpos :
    genSlot x k (.setpos n) t = { t with d := putGen x.r k { v with pos := n.toNat % v.desc.total } t.d } := by
  simp only [genSlot, hgen]
  rfl

end

theorem slotGives_gen {i : Instr} {s : State} {r : Region} {g : Gov} {k : Fin 4} {l : GenSlot} {v : GenState}
    (harm : exec i s = active (dieOf r.val) (slotWord r.val g [.gen k l]) s)
    (h : genSlot (slotCtx r.val g id s.dev) k.val l { d := slotBegun r.val g id s.dev } =
      { d := putGen r.val k.val v (slotBegun r.val g id s.dev) }) :
    SlotGives i s r g (.gen k l) (fun _ => putGen r.val k.val v) unchanged :=
  slotGives_of_tick harm (plainSlot_gen ..) rfl ((slotsTick_gen ..).trans (congrArg _ h))

/-- Settles O5: what each slot makes of its generator, before the tick's tile reads. -/
theorem generatorSlotsComplete : Obligations.GeneratorSlotsComplete := by
  intro s r g k b put
  refine ⟨fun h desc sel hresolve => ?start, fun n v hgen => ⟨?step, ?setpos⟩⟩
  case start => exact slotGives_gen rfl (genSlot_start (x := slotCtx r.val g id s.dev) (t := { d := b }) hresolve k.val)
  case step => exact slotGives_gen rfl (genSlot_step hgen n)
  case setpos => exact slotGives_gen rfl (genSlot_setpos hgen n)

/-! ### The transfer slots -/

theorem xferSlot_land {x : Ctx} {t : Trial} {id : BitVec 8} (h : (t.d.landing x.r id.toNat).isSome = true) (p : Nat) :
    xferSlot x p (.land id) t = t := if_pos h

/-- Settles O6: each slot's own trial, then the tick's tile reads; a LAND of a declared landing does nothing of its
own. -/
theorem transferSlotsComplete : Obligations.TransferSlotsComplete := by
  intro s r g p h cell channel link block source index stream landing
  refine ⟨?csend, ?bsend, ?xsend, ?xrecv, ?lsend, ?lread, fun hdeclared => ?land⟩
  case csend => exact slotTries_of_tick rfl (plainSlot_xfer ..) fun t => slotsTick_xfer ..
  case bsend => exact slotTries_of_tick rfl (plainSlot_xfer ..) fun t => slotsTick_xfer ..
  case xsend => exact slotTries_of_tick rfl (plainSlot_xfer ..) fun t => slotsTick_xfer ..
  case xrecv => exact slotTries_of_tick rfl (plainSlot_xfer ..) fun t => slotsTick_xfer ..
  case lsend => exact slotTries_of_tick rfl (plainSlot_xfer ..) fun t => slotsTick_xfer ..
  case lread => exact slotTries_of_tick rfl (plainSlot_xfer ..) fun t => slotsTick_xfer ..
  case land =>
    exact slotGives_of_tick rfl (plainSlot_xfer ..) rfl ((slotsTick_xfer ..).trans (congrArg _ (xferSlot_land hdeclared _)))

end Sys2Proof.Machine
end

section
/-! SUPPORT. The descriptor and predicate slots (R82 to R84). -/

namespace Sys2Proof.Machine

/-! ### The count that a D slot gives -/

theorem plainSlot_table {s : DescSlot} (hs : ∀ x d, descCounts x s d = .ok none) : PlainSlot (.desc s) :=
  ⟨fun _ => rfl, fun _ => rfl, fun x g d => by
    change (if x.first = true then descCounts x s d else _) = _
    rw [hs, ite_self]⟩

theorem descCounts_dload (gen : BitVec 2) (h : BitVec 16) (x : Ctx) (d : Dev) :
    descCounts x (.dload gen h) d = .ok none := ite_self _

theorem descCounts_dbase (gen : BitVec 2) (h : BitVec 16) (x : Ctx) (d : Dev) :
    descCounts x (.dbase gen h) d = .ok none := ite_self _

theorem descCounts_cntsrc (dim : BitVec 3) (h : BitVec 16) (x : Ctx) (d : Dev) :
    descCounts x (.cntsrc dim h) d = .ok none := ite_self _

theorem descCounts_shadow {x : Ctx} (hshadow : x.leadShadow = true) (s : DescSlot) (d : Dev) :
    descCounts x s d = .ok none := if_pos hshadow

theorem descCounts_cntset {x : Ctx} (hlive : x.leadShadow = false) (v : BitVec 24) (n : BitVec 4) (d : Dev) :
    descCounts x (.cntset v n) d = .ok (some (n.toNat, v.toNat)) := if_neg (Bool.eq_false_iff.mp hlive)

theorem descCounts_cntld {x : Ctx} (hlive : x.leadShadow = false) {d : Dev} {h : BitVec 16} {desc : Desc} {sel : Nat}
    (hresolve : d.resolve x.r h x.start = .ok (desc, sel)) (dim : BitVec 3) (n : BitVec 4) :
    descCounts x (.cntld dim n h) d = .ok (some (n.toNat, desc.extent dim.toNat)) := by
  simp only [descCounts, hlive, Bool.false_eq_true, if_false, hresolve]

section
variable {i : Instr} {s : State} {r : Region} {g : Gov} {l : DescSlot}
  (harm : exec i s = active (dieOf r.val) (slotWord r.val g [.desc l]) s)
  (hcounter : ∀ x t, descSlot x l t = t)
include harm hcounter

/-- CNTSRC, CNTLD and CNTSET: the count register takes what the slot gives. -/
theorem slotEnds_of_count {mid : Ctx → Dev → Dev} {cnt : Option (Nat × Nat)}
    (hcount : descCounts (slotCtx r.val g id s.dev) l (slotBegun r.val g id s.dev) = .ok cnt)
    (hmid : ∀ d, writeCount r.val cnt d = mid (slotCtx r.val g id s.dev) d) : SlotEnds i s r g (.desc l) mid :=
  slotEnds_of_close harm rfl (fun t => (slotsTick_desc _ g t rfl l).trans (hcounter ..)) hcount
    ((closeWord_unpredicated rfl ..).trans (funext fun d => congrArg (closeTick _ 0 7 false) (hmid d)))

end

/-- Settles O8: DLOAD and DBASE by their trial, the count slots by the count that they give. -/
theorem descriptorSlotsComplete : Obligations.DescriptorSlotsComplete := by
  intro s r g gen h dim n value x
  refine ⟨?dload, ?dbase, ?cntsrc, fun hlive => ⟨?cntset, fun desc sel hresolve => ?cntld⟩,
    fun hshadow => ⟨?cntsetShadow, ?cntldShadow⟩⟩
  case dload =>
    exact slotTries_of_tick rfl (plainSlot_table (descCounts_dload gen h)) fun t => slotsTick_desc _ g t rfl _
  case dbase =>
    exact slotTries_of_tick rfl (plainSlot_table (descCounts_dbase gen h)) fun t => slotsTick_desc _ g t rfl _
  case cntsrc => exact slotEnds_of_count rfl (fun _ _ => rfl) (descCounts_cntsrc ..) fun _ => rfl
  case cntset => exact slotEnds_of_count rfl (fun _ _ => rfl) (descCounts_cntset hlive ..) fun _ => rfl
  case cntld => exact slotEnds_of_count rfl (fun _ _ => rfl) (descCounts_cntld (x := x) hlive hresolve ..) fun _ => rfl
  case cntsetShadow => exact slotEnds_of_count rfl (fun _ _ => rfl) (descCounts_shadow hshadow ..) fun _ => rfl
  case cntldShadow => exact slotEnds_of_count rfl (fun _ _ => rfl) (descCounts_shadow hshadow ..) fun _ => rfl

/-! ### The predicate slots -/

theorem closeWord_pred {x : Ctx} (hfirst : x.first = true) (g : Gov) (l : PredSlot) (d : Dev) :
    closeWord x (slotAlone g (.pred l)) 7 none false d = closeTick x 0 7 false (predSlot x l { d := d }).d :=
  congrArg (closeTick x 0 7 false) (if_pos hfirst)

/-- Each live cell takes its value into the slot's register (R84). -/
theorem predSlot_eq {x : Ctx} {l : PredSlot} {v : Dev → Nat → Bool}
    (hv : ∀ d c, predValue x l c (bit (d.planFree x.r (some c) x.tick 130) 0) d = v d c) (d : Dev) :
    (predSlot x l { d := d }).d = x.live.foldl (fun d c => d.modCell x.r c (fun u =>
      { u with preds := BitVec.ofNat 16 (setBit u.preds.toNat (predDest l) (v d c)) })) d := by
  simp only [predSlot, hv]
  exact congrArg Trial.d (forCells_device (fun d c => d.modCell x.r c (fun u =>
    { u with preds := BitVec.ofNat 16 (setBit u.preds.toNat (predDest l) (v d c)) })) { d := d } x.live)

theorem slotEnds_of_pred {i : Instr} {s : State} {r : Region} {g : Gov} {l : PredSlot} {pd : BitVec 4}
    {v : Dev → Nat → Bool} (harm : exec i s = active (dieOf r.val) (slotWord r.val g [.pred l]) s)
    (hpd : predDest l = pd.toNat)
    (hv : ∀ d c, predValue (slotCtx r.val g id s.dev) l c
      (bit (d.planFree r.val (some c) (slotCtx r.val g id s.dev).tick 130) 0) d = v d c) :
    SlotEnds i s r g (.pred l) (predicates pd v) := by
  refine slotEnds_of_close harm rfl (fun t => slotsTick_pred ..) rfl (funext fun e => ?_)
  rw [closeWord_pred rfl, predSlot_eq hv, hpd]
  rfl

theorem predValue_pcix (x : Ctx) (pd : BitVec 4) (select : BitVec 2) (cmp : BitVec 3) (imm : BitVec 24) (c : Nat)
    (free : Bool) (d : Dev) :
    predValue x (.pcix pd select cmp imm) c free d =
      (let v := d.cix x.r c select.toNat
       if cmp = 0 then decide (v = imm.toNat) else if cmp = 1 then decide (v ≠ imm.toNat)
       else if cmp = 2 then decide (v < imm.toNat) else decide (v ≥ imm.toNat)) := by
  simp only [predValue, ← BitVec.toNat_inj]
  split <;> simp_all

theorem predValue_plog (x : Ctx) (pd pa pb : BitVec 4) (op : BitVec 2) (c : Nat) (free : Bool) (d : Dev) :
    predValue x (.plog pd pa pb op) c free d =
      (let a := (d.cell x.r c).pred pa.toNat
       let b := (d.cell x.r c).pred pb.toNat
       if op = 0 then a && b else if op = 1 then a || b else if op = 2 then a != b else a && !b) := by
  simp only [predValue, ← BitVec.toNat_inj]
  split <;> simp_all

/-- Settles O9: each slot writes in every live cell the value that it gives there. -/
theorem predicateSlotsComplete : Obligations.PredicateSlotsComplete := by
  intro s r g pd pa pb n select op cmp imm reg lane
  refine ⟨?pcix, ?plog, ?pcnt, ?pvec⟩
  case pcix => exact slotEnds_of_pred rfl rfl fun d c => predValue_pcix ..
  case plog => exact slotEnds_of_pred rfl rfl fun d c => predValue_plog ..
  case pcnt => exact slotEnds_of_pred rfl rfl fun d c => rfl
  case pvec => exact slotEnds_of_pred rfl rfl fun d c => rfl

end Sys2Proof.Machine
end

section
/-! SUPPORT. The loop and branch slots (R85 to R92). -/

namespace Sys2Proof.Machine

/-- The image address of a loop's end word (R99). -/
def Dev.endAddr (d : Dev) (r ia : Nat) (last : BitVec 21) : Nat :=
  d.lastPage r (ia / 32768) (last.toNat / 32768) * 32768 + last.toNat % 32768

/-- The region in one loop more (R86). -/
def enterFrame (k : LoopFrame) (u : RegionSt) : RegionSt := { u with loops := k :: u.loops }

/-- An address lies beyond the innermost loop's end word. -/
def beyondLoop (a : Nat) : List LoopFrame → Bool
  | [] => false
  | k :: _ => decide (a > k.last)

theorem beyondLoop_eq_false {a : Nat} {l : List LoopFrame} (h : ∀ k ∈ l.head?, a ≤ k.last) : beyondLoop a l = false := by
  cases l with
  | nil => rfl
  | cons k l => exact decide_eq_false (Nat.not_lt.mpr (h k rfl))

/-- A loop may be entered: the stack has room, and its end word stands at or after the word and within the loop around
it (R86, R91). -/
structure Dev.MayEnter (d : Dev) (r ia : Nat) (last : BitVec 21) : Prop where
  depth : (d.reg r).loops.length < 8
  forward : ia ≤ d.endAddr r ia last
  nested : ∀ k ∈ (d.reg r).loops.head?, d.endAddr r ia last ≤ k.last

section
variable {d : Dev} {r ia start : Nat} {leadShadow : Bool} {ds : Option DescSlot} {last target : BitVec 21}

theorem Dev.MayEnter.not_refused (h : d.MayEnter r ia last) :
    ¬ (d.endAddr r ia last < ia ∨ beyondLoop (d.endAddr r ia last) (d.reg r).loops = true) :=
  not_or_intro (Nat.not_lt.mpr h.forward) (Bool.eq_false_iff.mp (beyondLoop_eq_false h.nested))

theorem loopSlot_loopf (h : d.MayEnter r ia last) (count : BitVec 20) :
    loopSlot d r ia start leadShadow ds (.loopf last count) =
      .ok (enterFrame ⟨false, ia, d.endAddr r ia last, count.toNat + 1, count.toNat + 1, 0⟩ (d.reg r), false) := by
  refine (if_neg (Nat.not_le.mpr h.depth)).trans ((if_neg h.not_refused).trans ?_)
  exact congrArg (fun m => Except.ok
    (enterFrame ⟨false, ia, d.endAddr r ia last, count.toNat + 1, m, 0⟩ (d.reg r), false)) (Nat.min_self _)

/-- The count that a LOOPB latches from its register, before its ceiling (R87). -/
def Dev.tally (d : Dev) (r : Nat) (leadShadow : Bool) (n : BitVec 4) : Nat :=
  if leadShadow then 0 else d.get R.SEQ_LOOP_COUNT_count (r * 16 + n.toNat)

theorem loopSlot_loopb (h : d.MayEnter r ia last) (n : BitVec 4) (ceiling : BitVec 16) :
    loopSlot d r ia start leadShadow ds (.loopb false last n ceiling) =
      .ok (enterFrame ⟨true, ia, d.endAddr r ia last, ceiling.toNat,
          Nat.min (d.tally r leadShadow n) ceiling.toNat, 0⟩ (d.reg r),
        decide (d.tally r leadShadow n > ceiling.toNat)) := by
  refine (if_neg (Nat.not_le.mpr h.depth)).trans ((if_neg h.not_refused).trans ?_)
  cases leadShadow
  · rfl
  · rfl

theorem loopSlot_jmp {q : Nat} (hpage : d.jumpPage r (ia / 32768) (target.toNat / 32768) = some q)
    (hinside : ∀ k ∈ (d.reg r).loops.head?,
      k.start < q * 32768 + target.toNat % 32768 ∧ q * 32768 + target.toNat % 32768 ≤ k.last)
    (hend : ∀ k ∈ (d.reg r).loops, k.last ≠ ia) :
    loopSlot d r ia start leadShadow ds (.jmp target) =
      .ok ({ d.reg r with jump := some (q * 32768 + target.toNat % 32768) }, false) := by
  simp only [loopSlot, hpage]
  refine if_neg ?_
  cases hl : (d.reg r).loops with
  | nil => exact Bool.false_ne_true
  | cons k l =>
    rw [hl] at hinside hend
    simp only [List.head?_cons, Option.mem_some_iff, forall_eq'] at hinside
    have hany : (k :: l).any (fun f => decide (f.last = ia)) = false := by simpa using hend
    rw [hany]
    simpa using hinside

theorem loopSlot_done (h : (d.reg r).loops = []) :
    loopSlot d r ia start leadShadow ds .done = .ok ({ d.reg r with endPending := true }, false) :=
  if_neg (not_not_intro h)

end

theorem enterLoop_loop (r start ia : Nat) (g : Gov) (l : LoopSlot) (d : Dev) :
    enterLoop r start ia true (slotAlone g (.loop l)) d =
      loopSlot d r ia start ((d.reg r).loopShadow || leadShadowed d r) none l := rfl

theorem enterLoop_skipped (r start ia : Nat) (g : Gov) (l : LoopSlot) (d : Dev) :
    enterLoop r start ia false (slotAlone g (.loop l)) d = .ok (d.reg r, false) := rfl

/-- Settles O7: the word becomes what its L slot makes of the region, and on a loop's further iteration the slot makes
nothing of it. -/
theorem loopSlotsComplete : Obligations.LoopSlotsComplete := by
  intro s r g last target count n ceiling a b u ia lia shadow tally enter
  have hrun (hskip : (a.reg r.val).skipL = false) (l : LoopSlot) :
      enterLoop r.val (a.reg r.val).planTicks ia (!(a.reg r.val).skipL) (slotAlone g (.loop l)) b =
        loopSlot b r.val ia (a.reg r.val).planTicks shadow none l := by
    rw [hskip]
    exact enterLoop_loop ..
  have hskipped (hskip : (a.reg r.val).skipL = true) (l : LoopSlot) :
      enterLoop r.val (a.reg r.val).planTicks ia (!(a.reg r.val).skipL) (slotAlone g (.loop l)) b =
        .ok (b.reg r.val, false) := by
    rw [hskip]
    exact enterLoop_skipped ..
  refine ⟨fun hskip hdepth hforward hnested => ⟨?loopf, ?loopb⟩, fun hskip q hpage hinside hend => ?jmp,
    fun hskip hloops => ?done, fun hskip => ?skipped⟩
  case loopf => exact slotLoops_of_enter rfl ((hrun hskip _).trans (loopSlot_loopf ⟨hdepth, hforward, hnested⟩ count))
  case loopb =>
    exact slotLoops_of_enter rfl ((hrun hskip _).trans (loopSlot_loopb ⟨hdepth, hforward, hnested⟩ n ceiling))
  case jmp => exact slotLoops_of_enter rfl ((hrun hskip _).trans (loopSlot_jmp hpage hinside hend))
  case done => exact slotLoops_of_enter rfl ((hrun hskip _).trans (loopSlot_done hloops))
  case skipped => exact slotLoops_of_enter rfl (hskipped hskip _)

end Sys2Proof.Machine
end

section
/-! SUPPORT. What is on its way to a cell (R74, R80, R97, R115, R133, R144). -/

namespace Sys2Proof.Machine

section
variable {r : Nat} {d : Dev}

/-- The ring page that holds the next image page's place may be filled: it is empty, or the sequencer has left what
stands there and no active loop starts in it (R97, R99). -/
def Dev.RingPageFree (d : Dev) (r old : Nat) : Prop :=
  old = 0 ∨ (old ≤ (d.reg r).leftPages ∧ old - 1 ≠ d.get R.SEQ_STREAM_pc_page r ∧
    ∀ f ∈ (d.reg r).loops, f.start / 32768 ≠ old - 1)

theorem ringPageFree_eq_true {old : Nat} (h : d.RingPageFree r old) :
    (decide (old = 0) || (decide (old ≤ (d.reg r).leftPages ∧ old - 1 ≠ d.get R.SEQ_STREAM_pc_page r) &&
      (d.reg r).loops.all (fun f => decide (f.start / 32768 ≠ old - 1)))) = true := by
  obtain hempty | ⟨hleft, hpc, hloops⟩ := h
  · rw [decide_eq_true hempty, Bool.true_or]
  · rw [decide_eq_true (And.intro hleft hpc), List.all_eq_true.mpr fun f hf => decide_eq_true (hloops f hf),
      Bool.and_true, Bool.or_true]

/-- The next image page may go into its ring page (R97, R99). -/
structure Dev.MayFill (d : Dev) (r : Nat) : Prop where
  running : (d.reg r).streamRun = true
  ring : d.get R.SEQ_STREAM_ring_pages r ≠ 0
  past : d.get R.SEQ_STREAM_resident_pages r ≤ (d.reg r).nextFill
  more : (d.reg r).nextFill < (d.reg r).imagePages
  free : d.RingPageFree r (tget 0 (d.reg r).ring (d.planPage r (d.reg r).nextFill))

/-- The plan stream read of the next image page (R97, R171). -/
def Dev.nextPageRead (d : Dev) (r : Nat) : Dev × Bool :=
  let at0 := (d.reg r).pagesAt + (d.reg r).nextFill * 65536
  hbmRead byPlan (some r) (bits at0 39 1) (bits at0 0 39) 65536 d

/-- The page just read stands in its ring page and shows in SEQ_STREAM (R97). -/
def Dev.ringPageTaken (d : Dev) (r : Nat) (x : Dev) : Dev :=
  let q := (d.reg r).nextFill
  let p := d.planPage r q
  let at0 := (d.reg r).pagesAt + q * 65536
  ({ x with mem := copyMem x.mem (hbmKey (bits at0 39 1) (bits at0 0 39)) 65536 (planKey r (p * 65536)) x.mem }.modReg r
    (fun u => { u with ring := tput 0 u.ring p (q + 1), nextFill := q + 1 })).set R.SEQ_STREAM_fill_page r q

theorem execRingPageFill_may (h : d.MayFill r) :
    execRingPageFill r d =
      if (d.nextPageRead r).2 then (d.nextPageRead r).1 else d.ringPageTaken r (d.nextPageRead r).1 :=
  if_pos ⟨h.running, h.ring, h.past, h.more, ringPageFree_eq_true h.free⟩

theorem execRingPageFill_failed (h : d.MayFill r) (hbad : (d.nextPageRead r).2 = true) :
    execRingPageFill r d = (d.nextPageRead r).1 := (execRingPageFill_may h).trans (if_pos hbad)

theorem execRingPageFill_read (h : d.MayFill r) (hok : (d.nextPageRead r).2 = false) :
    execRingPageFill r d = d.ringPageTaken r (d.nextPageRead r).1 :=
  (execRingPageFill_may h).trans (if_neg (Bool.eq_false_iff.mp hok))

end

section
variable {s : State} {r : Region} (hup : s.dev.coreUp (dieOf r.val) = true) (hlive : s.dev.fatal = false)
include hup hlive

theorem becomes_macContribution : Becomes (.macContribution r) s (landContributions r.val s.dev) :=
  becomes_of_active rfl hup hlive

theorem becomes_vectorResult : Becomes (.vectorResult r) s (landResults r.val s.dev) := becomes_of_active rfl hup hlive

theorem becomes_wloadComplete : Becomes (.wloadComplete r) s (landLoads r.val s.dev) := becomes_of_active rfl hup hlive

theorem becomes_stWrite : Becomes (.stWrite r) s (landStores r.val s.dev) := becomes_of_active rfl hup hlive

theorem becomes_transferDelivery : Becomes (.transferDelivery r) s (landDeliveries r.val s.dev) :=
  becomes_of_active rfl hup hlive

theorem becomes_ringPageFill : Becomes (.ringPageFill r) s (execRingPageFill r.val s.dev) :=
  becomes_of_active rfl hup hlive

end

/-- Settles O14: each delivery command is its landing function at once; in a region that has run a tick that function is
its fold over the cells, and a ring page that may be filled takes the page that was read. -/
theorem deliveriesComplete : Obligations.DeliveriesComplete := by
  intro s r hup hlive tick
  refine ⟨fun htick => ⟨?contributions, ?results, ?loads⟩, ?stores, ?deliveries, fun hrun hring hpast hmore hfree => ?fill⟩
  case contributions => exact (becomes_macContribution hup hlive).trans (if_neg htick)
  case results => exact (becomes_vectorResult hup hlive).trans (if_neg htick)
  case loads => exact (becomes_wloadComplete hup hlive).trans (if_neg htick)
  case stores => exact becomes_stWrite hup hlive
  case deliveries => exact becomes_transferDelivery hup hlive
  case fill =>
    have hmay : s.dev.MayFill r.val := ⟨hrun, hring, hpast, hmore, hfree⟩
    refine ⟨fun hbad => ?_, fun hok => ?_⟩
    · exact (becomes_ringPageFill hup hlive).trans (execRingPageFill_failed hmay hbad)
    · exact (becomes_ringPageFill hup hlive).trans (execRingPageFill_read hmay hok)

end Sys2Proof.Machine
end

section
/-! SUPPORT. The order of values (R125): the model's comparisons against the rational values, what MAX and MIN make of an
ordered pair, and the lane codes that CMP writes. -/

namespace Sys2Proof.Machine

/-! ### Finite values -/

theorem scaled_mul_zpow (neg : Bool) (m : Nat) {e e0 : Int} (h : e ≤ e0) :
    (scaled neg m e0 e : Rat) * 2 ^ e = (Val.fin neg m e0).rat := by
  have hpow : (2 : Rat) ^ (e0 - e).toNat * 2 ^ e = 2 ^ e0 := by
    rw [← zpow_natCast, Int.toNat_of_nonneg (sub_nonneg.mpr h), ← zpow_add₀ two_ne_zero, sub_add_cancel]
  cases neg
  · simp [scaled, Val.rat, mul_assoc, hpow]
  · simp [scaled, Val.rat, mul_assoc, hpow]

section
variable {n₁ n₂ : Bool} {m₁ m₂ : Nat} {e₁ e₂ : Int}

theorem scaled_lt_scaled_iff :
    scaled n₁ m₁ e₁ (min e₁ e₂) < scaled n₂ m₂ e₂ (min e₁ e₂) ↔ (Val.fin n₁ m₁ e₁).rat < (Val.fin n₂ m₂ e₂).rat := by
  rw [← scaled_mul_zpow n₁ m₁ (min_le_left e₁ e₂), ← scaled_mul_zpow n₂ m₂ (min_le_right e₁ e₂),
    mul_lt_mul_iff_left₀ (zpow_pos two_pos _), Int.cast_lt]

theorem scaled_eq_scaled_iff :
    scaled n₁ m₁ e₁ (min e₁ e₂) = scaled n₂ m₂ e₂ (min e₁ e₂) ↔ (Val.fin n₁ m₁ e₁).rat = (Val.fin n₂ m₂ e₂).rat := by
  rw [← scaled_mul_zpow n₁ m₁ (min_le_left e₁ e₂), ← scaled_mul_zpow n₂ m₂ (min_le_right e₁ e₂),
    mul_left_inj' (zpow_ne_zero _ two_ne_zero), Int.cast_inj]

theorem eqNum_fin_iff : eqNum (.fin n₁ m₁ e₁) (.fin n₂ m₂ e₂) = true ↔ (Val.fin n₁ m₁ e₁).rat = (Val.fin n₂ m₂ e₂).rat :=
  beq_iff_eq.trans scaled_eq_scaled_iff

/-- Among finite values the total order is that of the values, with the sign deciding between zeros. -/
theorem ltTotal_fin_iff :
    ltTotal (.fin n₁ m₁ e₁) (.fin n₂ m₂ e₂) = true ↔
      (Val.fin n₁ m₁ e₁).rat < (Val.fin n₂ m₂ e₂).rat ∨
      (Val.fin n₁ m₁ e₁).rat = (Val.fin n₂ m₂ e₂).rat ∧ scaled n₁ m₁ e₁ (min e₁ e₂) = 0 ∧ n₁ = true ∧ n₂ = false := by
  simp [ltTotal, scaled_lt_scaled_iff, scaled_eq_scaled_iff, and_assoc]

theorem ltNum_fin_iff : ltNum (.fin n₁ m₁ e₁) (.fin n₂ m₂ e₂) = true ↔ (Val.fin n₁ m₁ e₁).rat < (Val.fin n₂ m₂ e₂).rat := by
  rw [ltNum, Bool.and_eq_true, Bool.not_eq_true', ← Bool.not_eq_true, ltTotal_fin_iff, eqNum_fin_iff]
  refine ⟨fun ⟨hlt, hne⟩ => hlt.resolve_right fun heq => hne heq.1, fun hlt => ⟨.inl hlt, hlt.ne⟩⟩

end

/-! ### Zeros, infinities and the order -/

theorem ltTotal_zeros (e f : Int) : ltTotal (.fin true 0 e) (.fin false 0 f) = true := by
  simp [ltTotal, scaled]

theorem ltTotal_posInf {y : Val} (h : y ≠ .inf false) : ltTotal y (.inf false) = true := by
  cases y with
  | nan => rfl
  | fin n m e => rfl
  | inf neg => cases neg with
    | true => rfl
    | false => exact absurd rfl h

theorem ltTotal_negInf {y : Val} (h : y ≠ .inf true) : ltTotal (.inf true) y = true := by
  cases y with
  | nan => rfl
  | fin n m e => rfl
  | inf neg => cases neg with
    | true => exact absurd rfl h
    | false => rfl

theorem eqNum_inf_left {neg : Bool} {y : Val} (h : y ≠ .inf neg) : eqNum (.inf neg) y = false := by
  cases y with
  | nan => rfl
  | fin n m e => rfl
  | inf neg' => exact beq_eq_false_iff_ne.mpr fun heq => h (congrArg Val.inf heq.symm)

theorem eqNum_inf_right {neg : Bool} {y : Val} (h : y ≠ .inf neg) : eqNum y (.inf neg) = false := by
  cases y with
  | nan => rfl
  | fin n m e => rfl
  | inf neg' => exact beq_eq_false_iff_ne.mpr fun heq => h (congrArg Val.inf heq)

theorem posInf_not_ltTotal (y : Val) : ltTotal (.inf false) y = false := by
  cases y with
  | inf neg => cases neg <;> rfl
  | _ => rfl

theorem not_ltTotal_negInf (x : Val) : ltTotal x (.inf true) = false := by
  cases x with
  | inf neg => cases neg <;> rfl
  | _ => rfl

theorem ltTotal_fin_asymm {n₁ n₂ : Bool} {m₁ m₂ : Nat} {e₁ e₂ : Int}
    (h : ltTotal (.fin n₁ m₁ e₁) (.fin n₂ m₂ e₂) = true) : ltTotal (.fin n₂ m₂ e₂) (.fin n₁ m₁ e₁) = false := by
  rw [← Bool.not_eq_true, ltTotal_fin_iff]
  obtain hlt | ⟨heq, -, hneg, -⟩ := ltTotal_fin_iff.mp h
  · exact not_or_intro hlt.not_gt fun ⟨heq, _⟩ => hlt.ne heq.symm
  · exact not_or_intro heq.not_gt fun ⟨_, _, _, hpos⟩ => Bool.false_ne_true (hpos.symm.trans hneg)

theorem ltTotal_asymm {x y : Val} (hx : isNan x = false) (hy : isNan y = false) (h : ltTotal x y = true) :
    ltTotal y x = false := by
  match x, y with
  | .inf true, y => exact not_ltTotal_negInf y
  | x, .inf false => exact posInf_not_ltTotal x
  | .inf false, y => exact absurd h (Bool.eq_false_iff.mp (posInf_not_ltTotal y))
  | x, .inf true => exact absurd h (Bool.eq_false_iff.mp (not_ltTotal_negInf x))
  | .fin .., .fin .. => exact ltTotal_fin_asymm h

/-! ### MAX, MIN and CMP -/

section
variable {x y : Val}

theorem maxVal_nan (h : isNan x = true ∨ isNan y = true) : maxVal x y = .nan := if_pos (Bool.or_eq_true _ _ |>.mpr h)

theorem minVal_nan (h : isNan x = true ∨ isNan y = true) : minVal x y = .nan := if_pos (Bool.or_eq_true _ _ |>.mpr h)

theorem cmpVal_nan (h : isNan x = true ∨ isNan y = true) (k : Nat) : cmpVal k x y = decide (k = 1) :=
  if_pos (Bool.or_eq_true _ _ |>.mpr h)

variable (hx : isNan x = false) (hy : isNan y = false)
include hx hy

theorem maxVal_num : maxVal x y = if ltTotal x y then y else x := by simp [maxVal, hx, hy]

theorem minVal_num : minVal x y = if ltTotal y x then y else x := by simp [minVal, hx, hy]

theorem cmpVal_lt : cmpVal 2 x y = ltNum x y := by simp [cmpVal, hx, hy]

theorem cmpVal_gt : cmpVal 4 x y = ltNum y x := by simp [cmpVal, hx, hy]

/-- MAX and MIN of an ordered pair, either way round. -/
theorem maxVal_minVal_of_ltTotal (h : ltTotal x y = true) :
    maxVal x y = y ∧ maxVal y x = y ∧ minVal x y = x ∧ minVal y x = x := by
  simp [maxVal_num, minVal_num, hx, hy, h, ltTotal_asymm hx hy h]

end

theorem maxVal_posInf_left {y : Val} (hy : isNan y = false) : maxVal (.inf false) y = .inf false := by
  rw [maxVal_num rfl hy, posInf_not_ltTotal]
  rfl

theorem minVal_negInf_left {y : Val} (hy : isNan y = false) : minVal (.inf true) y = .inf true := by
  rw [minVal_num rfl hy, not_ltTotal_negInf]
  rfl

theorem ltNum_posInf {y : Val} (h : y ≠ .inf false) : ltNum y (.inf false) = true := by
  rw [ltNum, ltTotal_posInf h, eqNum_inf_right h]
  rfl

theorem ltNum_negInf {y : Val} (h : y ≠ .inf true) : ltNum (.inf true) y = true := by
  rw [ltNum, ltTotal_negInf h, eqNum_inf_left h]
  rfl

/-! ### The lanes that CMP writes -/

theorem toLane_one (bf16 : Bool) : toLane bf16 (.fin false 1 0) = if bf16 then 0x3F80 else 0x3F800000 := by
  cases bf16 <;> decide

theorem toLane_zero (bf16 : Bool) : toLane bf16 (.fin false 0 0) = 0 := by
  cases bf16 <;> decide

section
variable {bf16 : Bool} {k a b : Nat} (c : Nat)

theorem laneOp_cmp : laneOp .cmp bf16 k a b c =
    toLane bf16 (if cmpVal k (laneVal bf16 a) (laneVal bf16 b) then .fin false 1 0 else .fin false 0 0) := rfl

theorem laneOp_cmp_holds (h : cmpVal k (laneVal bf16 a) (laneVal bf16 b) = true) :
    laneOp .cmp bf16 k a b c = if bf16 then 0x3F80 else 0x3F800000 := by
  rw [laneOp_cmp, if_pos h, toLane_one]

theorem laneOp_cmp_fails (h : cmpVal k (laneVal bf16 a) (laneVal bf16 b) = false) : laneOp .cmp bf16 k a b c = 0 := by
  rw [laneOp_cmp, h, if_neg Bool.false_ne_true, toLane_zero]

end

/-- Settles O56: a NaN operand first, then the total order of the values, which is that of the rationals among finite
values, decides MAX, MIN and CMP. -/
theorem maxMinAndCompare : Obligations.MaxMinAndCompare := by
  refine ⟨fun x y hnan => ?nan, fun e f => ?zeros,
    fun n₁ n₂ m₁ m₂ e₁ e₂ => ⟨fun hlt => ?ordered, ?eq, ?ne, ?lt, ?le, ?gt, ?ge⟩,
    fun y hy => ⟨maxVal_posInf_left hy, minVal_negInf_left hy, fun hne => ?posInf, fun hne => ?negInf⟩,
    fun bf16 k a b c => ⟨rfl, rfl, laneOp_cmp_holds c, laneOp_cmp_fails c⟩⟩
  case nan => exact ⟨maxVal_nan hnan, minVal_nan hnan, cmpVal_nan hnan⟩
  case zeros => exact maxVal_minVal_of_ltTotal rfl rfl (ltTotal_zeros e f)
  case ordered => exact maxVal_minVal_of_ltTotal rfl rfl (ltTotal_fin_iff.mpr (.inl hlt))
  case eq => exact eqNum_fin_iff
  case ne => exact (Bool.not_eq_true' _).to_iff.trans (Bool.eq_false_iff.trans eqNum_fin_iff.not)
  case lt => exact ltNum_fin_iff
  case le => exact (Bool.or_eq_true_iff.trans (or_congr ltNum_fin_iff eqNum_fin_iff)).trans le_iff_lt_or_eq.symm
  case gt => exact ltNum_fin_iff
  case ge =>
    exact (Bool.or_eq_true_iff.trans (or_congr ltNum_fin_iff (eqNum_fin_iff.trans eq_comm))).trans le_iff_lt_or_eq.symm
  case posInf =>
    obtain ⟨hmax, -, -, hmin⟩ := maxVal_minVal_of_ltTotal hy rfl (ltTotal_posInf hne)
    exact ⟨(cmpVal_gt rfl hy).trans (ltNum_posInf hne), hmax, hmin⟩
  case negInf =>
    obtain ⟨hmax, -, -, hmin⟩ := maxVal_minVal_of_ltTotal rfl hy (ltTotal_negInf hne)
    exact ⟨(cmpVal_lt rfl hy).trans (ltNum_negInf hne), hmin, hmax⟩

end Sys2Proof.Machine
end

section
/-! SUPPORT. The lane-by-lane vector operations (R123, R125, R127): what each sends on its way in a live cell. -/

namespace Sys2Proof.Machine

/-- An operation that gives each result lane from the same lane of its operands, in 3 or 4 ticks (Table 4.8). -/
def opLanewise : VecOp → Bool
  | .add | .sub | .mul | .fma | .max | .min | .cmp | .cvt => true
  | _ => false

theorem opLanewise_iff {o : VecOp} : opLanewise o = true ↔
    o = .add ∨ o = .sub ∨ o = .mul ∨ o = .fma ∨ o = .max ∨ o = .min ∨ o = .cmp ∨ o = .cvt := by
  cases o <;> decide

section
variable {v : VecSlot} (hop : opLanewise v.op = true)
include hop

theorem not_rdacc_of_lanewise : decide (v.op = .rdacc) = false :=
  decide_eq_false fun h => by rw [h] at hop; exact Bool.false_ne_true hop

theorem not_special_of_lanewise : opSpecial v.op = false := by
  obtain h | h | h | h | h | h | h | h := opLanewise_iff.mp hop
  all_goals rw [h]; rfl

theorem aluLanes_lanewise (u : CellSt) :
    aluLanes v u = (List.range (laneCount v.bf16)).map (fun i => laneOp v.op v.bf16 v.mod.toNat
      ((regLanes v.bf16 (u.vreg v.va.toNat)).getD i 0) ((regLanes v.bf16 (u.vreg v.vb.toNat)).getD i 0)
      ((regLanes v.bf16 (u.vreg v.vc.toNat)).getD i 0)) := by
  obtain ⟨op, bf16, vd, va, vb, vc, m, arg⟩ := v
  obtain rfl | rfl | rfl | rfl | rfl | rfl | rfl | rfl := opLanewise_iff.mp hop
  all_goals rfl

theorem vecSlot_lanewise {p : Nat} (hformat : vecFormatOk p v = true) (x : Ctx) (t : Trial) :
    vecSlot x p v t = { t with d := x.live.foldl (flyResult x p v (aluLanes v)) t.d } := by
  have hcells : vecSlot x p v t = t.forCells x.live (aluCell x p v) := by
    rw [vecSlot, if_pos hformat]
    obtain ⟨op, bf16, vd, va, vb, vc, m, arg⟩ := v
    obtain rfl | rfl | rfl | rfl | rfl | rfl | rfl | rfl := opLanewise_iff.mp hop
    all_goals rfl
  rw [hcells, funext₂ (aluCell_unspecial (not_special_of_lanewise hop)), forCells_device]

end

/-- The results of all live cells, as the statements write them. -/
theorem alu_live {v : VecSlot} {lat : Nat} {f : Val → Val → Val → Val} (hlat : opLatency v.op v.bf16 = lat)
    (hop : opLanewise v.op = true)
    (hlane : ∀ a b c, laneOp v.op v.bf16 v.mod.toNat a b c =
      toLane v.bf16 (f (laneVal v.bf16 a) (laneVal v.bf16 b) (laneVal v.bf16 c))) (x : Ctx) (p : Nat) (d : Dev) :
    alu p v.bf16 v.vd v.va v.vb v.vc lat f x d = x.live.foldl (flyResult x p v (aluLanes v)) d := by
  subst hlat
  rw [funext fun u => (aluLanes_lanewise hop u).trans (List.map_congr_left fun i _ => hlane ..)]
  rfl

theorem slotGives_lanewise {i : Instr} {s : State} {r : Region} {g : Gov} {p : Fin 2} {v : VecSlot} {lat : Nat}
    {f : Val → Val → Val → Val} (harm : exec i s = active (dieOf r.val) (slotWord r.val g [.vec p v]) s)
    (hop : opLanewise v.op = true) (hformat : vecFormatOk p.val v = true) (hlat : opLatency v.op v.bf16 = lat)
    (hlane : ∀ a b c, laneOp v.op v.bf16 v.mod.toNat a b c =
      toLane v.bf16 (f (laneVal v.bf16 a) (laneVal v.bf16 b) (laneVal v.bf16 c))) :
    SlotGives i s r g (.vec p v) unchanged (alu p.val v.bf16 v.vd v.va v.vb v.vc lat f) := by
  refine slotGives_of_tick harm (plainSlot_vec ..) rfl ((slotsTick_vec _ _ _ p (not_rdacc_of_lanewise hop)).trans ?_)
  rw [vecSlot_lanewise hop hformat, alu_live hlat hop hlane]
  rfl

/-! ### CVT -/

section
variable {m : BitVec 5} {row : FmtRow} {bf16 : Bool} (hrow : fmtRow m.toNat = some row)
include hrow

theorem laneOp_cvt (a b c : Nat) :
    laneOp .cvt bf16 m.toNat a b c = toLane bf16 (decodeElem row (encodeElem row (laneVal bf16 a))) := by
  simp only [laneOp, hrow, cvtVal]

theorem vecFormatOk_cvt (hcvt : row.cvt = true) (hsuited : ¬ (row.code = 0x12 ∧ bf16 = true)) (vd va : BitVec 5) :
    vecFormatOk 0 ⟨.cvt, bf16, vd, va, 0, 0, m, 0⟩ = true := by
  simp only [vecFormatOk, hrow, hcvt]
  simpa [opOnPort, imp_iff_not_or] using hsuited

end

/-- Settles O2: each operation works lane by lane in every live cell; the format check that only CVT can fail is met by
the target format that the statement names. -/
theorem laneOperationsComplete : Obligations.LaneOperationsComplete := by
  intro s r g bf16 vd va vb vc m
  refine ⟨?add, ?sub, ?mul, ?fma, ?max, ?min, ?cmp, fun row hrow hcvt hsuited => ?cvt⟩
  case add => exact slotGives_lanewise rfl rfl rfl rfl fun _ _ _ => rfl
  case sub => exact slotGives_lanewise rfl rfl rfl rfl fun _ _ _ => rfl
  case mul => exact slotGives_lanewise rfl rfl rfl rfl fun _ _ _ => rfl
  case fma => exact slotGives_lanewise rfl rfl rfl rfl fun _ _ _ => rfl
  case max => exact slotGives_lanewise rfl rfl rfl rfl fun _ _ _ => rfl
  case min => exact slotGives_lanewise rfl rfl rfl rfl fun _ _ _ => rfl
  case cmp => exact slotGives_lanewise rfl rfl rfl rfl fun _ _ _ => rfl
  case cvt => exact slotGives_lanewise rfl rfl (vecFormatOk_cvt hrow hcvt hsuited vd va) rfl (laneOp_cvt hrow)

end Sys2Proof.Machine
end

section
/-! SUPPORT. HBM scrub, plan streams and areas (R169 to R172, R175, R176), case by case. -/

namespace Sys2Proof.Machine

/-! ### HBM_PATROL_SCRUB -/

theorem unlessParked_not_parked {d : Dev} (h : d.powerState ≠ psPark) (f : Dev → Dev) :
    unlessParked f d = f d := if_neg h

theorem becomes_hbmPatrolScrub {s : State} {st : Stack} (hup : s.dev.coreUp (dieOfStack st.val) = true)
    (hawake : s.dev.powerState ≠ psPark) (htrained : s.dev.stackTrains st.val = false) (a len : BitVec 39)
    (us : List HbmUpset) :
    Becomes (.hbmPatrolScrub st a len us) s (execHbmPatrolScrub st.val a.toNat len.toNat us s.dev) :=
  (becomes_of_onDie rfl hup).trans
    ((unlessParked_not_parked hawake _).trans (if_neg (Bool.eq_false_iff.mp htrained)))

/-- The noted errors of a stack's halves that begin in [a, a + len) of its die. -/
def Dev.stackErrs (d : Dev) (st a len : Nat) : List (Nat × Nat) :=
  d.hbmErr.filter (fun e => let x := e.1 % 2 ^ 34 * 32
    decide (e.1 / 2 ^ 34 = dieOfStack st ∧ stackOf (dieOfStack st) x = st ∧ a ≤ x ∧ x < a + len))

section
variable {d : Dev} {us : List HbmUpset} (st a len : Nat)

theorem execHbmPatrolScrub_enabled (h : (takeHbmUpsets us d).is R.HB_SCRUB_enable = true) :
    execHbmPatrolScrub st a len us d =
      ((takeHbmUpsets us d).stackErrs st a len).foldl (fun d e => (readHalf byScrub none e.1 e.2 d).1)
        (takeHbmUpsets us d) := if_neg (not_not_intro h)

theorem execHbmPatrolScrub_disabled (h : (takeHbmUpsets us d).is R.HB_SCRUB_enable = false) :
    execHbmPatrolScrub st a len us d = takeHbmUpsets us d := if_pos (Bool.eq_false_iff.mp h)

end

/-! ### HBM_READ_ARRIVAL and HBM_WRITE_ACCEPT: what each waits for -/

/-- An access to bytes of which the host tracks no line happens at once (R406). -/
theorem afterSnoop_untracked {ls : Dev → List Nat} {d : Dev} (h : ls d = []) (f : Dev → Dev) :
    afterSnoop ls f d = f d := by
  simp only [afterSnoop, h]

section
variable {s : State} {r : Region} (hup : s.dev.coreUp (dieOf r.val) = true) (hlive : s.dev.fatal = false)
  {id : BitVec 8}
include hup hlive

theorem becomes_hbmReadArrival (hlines : s.dev.streamLines r.val id.toNat 64 = []) (us : List HbmUpset) :
    Becomes (.hbmReadArrival r id us) s (execHbmReadArrival r.val id.toNat us s.dev) :=
  (becomes_of_active rfl hup hlive).trans (afterSnoop_untracked hlines _)

theorem becomes_hbmWriteAccept (hlines : s.dev.streamLines r.val id.toNat 8 = []) (c : Fin 32) (off : BitVec 22) :
    Becomes (.hbmWriteAccept r id c off) s (execHbmWriteAccept r.val id.toNat c.val off.toNat s.dev) :=
  (becomes_of_active rfl hup hlive).trans (afterSnoop_untracked hlines _)

end

/-! ### HBM_READ_ARRIVAL -/

/-- Read stream `l` of a region is ready and runs, and unit `n` of the tide's data comes next (R175, R211). -/
structure Dev.ReadsNext (d : Dev) (r id : Nat) (l : Landing) (n : Nat) : Prop where
  landing : d.landing r id = some l
  ready : d.streamReady l = true
  running : (d.reg r).streamRun = true
  units : d.landedUnits l (d.get R.TIDE_NUMBER_tide) = n
  more : 64 * n < l.bytes

/-- The plan stream read of unit `n` of a read stream (R171, R175). -/
def Dev.unitRead (d : Dev) (r : Nat) (l : Landing) (n : Nat) : Dev × Bool :=
  hbmRead byPlan (some r) (dieOf r) (d.streamAt l + 64 * n) 64 d

/-- `x` with unit `n` of a read stream of `d` in the tide's landing space: 64 bytes, or fewer at the stream's end. -/
def Dev.unitLanded (d : Dev) (r : Nat) (l : Landing) (n : Nat) (x : Dev) : Dev :=
  x.landWrite l 0 (d.get R.TIDE_NUMBER_tide) 0 (fun n => 64 * n)
    (mbytes x.mem (hbmKey (dieOf r) (d.streamAt l + 64 * n)) (Nat.min 64 (l.bytes - 64 * n))) ((l.bytes + 63) / 64)

section
variable {d : Dev} {us : List HbmUpset} {r id n : Nat} {l : Landing} (h : (takeHbmUpsets us d).ReadsNext r id l n)
include h

theorem execHbmReadArrival_next :
    execHbmReadArrival r id us d =
      let e := takeHbmUpsets us d
      if (e.unitRead r l n).2 then (e.unitRead r l n).1 else e.unitLanded r l n (e.unitRead r l n).1 := by
  obtain ⟨hlanding, hready, hrunning, rfl, hmore⟩ := h
  simp only [execHbmReadArrival, hlanding]
  exact (if_neg (not_or_intro (not_not_intro hready) (not_not_intro hrunning))).trans (if_neg (Nat.not_le.mpr hmore))

theorem execHbmReadArrival_failed (hbad : ((takeHbmUpsets us d).unitRead r l n).2 = true) :
    execHbmReadArrival r id us d = ((takeHbmUpsets us d).unitRead r l n).1 :=
  (execHbmReadArrival_next h).trans (if_pos hbad)

theorem execHbmReadArrival_read (hok : ((takeHbmUpsets us d).unitRead r l n).2 = false) :
    execHbmReadArrival r id us d =
      (takeHbmUpsets us d).unitLanded r l n ((takeHbmUpsets us d).unitRead r l n).1 :=
  (execHbmReadArrival_next h).trans (if_neg (Bool.eq_false_iff.mp hok))

end

/-! ### HBM_WRITE_ACCEPT -/

/-- Write stream `l` of a region runs, cell `c` has a source word at `off`, word `n` of tide `j` comes next (R176). -/
structure Dev.WritesNext (d : Dev) (r id c off : Nat) (l : Landing) (j n : Nat) : Prop where
  landing : d.landing r id = some l
  kind : l.kind = 2
  running : (d.reg r).streamRun = true
  present : d.cellPresent r c = true
  inside : off + 8 ≤ spSize r
  tide : dueTide l (d.get R.TIDE_NUMBER_tide) = some j
  units : d.landedUnits l j = n
  more : 8 * n < l.bytes

/-- The read of a write stream's source word (R155, R176). -/
def Dev.sourceRead (d : Dev) (r c off : Nat) : Dev × Bool := eccWords r c [off / 8 * 8] d

/-- `x` with the source word in HBM as word `n` of tide `j` of a write stream of `d`, and counted as accepted (R176). -/
def Dev.wordAccepted (d : Dev) (r c off : Nat) (l : Landing) (j n : Nat) (x : Dev) : Dev :=
  (hbmWrite (dieOf r) (d.streamAt l + 8 * n) (mbytes x.mem (spKey r c (off / 8 * 8)) 8) x).landWrite
    l 0 j 0 (fun _ => 0) [] ((l.bytes + 7) / 8)

section
variable {d : Dev} {r id c off j n : Nat} {l : Landing} (h : d.WritesNext r id c off l j n)
include h

theorem execHbmWriteAccept_next :
    execHbmWriteAccept r id c off d =
      let x := d.sourceRead r c off
      if x.2 then x.1.raise E.SP_UNCORRECTABLE (some r) (some c) else d.wordAccepted r c off l j n x.1 := by
  obtain ⟨hlanding, hkind, hrunning, hpresent, hinside, htide, rfl, hmore⟩ := h
  have hgoes : ¬ (l.kind ≠ 2 ∨ ¬ (d.reg r).streamRun = true ∨ ¬ d.cellPresent r c = true ∨ off + 8 > spSize r) :=
    not_or_intro (not_not_intro hkind) (not_or_intro (not_not_intro hrunning)
      (not_or_intro (not_not_intro hpresent) (Nat.not_lt.mpr hinside)))
  simp only [execHbmWriteAccept, hlanding, htide]
  exact (if_neg hgoes).trans (if_neg (Nat.not_le.mpr hmore))

theorem execHbmWriteAccept_failed (hbad : (d.sourceRead r c off).2 = true) :
    execHbmWriteAccept r id c off d = (d.sourceRead r c off).1.raise E.SP_UNCORRECTABLE (some r) (some c) :=
  (execHbmWriteAccept_next h).trans (if_pos hbad)

theorem execHbmWriteAccept_read (hok : (d.sourceRead r c off).2 = false) :
    execHbmWriteAccept r id c off d = d.wordAccepted r c off l j n (d.sourceRead r c off).1 :=
  (execHbmWriteAccept_next h).trans (if_neg (Bool.eq_false_iff.mp hok))

end

/-! ### HB_AREA_WRITE -/

theorem becomes_hbAreaWrite {s : State} {die : Die} (hup : s.dev.coreUp die.val = true) (a : Fin 8) (v : Word) :
    Becomes (.hbAreaWrite die a v) s (execHbAreaWrite die.val a.val v.toNat s.dev) := becomes_of_onDie rfl hup

/-- An area at `base` of `size`, in units of 64 KiB, would overlap another area of its die (R169). -/
def Dev.AreaClash (d : Dev) (die a base size : Nat) : Prop :=
  ∃ o < 8, o ≠ a ∧ 0 < (d.area die o).2 ∧ 0 < size ∧ base * 65536 < (d.area die o).1 + (d.area die o).2 ∧
    (d.area die o).1 < base * 65536 + size * 65536

/-- The search of `setArea` for another area that the new one would overlap. -/
def Dev.findsClash (d : Dev) (die a base size : Nat) : Bool :=
  (List.range 8).any (fun o =>
    let b := d.area die o
    decide (o ≠ a ∧ b.2 > 0 ∧ size * 65536 > 0 ∧ base * 65536 < b.1 + b.2 ∧ b.1 < base * 65536 + size * 65536))

/-- R169 admits the area: it overlaps no other and ends within the die. -/
def Dev.AreaFits (d : Dev) (die a base size : Nat) : Prop :=
  ¬ d.AreaClash die a base size ∧ (base + size) * 65536 ≤ hbmSize die

section
variable {d : Dev} {die a : Nat}

theorem findsClash_iff {base size : Nat} : d.findsClash die a base size = true ↔ d.AreaClash die a base size := by
  have hsize : size * 65536 > 0 ↔ 0 < size := Nat.mul_pos_iff_of_pos_right (by decide)
  simp only [Dev.findsClash, List.any_eq_true, List.mem_range, decide_eq_true_eq, hsize, gt_iff_lt, Dev.AreaClash]

/-- What `setArea` refuses is what R169 does not admit. -/
theorem areaRefused_iff {base size : Nat} :
    (d.findsClash die a base size = true ∨ base * 65536 + size * 65536 > hbmSize die) ↔
      ¬ d.AreaFits die a base size := by
  rw [findsClash_iff, Dev.AreaFits, not_and_or, not_not, Nat.not_le, Nat.add_mul]

section
variable (hopen : d.bootLocked die = false) {v : Nat}
include hopen

theorem execHbAreaWrite_fits (hfits : d.AreaFits die a (bits v 0 24) (bits v 24 24)) :
    execHbAreaWrite die a v d =
      (d.set R.HB_AREA_base (die * 8 + a) (bits v 0 24)).set R.HB_AREA_size (die * 8 + a) (bits v 24 24) :=
  (if_neg (Bool.eq_false_iff.mp hopen)).trans (if_neg fun hrefused => areaRefused_iff.mp hrefused hfits)

theorem execHbAreaWrite_refused (hbad : ¬ d.AreaFits die a (bits v 0 24) (bits v 24 24)) :
    execHbAreaWrite die a v d = d.raise E.HB_AREA_CONFIG none (some (die * 8 + a)) :=
  (if_neg (Bool.eq_false_iff.mp hopen)).trans (if_pos (areaRefused_iff.mpr hbad))

end

theorem execHbAreaWrite_locked (hlocked : d.bootLocked die = true) (v : Nat) : execHbAreaWrite die a v d = d :=
  if_pos hlocked

end

/-! ### The statement -/

/-- Settles O16: each command through its own arm and the case of its function that the premises choose. How a read of
more wrong symbols than the code detects ends, the address space of a stream, and that a write stream's source word is
the command's operand are the model's choice (notes/assumptions, entries 17 and 63). -/
theorem hbmCommandsComplete : Obligations.HbmCommandsComplete := by
  refine ⟨fun s st a len us hup hawake htrained => ⟨fun hon => ?scrub, fun hoff => ?scrubOff⟩,
    fun s r id us l n hup hlive hlines hlanding hready hrunning hunits hmore => ?arrival,
    fun s r id c off l j n hup hlive hlines hlanding hkind hrunning hpresent hinside htide hunits hmore => ?accept,
    fun s die a v hup => ⟨fun hlocked => ?areaLocked, fun hopen => ⟨fun hfits => ?areaFits, fun hbad => ?areaRefused⟩⟩⟩
  case scrub =>
    exact (becomes_hbmPatrolScrub hup hawake htrained a len us).trans (execHbmPatrolScrub_enabled _ _ _ hon)
  case scrubOff =>
    exact (becomes_hbmPatrolScrub hup hawake htrained a len us).trans (execHbmPatrolScrub_disabled _ _ _ hoff)
  case arrival =>
    have hnext : (takeHbmUpsets us s.dev).ReadsNext r.val id.toNat l n := ⟨hlanding, hready, hrunning, hunits, hmore⟩
    refine ⟨fun hbad => ?_, fun hok => ?_⟩
    · exact (becomes_hbmReadArrival hup hlive hlines us).trans (execHbmReadArrival_failed hnext hbad)
    · exact (becomes_hbmReadArrival hup hlive hlines us).trans (execHbmReadArrival_read hnext hok)
  case accept =>
    have hnext : s.dev.WritesNext r.val id.toNat c.val off.toNat l j n :=
      ⟨hlanding, hkind, hrunning, hpresent, hinside, htide, hunits, hmore⟩
    refine ⟨fun hbad => ?_, fun hok => ?_⟩
    · exact (becomes_hbmWriteAccept hup hlive hlines c off).trans (execHbmWriteAccept_failed hnext hbad)
    · exact (becomes_hbmWriteAccept hup hlive hlines c off).trans (execHbmWriteAccept_read hnext hok)
  case areaLocked => exact (becomes_hbAreaWrite hup a v).trans (execHbAreaWrite_locked hlocked _)
  case areaFits => exact (becomes_hbAreaWrite hup a v).trans (execHbAreaWrite_fits hopen hfits)
  case areaRefused => exact (becomes_hbAreaWrite hup a v).trans (execHbAreaWrite_refused hopen hbad)

end Sys2Proof.Machine
end

section
/-! SUPPORT. The start of the Ferry's commands (R181, R182, R195, R198, R201), by where the command comes from. -/

namespace Sys2Proof.Machine

/-! ### The commands -/

section
variable {s : State} (hup : s.dev.coreUp 1 = true)
include hup

theorem becomes_ferryRingTailWrite (v : Word) :
    Becomes (.ferryRingTailWrite v) s (execFerryRingTailWrite v.toNat s.dev) := becomes_of_estuary rfl hup

theorem becomes_fetch (own : Bool) (t : Time) : Becomes (.fetch own t) s (execFetch own t s.dev) :=
  becomes_of_estuary rfl hup

theorem becomes_push (t : Time) : Becomes (.push t) s (execPush t s.dev) := becomes_of_estuary rfl hup

theorem becomes_recv (own : Bool) (t : Time) : Becomes (.recv own t) s (execRecv own t s.dev) :=
  becomes_of_estuary rfl hup

theorem becomes_mirror (own : Bool) (t : Time) : Becomes (.mirror own t) s (execMirror own t s.dev) :=
  becomes_of_estuary rfl hup

theorem becomes_evict (t : Time) : Becomes (.evict t) s (execEvict t s.dev) := becomes_of_estuary rfl hup

theorem becomes_rehash (own : Bool) (t : Time) : Becomes (.rehash own t) s (execRehash own t s.dev) :=
  becomes_of_estuary rfl hup

theorem becomes_ferryFormat (t : Time) : Becomes (.ferryFormat t) s (execFerryFormat t s.dev) :=
  becomes_of_estuary rfl hup

end

/-! ### Where a command comes from -/

@[simp] theorem ferry_advance (d : Dev) (t : Time) : (d.advance t).ferry = d.ferry := by
  unfold Dev.advance
  split <;> rfl

@[simp] theorem ownNext_advance (d : Dev) (t : Time) (op : Nat) : (d.advance t).ownNext op = d.ownNext op := by
  simp only [Dev.ownNext, ferry_advance]

/-- The command no longer waits among those that the Ferry issued to itself. -/
def Dev.withoutOwn (d : Dev) (c : FerryCmd) : Dev :=
  { d with ferry := { d.ferry with own := d.ferry.own.erase c } }

section
variable {d : Dev} {t : Time} {i : Nat} (hfree : (d.advance t).freeRun = some i)
include hfree

/-- The ring's next command, where it has the opcode. -/
theorem startCmd_ring {c : FerryCmd} {op : Nat} (hnext : (d.advance t).nextFerry = some (c, true)) (hop : c.op = op) :
    startCmd op false t d = startRun i c (passEntry (readFront (d.advance t))) := by
  simp only [startCmd, hfree, hnext]
  exact (if_neg Bool.false_ne_true).trans (if_pos hop)

/-- The oldest command of an opcode that the Ferry issued to itself. -/
theorem startCmd_own {c : FerryCmd} {op : Nat} (hown : (d.advance t).ownNext op = some c) :
    startCmd op true t d = startRun i c ((d.advance t).withoutOwn c) := by
  simp only [startCmd, hfree, hown]
  rfl

/-- A PUSH of the ring goes where none that QUIESCE_N aborted waits (R188). -/
theorem execPush_ring {c : FerryCmd} (hnext : (d.advance t).nextFerry = some (c, true)) (hop : c.op = fcPush)
    (hnone : (d.advance t).ownNext fcPush = none) :
    execPush t d = startRun i c (passEntry (readFront (d.advance t))) := by
  rw [ownNext_advance] at hnone
  rw [execPush, hnone]
  exact startCmd_ring hfree hnext hop

/-- A PUSH that QUIESCE_N aborted and the Ferry posted again goes before the ring's (R188). -/
theorem execPush_own {c : FerryCmd} (hown : (d.advance t).ownNext fcPush = some c) :
    execPush t d = startRun i c ((d.advance t).withoutOwn c) := by
  rw [execPush, ← ownNext_advance d t, hown]
  exact startCmd_own hfree hown

/-- The next verified copy that the round of re-hashing has not reached (R201). -/
theorem execRehash_own {k : Nat} (hcopy : (d.advance t).unhashed = some k)
    (hgoes : (d.advance t).ferry.stopped = false) :
    execRehash true t d = startRun i (ownCmd fcRehash (k / 2 ^ 32) (k % 2 ^ 32) 0 0 0 0) (d.advance t) := by
  simp only [execRehash, hfree, hcopy]
  exact if_neg (Bool.eq_false_iff.mp hgoes)

/-- A ring command with a bad opcode or field (R181). -/
theorem execFerryFormat_bad {c : FerryCmd} (hnext : (d.advance t).nextFerry = some (c, false)) :
    execFerryFormat t d =
      afterFailed c fsFormat (reportCmd c fsFormat (passEntry (readFront (d.advance t)))) := by
  simp only [execFerryFormat, hfree, hnext]

end

/-! ### The statement -/

/-- Settles O17: each command through its own arm and the place that it comes from, the ring, the Ferry's own commands
or the round of re-hashing. -/
theorem ferryCommandsStart : Obligations.FerryCommandsStart := by
  refine ⟨fun s v hup => becomes_ferryRingTailWrite hup v, ?_⟩
  intro s t i hup d hfree
  refine ⟨?ring, ?own, fun k hcopy hgoes => ?rehash, fun c hnext => ?format⟩
  case ring =>
    intro c hnext own e
    exact ⟨fun hop => (becomes_fetch hup false t).trans (startCmd_ring hfree hnext hop),
      fun hop hnone => (becomes_push hup t).trans (execPush_ring hfree hnext hop hnone),
      fun hop => (becomes_recv hup false t).trans (startCmd_ring hfree hnext hop),
      fun hop => (becomes_mirror hup false t).trans (startCmd_ring hfree hnext hop),
      fun hop => (becomes_evict hup t).trans (startCmd_ring hfree hnext hop),
      fun hop => (becomes_rehash hup false t).trans (startCmd_ring hfree hnext hop)⟩
  case own =>
    intro c op hown e
    exact ⟨fun hop => (becomes_fetch hup true t).trans (startCmd_own hfree (hop ▸ hown)),
      fun hop => (becomes_push hup t).trans (execPush_own hfree (hop ▸ hown)),
      fun hop => (becomes_recv hup true t).trans (startCmd_own hfree (hop ▸ hown)),
      fun hop => (becomes_mirror hup true t).trans (startCmd_own hfree (hop ▸ hown))⟩
  case rehash => exact (becomes_rehash hup true t).trans (execRehash_own hfree hcopy hgoes)
  case format => exact (becomes_ferryFormat hup t).trans (execFerryFormat_bad hfree hnext)

end Sys2Proof.Machine
end

section
/-! SUPPORT. The blocks of a Ferry load (R183) and the ends of the Ferry's commands (R184, R185, R198, R201), case by
case. -/

namespace Sys2Proof.Machine

/-- A command that loads a shard from a source (R182). -/
abbrev FerryCmd.loads (c : FerryCmd) : Prop := c.op = fcFetch ∨ c.op = fcPush ∨ c.op = fcRecv

/-! ### FERRY_BLOCK_RECEIVED -/

theorem becomes_ferryBlockReceived {s : State} {i : Fin 8} (hup : s.dev.coreUp 1 = true)
    (hlines : s.dev.pushLines i.val = []) :
    Becomes (.ferryBlockReceived i) s (execFerryBlockReceived i.val s.dev) :=
  (becomes_of_estuary rfl hup).trans (afterSnoop_untracked hlines _)

/-- Run `i` is the load `r`, which has not failed, and no stack of its model retrains (Table 17.5). -/
structure Dev.Loading (d : Dev) (i : Nat) (r : FerryRun) : Prop where
  run : d.run i = some r
  good : r.fail = none
  loads : r.cmd.loads
  trained : (d.diesOf r.cmd.model).any d.dieTrains = false

/-- The load has all of its shard. -/
abbrev FerryRun.whole (r : FerryRun) : Prop := r.header ≠ [] ∧ hdrLength r.header ≤ r.cipher.length

/-- Bytes that a load takes next: the header, or a block (R183). -/
def FerryRun.wants (r : FerryRun) : Nat := if r.header = [] then 2048 else 65536

section
variable {r : FerryRun}

theorem FerryRun.wants_header (h : r.header = []) : r.wants = 2048 := if_pos h

theorem FerryRun.wants_block (h : r.header ≠ []) : r.wants = 65536 := if_neg h

theorem FerryRun.not_whole_of_no_header (h : r.header = []) : ¬ r.whole := fun hwhole => hwhole.1 h

theorem FerryRun.not_whole_of_short (h : r.cipher.length < hdrLength r.header) : ¬ r.whole :=
  fun hwhole => Nat.not_le.mpr h hwhole.2

end

section
variable {d e : Dev} {i : Nat} {r : FerryRun} (h : d.Loading i r) (hpart : ¬ r.whole)
include h hpart

/-- Nothing keeps the load from its next bytes. -/
theorem Dev.Loading.asks :
    ¬ (¬ r.cmd.loads ∨ r.fail.isSome = true ∨ r.whole ∨ (d.diesOf r.cmd.model).any d.dieTrains = true) := by
  obtain ⟨-, hgood, hloads, htrained⟩ := h
  simp [hgood, hloads, hpart, htrained]

/-- The load takes what its source delivers. -/
theorem execFerryBlockReceived_delivered {bs : List Byte} {r' : FerryRun}
    (hnext : nextBytes r r.wants d = (e, some (.ok (bs, r')))) :
    execFerryBlockReceived i d = if r'.header = [] then takeHeader i r' bs e else takeBlock i r' bs e := by
  simp only [execFerryBlockReceived, h.run]
  rw [if_neg (h.asks hpart), ← FerryRun.wants, hnext]

/-- The load fails where its source does. -/
theorem execFerryBlockReceived_lost {f : Nat} (hnext : nextBytes r r.wants d = (e, some (.error f))) :
    execFerryBlockReceived i d = e.setRun i (some { r with fail := some f }) := by
  simp only [execFerryBlockReceived, h.run]
  rw [if_neg (h.asks hpart), ← FerryRun.wants, hnext]

end

/-! ### FERRY_COMMAND_DONE -/

theorem becomes_ferryCommandDone {s : State} (hup : s.dev.coreUp 1 = true) (i : Fin 8) (lost relayLost bad : Bool)
    (t : Time) :
    Becomes (.ferryCommandDone i lost relayLost bad t) s (execFerryCommandDone i.val lost relayLost bad t s.dev) :=
  becomes_of_estuary rfl hup

/-- A running command writes the shard copies that a command names (Table 6.8). -/
def Dev.copyWritten (d : Dev) (c : FerryCmd) : Bool :=
  d.ferry.runs.any (fun e => match e.2 with
    | some w => w.cmd.writes && decide (w.cmd.model = c.model ∧ w.cmd.shard = c.shard)
    | none => false)

section
variable {d : Dev} {i : Nat} {lost relayLost bad : Bool} {t : Time} {r : FerryRun} (hrun : (d.advance t).run i = some r)
include hrun

theorem execFerryCommandDone_failed {f : Nat} (hfail : r.fail = some f) :
    execFerryCommandDone i lost relayLost bad t d =
      afterFailed r.cmd f (reportCmd r.cmd f ((d.advance t).setRun i none)) := by
  simp only [execFerryCommandDone, hrun, hfail]

section
variable (hgood : r.fail = none) (hfree : (d.advance t).ferryWaits r = false)
include hgood hfree

/-- A command that has not failed and waits for nothing, by its opcode. -/
theorem execFerryCommandDone_ready :
    execFerryCommandDone i lost relayLost bad t d =
      if r.cmd.loads then
        if r.header = [] ∨ r.cipher.length < hdrLength r.header then
          if lost = true then
            shardFailed r.cmd (reportCmd r.cmd fsSourceLost (relayHeld r ((d.advance t).setRun i none)))
          else d.advance t
        else completeLoad i r relayLost (loadStatus r bad (d.advance t))
      else if r.cmd.op = fcMirror then completeLoad i r false (mirrorStatus r.cmd bad (d.advance t))
      else if r.cmd.op = fcRehash then
        if (d.advance t).copyWritten r.cmd = true then d.advance t
        else
          let x := rehashStatus r.cmd bad ((d.advance t).setRun i none)
          reportCmd r.cmd x.2 x.1
      else if (d.advance t).modelState r.cmd.model = msEvicting then d.advance t
      else
        let e := reportCmd r.cmd fsVerified ((d.advance t).setRun i none)
        if e.hosted 4 = true then retryLoads e else e := by
  simp only [execFerryCommandDone, hrun, hgood]
  exact if_neg (Bool.eq_false_iff.mp hfree)

section
variable (hload : r.cmd.loads)
include hload

theorem execFerryCommandDone_sourceLost (hpart : r.header = [] ∨ r.cipher.length < hdrLength r.header)
    (hlost : lost = true) :
    execFerryCommandDone i lost relayLost bad t d =
      shardFailed r.cmd (reportCmd r.cmd fsSourceLost (relayHeld r ((d.advance t).setRun i none))) := by
  rw [execFerryCommandDone_ready hrun hgood hfree, if_pos hload, if_pos hpart, if_pos hlost]

theorem execFerryCommandDone_whole (hwhole : r.whole) :
    execFerryCommandDone i lost relayLost bad t d =
      completeLoad i r relayLost (loadStatus r bad (d.advance t)) := by
  obtain ⟨hheader, hlength⟩ := hwhole
  rw [execFerryCommandDone_ready hrun hgood hfree, if_pos hload,
    if_neg (not_or_intro hheader (Nat.not_lt.mpr hlength))]

end

theorem execFerryCommandDone_mirror (hop : r.cmd.op = fcMirror) :
    execFerryCommandDone i lost relayLost bad t d =
      completeLoad i r false (mirrorStatus r.cmd bad (d.advance t)) := by
  have hload : ¬ r.cmd.loads := by rw [FerryCmd.loads, hop]; decide
  rw [execFerryCommandDone_ready hrun hgood hfree, if_neg hload, if_pos hop]

theorem execFerryCommandDone_rehash (hop : r.cmd.op = fcRehash) (hstill : (d.advance t).copyWritten r.cmd = false) :
    execFerryCommandDone i lost relayLost bad t d =
      let x := rehashStatus r.cmd bad ((d.advance t).setRun i none)
      reportCmd r.cmd x.2 x.1 := by
  have hload : ¬ r.cmd.loads := by rw [FerryCmd.loads, hop]; decide
  have hmirror : r.cmd.op ≠ fcMirror := by rw [hop]; decide
  rw [execFerryCommandDone_ready hrun hgood hfree, if_neg hload, if_neg hmirror, if_pos hop,
    if_neg (Bool.eq_false_iff.mp hstill)]

theorem execFerryCommandDone_evict (hop : r.cmd.op = fcEvict)
    (hended : (d.advance t).modelState r.cmd.model ≠ msEvicting) :
    execFerryCommandDone i lost relayLost bad t d =
      let e := reportCmd r.cmd fsVerified ((d.advance t).setRun i none)
      if e.hosted 4 = true then retryLoads e else e := by
  have hload : ¬ r.cmd.loads := by rw [FerryCmd.loads, hop]; decide
  have hmirror : r.cmd.op ≠ fcMirror := by rw [hop]; decide
  have hrehash : r.cmd.op ≠ fcRehash := by rw [hop]; decide
  rw [execFerryCommandDone_ready hrun hgood hfree, if_neg hload, if_neg hmirror, if_neg hrehash, if_neg hended]

end

end

/-! ### The statement -/

/-- Settles O18: a load takes what its source delivers, by the header that it has; a command ends by its failure, or by
its opcode. Which sources are left after a failed PUSH, and that blocks wait while a stack retrains, are the model's
choice (notes/assumptions, entries 106 and 125). -/
theorem ferryCommandsProceed : Obligations.FerryCommandsProceed := by
  intro s i hup
  refine ⟨fun r hrun hlines hgood hload htrained => ?blocks, ?done⟩
  case blocks =>
    have hblock := becomes_ferryBlockReceived hup hlines
    have hloading : s.dev.Loading i.val r := ⟨hrun, hgood, hload, htrained⟩
    refine ⟨fun hnone e bs r' hnext hheader => ?header, fun hsome hpart e bs r' hnext hheader => ?block,
      fun hnone e f hnext => ?lost⟩
    case header =>
      rw [← r.wants_header hnone] at hnext
      have htaken := execFerryBlockReceived_delivered hloading (r.not_whole_of_no_header hnone) hnext
      exact hblock.trans (htaken.trans (if_pos hheader))
    case block =>
      rw [← r.wants_block hsome] at hnext
      have htaken := execFerryBlockReceived_delivered hloading (r.not_whole_of_short hpart) hnext
      exact hblock.trans (htaken.trans (if_neg hheader))
    case lost =>
      rw [← r.wants_header hnone] at hnext
      exact hblock.trans (execFerryBlockReceived_lost hloading (r.not_whole_of_no_header hnone) hnext)
  case done =>
    intro t lost relayLost bad r d load hrun
    have hdone := becomes_ferryCommandDone hup i lost relayLost bad t
    refine ⟨fun f hfail => ?failed, fun hgood hfree hload hpart hlost => ?sourceLost,
      fun hgood hfree hload hheader hlength => ?whole, fun hgood hfree hop => ?mirror,
      fun hgood hfree hop hstill => ?rehash, fun hgood hfree hop hended => ?evict⟩
    case failed => exact hdone.trans (execFerryCommandDone_failed hrun hfail)
    case sourceLost => exact hdone.trans (execFerryCommandDone_sourceLost hrun hgood hfree hload hpart hlost)
    case whole => exact hdone.trans (execFerryCommandDone_whole hrun hgood hfree hload ⟨hheader, hlength⟩)
    case mirror => exact hdone.trans (execFerryCommandDone_mirror hrun hgood hfree hop)
    case rehash => exact hdone.trans (execFerryCommandDone_rehash hrun hgood hfree hop hstill)
    case evict =>
      have hevict := hdone.trans (execFerryCommandDone_evict hrun hgood hfree hop hended)
      exact ⟨fun hhost => hevict.trans (if_pos hhost), fun hown => hevict.trans (if_neg (Bool.eq_false_iff.mp hown))⟩

end Sys2Proof.Machine
end

section
/-! SUPPORT. The model table's commands (R189), evictions (R193, R195), the Ferry's expiries (R186, R188, R200, R201)
and the slower tier (R202), case by case. -/

namespace Sys2Proof.Machine

/-! ### The commands -/

section
variable {s : State} (hup : s.dev.coreUp 1 = true)
include hup

theorem becomes_modelRegister (m : BitVec 7) : Becomes (.modelRegister m) s (execModelRegister m.toNat s.dev) :=
  becomes_of_estuary rfl hup

theorem becomes_modelLoad (m : BitVec 7) (t : Time) : Becomes (.modelLoad m t) s (execModelLoad m.toNat t s.dev) :=
  becomes_of_estuary rfl hup

theorem becomes_modelUnregister (m : BitVec 7) :
    Becomes (.modelUnregister m) s (execModelUnregister m.toNat s.dev) := becomes_of_estuary rfl hup

theorem becomes_evictionDone (m : BitVec 7) : Becomes (.evictionDone m) s (execEvictionDone m.toNat s.dev) :=
  becomes_of_estuary rfl hup

theorem becomes_ferryHostWaitExpiry (m : BitVec 7) (t : Time) :
    Becomes (.ferryHostWaitExpiry m t) s (execFerryHostWaitExpiry m.toNat t s.dev) := becomes_of_estuary rfl hup

theorem becomes_rehashIntervalExpiry (hawake : s.dev.powerState ≠ psPark) (t : Time) :
    Becomes (.rehashIntervalExpiry t) s (execRehashIntervalExpiry t s.dev) :=
  (becomes_of_estuary rfl hup).trans (unlessParked_not_parked hawake _)

theorem becomes_slowTierFillDone (m : BitVec 7) (bs : List (List Byte)) :
    Becomes (.slowTierFillDone m bs) s (execSlowTierFillDone m.toNat bs s.dev) := becomes_of_estuary rfl hup

end

/-! ### The model table and evictions -/

section
variable {m : Nat} {d : Dev}

theorem execModelRegister_empty (h : d.modelState m = msEmpty) :
    execModelRegister m d = d.set R.FERRY_MODEL_state m msRegistered := if_pos h

theorem execModelLoad_unloaded {t : Time}
    (h : (d.advance t).modelState m = msRegistered ∨ (d.advance t).modelState m = msFailed) :
    execModelLoad m t d = loadModel m (d.advance t) := if_pos h

theorem execModelUnregister_unloaded (h : d.modelState m = msRegistered ∨ d.modelState m = msFailed) :
    execModelUnregister m d = (forgetModel m d).set R.FERRY_MODEL_state m msEmpty := if_pos h

/-- An eviction ends once its extent on Headland can be reached, if it has one there (R195). -/
theorem execEvictionDone_ends (hstate : d.modelState m = msEvicting)
    (hreach : d.isthmusUp = true ∨ (d.diesOf m).contains 0 = false) :
    execEvictionDone m d = if (endEvict m d).hosted 4 = true then endEvict m d else retryLoads (endEvict m d) :=
  if_pos ⟨hstate, hreach.imp_right Bool.eq_false_iff.mp⟩

end

/-! ### FERRY_HOST_WAIT_EXPIRY -/

/-- What has waited for the host for a model long enough at time `t` (R186, R188, R194, R200). -/
def Dev.dueWaits (d : Dev) (m : Nat) (t : Time) : List (Nat × FerryWait × BitVec 64) :=
  let limit := (d.get R.FERRY_CTL_host_wait * msU : Nat)
  d.ferry.waits.filter (fun w => decide (w.1 = m ∧ tdiff t w.2.2 ≥ limit))

/-- The device no longer waits for that. -/
def Dev.withoutWait (d : Dev) (x : Nat × FerryWait × BitVec 64) : Dev :=
  { d with ferry := { d.ferry with waits := d.ferry.waits.filter (fun y => !decide (y = x)) } }

/-- What the Ferry does for a model when a wait of it is over. -/
def waitOver (m : Nat) (w : FerryWait) (d : Dev) : Dev :=
  match w with
  | .load => if d.modelState m = msLoading then (modelFail m d).raise E.HOST_WAIT_EXPIRED_FERRY none (some m) else d
  | .shard _ => if d.modelState m = msLoading then (modelFail m d).raise E.HOST_WAIT_EXPIRED_FERRY none (some m) else d
  | .evict => if d.modelState m = msLoading then modelFail m d else d
  | .repair s => if d.modelState m = msRepairing then repairNext m s d else d

section
variable {m : Nat} {d : Dev}

section
variable (h : d.modelState m = msLoading)
include h

theorem waitOver_load : waitOver m .load d = (modelFail m d).raise E.HOST_WAIT_EXPIRED_FERRY none (some m) := if_pos h

theorem waitOver_shard (n : Nat) :
    waitOver m (.shard n) d = (modelFail m d).raise E.HOST_WAIT_EXPIRED_FERRY none (some m) := if_pos h

theorem waitOver_evict : waitOver m .evict d = modelFail m d := if_pos h

end

theorem waitOver_repair (h : d.modelState m = msRepairing) (n : Nat) :
    waitOver m (.repair n) d = repairNext m n d := if_pos h

/-- One wait is due: it ends, and the Ferry does what follows. -/
theorem execFerryHostWaitExpiry_one {t since : Time} {w : FerryWait}
    (hdue : (d.advance t).dueWaits m t = [(m, w, since)]) :
    execFerryHostWaitExpiry m t d = waitOver m w ((d.advance t).withoutWait (m, w, since)) := by
  have hkept : ∀ x, [(m, w, since)].contains x = decide (x = (m, w, since)) := fun x => by
    rw [Bool.eq_iff_iff, List.contains_iff_mem, List.mem_singleton, decide_eq_true_iff]
  rw [Dev.dueWaits] at hdue
  simp only [execFerryHostWaitExpiry, hdue, hkept]
  cases w <;> rfl

end

/-! ### REHASH_INTERVAL_EXPIRY -/

/-- A new round of re-hashing begins: no copy of it has been reached (R201). -/
def newRound (t : Time) (d : Dev) : Dev :=
  { d with ferry := { d.ferry with
      rehashAt := t, shards := d.ferry.shards.map (fun e => (e.1, { e.2 with hashed := 0 })) } }

section
variable {t : Time} {d : Dev}
  (hdue : tdiff t (d.advance t).ferry.rehashAt ≥ ((d.advance t).get R.FERRY_CTL_rehash_interval * 3600 * secU : Nat))
include hdue

theorem execRehashIntervalExpiry_done (hnone : (d.advance t).unhashed = none) :
    execRehashIntervalExpiry t d = newRound t (d.advance t) := by
  simp only [execRehashIntervalExpiry, if_neg (Int.not_lt.mpr hdue), hnone]
  rfl

/-- A copy of the round was not reached. -/
theorem execRehashIntervalExpiry_behind (hsome : (d.advance t).unhashed ≠ none) :
    execRehashIntervalExpiry t d = (newRound t (d.advance t)).raise E.REHASH_BEHIND := by
  simp only [execRehashIntervalExpiry, if_neg (Int.not_lt.mpr hdue)]
  exact if_pos (Option.isSome_iff_ne_none.mpr hsome)

end

/-! ### SLOW_TIER_FILL_DONE -/

/-- A fold that puts each part in front of the rest joins parts that are all there. -/
theorem foldr_map_some_eq_flatten {α : Type} {f : Option (List α) → List α → List α} (parts : List (List α))
    (hjoin : ∀ x acc, f (some x) acc = x ++ acc) : (parts.map some).foldr f [] = parts.flatten := by
  induction parts with
  | nil => rfl
  | cons x xs ih => rw [List.map_cons, List.foldr_cons, ih, hjoin, List.flatten_cons]

/-- The plaintexts of a model's slow-tier shards in the buffer that the step does not use (R202). -/
def slowFilled (m : Nat) (st : SlowSt) (bytes : List Byte) (d : Dev) : Dev :=
  let next := (st.inUse + 1) % 2
  let e := hbmWrite 1 (st.at next) bytes d
  { e with ferry := { e.ferry with
      slow := tput none e.ferry.slow m (some { st with ready := setBit st.ready next true }) } }

/-- Every shard verifies, and together they have the buffer's size. -/
theorem execSlowTierFillDone_verified {m : Nat} {bs plains : List (List Byte)} {d : Dev} {st : SlowSt}
    (hslow : tget none d.ferry.slow m = some st) (hplains : bs.map (fun b => slowPlain m b d) = plains.map some)
    (hsize : plains.flatten.length = st.size) :
    execSlowTierFillDone m bs d = slowFilled m st plains.flatten d := by
  have hall : (plains.map some).all (fun p => p.isSome) = true := by simp
  simp only [execSlowTierFillDone, hslow, hplains]
  rw [foldr_map_some_eq_flatten plains]
  · exact if_pos ⟨hall, hsize⟩
  · exact fun _ _ => rfl

/-! ### The statement -/

/-- Settles O19: each command through its own arm and the case of its function that the premises choose. -/
theorem residencyCommandsComplete : Obligations.ResidencyCommandsComplete := by
  intro s m t hup d
  refine ⟨fun hempty => ?register, fun hunloaded => ?load, fun hunloaded => ?unregister, ?evict, ?hostWait, ?rehash,
    fun bs plains st hslow hplains hsize => ?slow⟩
  case register => exact (becomes_modelRegister hup m).trans (execModelRegister_empty hempty)
  case load => exact (becomes_modelLoad hup m t).trans (execModelLoad_unloaded hunloaded)
  case unregister => exact (becomes_modelUnregister hup m).trans (execModelUnregister_unloaded hunloaded)
  case evict =>
    intro hstate hreach e
    have hends := (becomes_evictionDone hup m).trans (execEvictionDone_ends hstate hreach)
    exact ⟨fun hhost => hends.trans (if_pos hhost), fun hown => hends.trans (if_neg (Bool.eq_false_iff.mp hown))⟩
  case hostWait =>
    intro w since hdue e
    have hexpiry := (becomes_ferryHostWaitExpiry hup m t).trans (execFerryHostWaitExpiry_one hdue)
    refine ⟨fun hkind hstate => ?loadOrShard, fun hkind hstate => ?room, fun n hkind hstate => ?repair⟩
    case loadOrShard =>
      obtain rfl | ⟨n, rfl⟩ := hkind
      · exact hexpiry.trans (waitOver_load hstate)
      · exact hexpiry.trans (waitOver_shard hstate n)
    case room =>
      subst hkind
      exact hexpiry.trans (waitOver_evict hstate)
    case repair =>
      subst hkind
      exact hexpiry.trans (waitOver_repair hstate n)
  case rehash =>
    intro hawake hdue e
    have hexpiry := becomes_rehashIntervalExpiry hup hawake t
    exact ⟨fun hnone => hexpiry.trans (execRehashIntervalExpiry_done hdue hnone),
      fun hsome => hexpiry.trans (execRehashIntervalExpiry_behind hdue hsome)⟩
  case slow => exact (becomes_slowTierFillDone hup m bs).trans (execSlowTierFillDone_verified hslow hplains hsize)

end Sys2Proof.Machine
end

section
/-! SUPPORT. The step boundary (R212 to R215, Table 7.1) and the loss of a step (R237), case by case. -/

namespace Sys2Proof.Machine

/-! ### What leaves the serving controller's own state as it was -/

@[simp] theorem svc_advance (d : Dev) (t : Time) : (d.advance t).svc = d.svc := by
  unfold Dev.advance
  split <;> rfl

@[simp] theorem svc_putCtl (vs : List Nat) (d : Dev) : (putCtl vs d).svc = d.svc := by
  unfold putCtl
  induction List.zip svcCtlFields vs generalizing d with
  | nil => rfl
  | cons x xs ih => exact ih (d.set x.1 0 x.2)

/-- No debug unlock is outstanding (R476): no slot ends for one. -/
theorem endUnlocked_none {d : Dev} (h : d.svc.endAll = false) : endUnlocked d = d := if_pos (Bool.eq_false_iff.mp h)

/-! ### STEP_BOUNDARY -/

theorem becomes_stepBoundary {s : State} (hup : s.dev.coreUp 1 = true) (hlines : s.dev.intakeLines = []) (t : Time) :
    Becomes (.stepBoundary t) s (execStepBoundary t s.dev) :=
  (becomes_of_estuary rfl hup).trans (afterSnoop_untracked hlines _)

/-- The device of which phase 1 collects the results: the models in use are noted (R191). -/
def collecting (d : Dev) : Dev :=
  noteUse (d.get R.TIDE_NUMBER_tide) (modSvc (fun v => { v with overwrote := false }) d)

/-- Phases 2 to 8 of the boundary that began at `d`, with the results of its decode and prefill entries (Table 7.1). -/
def committed (tb : Time) (dec pre : List SvcResult) (d : Dev) : Dev :=
  let n := d.get R.SVC_STATUS_step
  let p := d.get R.SVC_STATUS_plan
  let e := collecting d
  let last := e.svc.stepStart + Nat.max 1 (e.get R.SVC_PLAN_step_tides p)
  let a := modSvc (fun v => { v with due := none, published := false, steps := v.steps + 1 }) e
  let b := phaseCommit tb n (dec ++ pre.filter (fun r => decide (r.outcome = 2))) (takeChunks pre a)
  let c := noteUse (d.get R.TIDE_NUMBER_tide) (phaseAdmit tb n (phaseJoin n (phaseFree n b)))
  noteLow (phasesNext tb n ((n + 1) % 2 ^ 48) last (some p) (c.set R.SVC_STATUS_step 0 (n + 1)))

section
variable {d : Dev} {tb : Time}

/-- A result entry is bad: the step is lost (R215). -/
theorem boundary_bad (hbad : collect (d.get R.SVC_STATUS_step) (collecting d) = none) :
    boundary tb d = loseStep ((collecting d).raise E.SVC_RESULT) := by
  unfold boundary
  rw [collecting] at hbad ⊢
  simp only [hbad]

/-- All results are good: they are committed (R214). -/
theorem boundary_good {dec pre : List SvcResult}
    (hgood : collect (d.get R.SVC_STATUS_step) (collecting d) = some (dec, pre)) :
    boundary tb d = committed tb dec pre d := by
  unfold boundary committed
  rw [collecting] at hgood ⊢
  simp only [hgood]

/-- A boundary is due, of a step in force: it goes by SVC_CTL as it stood when it began (Table 7.11). -/
theorem execStepBoundary_due {t : Time} (hlocked : d.svc.endAll = false) (hdue : (d.advance t).svc.due = some tb)
    (hserves : (d.advance t).get R.SVC_STATUS_state = svServing ∨ (d.advance t).get R.SVC_STATUS_state = svQuiesced) :
    execStepBoundary t d =
      let e := d.advance t
      noteBoundary (putCtl e.svcCtl (boundary tb (putCtl e.svc.ctl e))) := by
  have hkept : (putCtl (d.advance t).svc.ctl (d.advance t)).svc.endAll = false := by simpa using hlocked
  simp only [execStepBoundary, hdue]
  rw [if_pos hserves, underCtl, endUnlocked_none hkept]

end

/-! ### STEP_LOST -/

theorem becomes_stepLost {s : State} (hup : s.dev.coreUp 1 = true) (t : Time) :
    Becomes (.stepLost t) s (execStepLost t s.dev) := becomes_of_estuary rfl hup

/-- The loss of a step, counted and logged; its results are no longer awaited (R237). -/
def lossNoted (d : Dev) : Dev :=
  let n := d.get R.SVC_STATUS_step
  let e := (d.inc C.SVC_COUNTS_steps_lost).raise E.SVC_STEP_LOST
  modSvc (fun v => { v with due := none, published := false })
    (logAdd 0x07 n (leBytes 8 n ++ leBytes 1 e.svc.reruns) e)

/-- The step is lost: its plan is launched again, for a rerun of the step, while reruns are left (R237). -/
theorem loseStep_reruns {d : Dev} (hleft : (lossNoted d).svc.reruns < (lossNoted d).get R.SVC_CTL_retry) :
    loseStep d =
      let f := modSvc (fun v => { v with reruns := v.reruns + 1, republish := true }) (lossNoted d)
      switchTo (d.get R.SVC_STATUS_plan) (f.switchTide f.now) f := if_pos hleft

/-- A plan fault has ended a step of the serving controller (R237). -/
theorem execStepLost_faulted {d : Dev} {t : Time} (hlocked : d.svc.endAll = false)
    (hfault : (d.advance t).get R.TIDE_STATUS_state = tsFaulted) (hunloaded : (d.advance t).svc.loading = none)
    (hserves : (d.advance t).get R.SVC_STATUS_state = svServing ∨ (d.advance t).get R.SVC_STATUS_state = svSwitching ∨
      (d.advance t).get R.SVC_STATUS_state = svQuiesced) :
    execStepLost t d = loseStep (d.advance t) := by
  have hkept : (d.advance t).svc.endAll = false := by rwa [svc_advance]
  rw [execStepLost, if_pos ⟨hfault, hunloaded, hserves⟩, endUnlocked_none hkept]

/-! ### The statement -/

/-- Settles O20: a boundary by whether phase 1 finds every result good, and a lost step with reruns left. The order of
the decode slots in a step and its record, and what becomes of the requests of a failed model, are the model's choice
(notes/assumptions, entries 28 and 107). -/
theorem stepBoundaryCompletes : Obligations.StepBoundaryCompletes := by
  intro s t hup hlocked d st
  refine ⟨fun tb hlines hdue hserves => ?boundary, fun hfault hunloaded hserves => ?lost⟩
  case boundary =>
    intro c n p k e ends
    have hends : Becomes (.stepBoundary t) s (ends (boundary tb c)) :=
      (becomes_stepBoundary hup hlines t).trans (execStepBoundary_due hlocked hdue hserves)
    refine ⟨fun hbad => ?bad, fun dec pre hgood => ?good⟩
    case bad => exact hends.trans (congrArg ends (boundary_bad hbad))
    case good =>
      refine hends.trans (congrArg ends ((boundary_good hgood).trans ?_))
      simp only [committed, collecting, n, p, k, e]
  case lost =>
    intro n p counted logged e hleft f
    exact ((becomes_stepLost hup t).trans (execStepLost_faulted hlocked hfault hunloaded hserves)).trans
      (loseStep_reruns hleft)

end Sys2Proof.Machine
end

section
/-! SUPPORT. The serving controller's registers, decisions, page copies and periods (R207, R220, R224, R230, R259, R261,
R267, R412), case by case. -/

namespace Sys2Proof.Machine

/-! ### The commands -/

section
variable {s : State} (hup : s.dev.coreUp 1 = true)
include hup

theorem becomes_svcPlanWrite (p : Fin 16) (w : Fin 3) (v : Word) :
    Becomes (.svcPlanWrite p w v) s (execSvcPlanWrite p.val w.val v.toNat s.dev) := becomes_of_estuary rfl hup

theorem becomes_admitAccept (i : Fin 16) : Becomes (.admitAccept i) s (decideRing i.val true s.dev) :=
  becomes_of_estuary rfl hup

theorem becomes_admitReject (i : Fin 16) : Becomes (.admitReject i) s (decideRing i.val false s.dev) :=
  becomes_of_estuary rfl hup

theorem becomes_admitHostWaitExpiry (i : Fin 16) (t : Time) :
    Becomes (.admitHostWaitExpiry i t) s (execAdmitHostWaitExpiry i.val t s.dev) := becomes_of_estuary rfl hup

theorem becomes_handoffCopyDone (slot : BitVec 8) (q : BitVec 24) :
    Becomes (.handoffCopyDone slot q) s (execHandoffCopyDone slot.toNat q.toNat s.dev) := becomes_of_estuary rfl hup

theorem becomes_kvSpillDone (slot : BitVec 8) (q : BitVec 24) :
    Becomes (.kvSpillDone slot q) s (execKvSpillDone slot.toNat q.toNat s.dev) := becomes_of_estuary rfl hup

theorem becomes_kvStageDone (slot : BitVec 8) (q : BitVec 24) (data : List Byte) :
    Becomes (.kvStageDone slot q data) s (execKvStageDone slot.toNat q.toNat data s.dev) := becomes_of_estuary rfl hup

theorem becomes_budgetAdjust (c : BitVec 12) (n : BitVec 48) :
    Becomes (.budgetAdjust c n) s (execBudgetAdjust c.toNat n.toNat s.dev) := becomes_of_estuary rfl hup

theorem becomes_refillPeriodExpiry (t : Time) :
    Becomes (.refillPeriodExpiry t) s (execRefillPeriodExpiry t s.dev) := becomes_of_estuary rfl hup

theorem becomes_svcOutEnableWrite (i : Fin 16) (v : Word) :
    Becomes (.svcOutEnableWrite i v) s (execSvcOutEnableWrite i.val v.toNat s.dev) := becomes_of_estuary rfl hup

theorem becomes_meterFeedStallExpiry (t : Time) :
    Becomes (.meterFeedStallExpiry t) s (execMeterFeedStallExpiry t s.dev) := becomes_of_estuary rfl hup

end

/-! ### SVC_PLAN_WRITE -/

/-- Word 1 of SVC_PLAN[p], each field within its range (Table 7.13). -/
def putPlanShape (p v : Nat) (d : Dev) : Dev :=
  let d := (((d.set R.SVC_PLAN_model p (bits v 0 7)).set R.SVC_PLAN_quantum p (Nat.max 1 (bits v 8 8))).set
    R.SVC_PLAN_step_tides p (Nat.max 1 (bits v 16 16))).set R.SVC_PLAN_decode_width p (Nat.min 256 (bits v 32 9))
  (((d.set R.SVC_PLAN_prefill_width p (Nat.min 32 (bits v 41 6))).set R.SVC_PLAN_prefill_units p
    (Nat.min 32 (bits v 47 6))).set R.SVC_PLAN_layers p (Nat.max 1 (bits v 53 8))).store R.SVC_PLAN_enable p (bits v 63 1)

/-- Word 2 of SVC_PLAN[p], each field within its range (Table 7.13). -/
def putPlanPages (p v : Nat) (d : Dev) : Dev :=
  ((d.set R.SVC_PLAN_page_ceiling p (Nat.max 1 (bits v 0 16))).set R.SVC_PLAN_tokens_per_page p
    (Nat.max 1 (bits v 16 16))).set R.SVC_PLAN_eos p (bits v 32 32)

section
variable {p : Nat} {d : Dev}

theorem execSvcPlanWrite_enabled (h : d.is R.SVC_PLAN_enable p = true) (w v : Nat) :
    execSvcPlanWrite p w v d = d.raise E.SVC_CONFIG none (some p) := if_pos h

section
variable (h : d.is R.SVC_PLAN_enable p = false)
include h

theorem execSvcPlanWrite_image (v : Nat) : execSvcPlanWrite p 0 v d = d.set R.SVC_PLAN_image p v :=
  if_neg (Bool.eq_false_iff.mp h)

theorem execSvcPlanWrite_shape (v : Nat) : execSvcPlanWrite p 1 v d = putPlanShape p v d :=
  if_neg (Bool.eq_false_iff.mp h)

theorem execSvcPlanWrite_pages (v : Nat) : execSvcPlanWrite p 2 v d = putPlanPages p v d :=
  if_neg (Bool.eq_false_iff.mp h)

end

end

/-! ### Decisions on pending entries -/

theorem decideRing_pending {d : Dev} {i : Nat} (h : bit (d.get R.SVC_ADMIT_PENDING_rings) i = true) (accept : Bool) :
    decideRing i accept d = modRing i (fun r => { r with decision := some accept }) d := if_pos h

/-- The host was asked at time `since` about a ring's entry, and nothing has decided it yet (R220). -/
structure SvcRing.Asked (r : SvcRing) (since : Time) : Prop where
  asked : r.askedAt = some since
  undecided : r.decision = none
  unaccepted : r.accepted = false
  waiting : r.timedOut = false

theorem execAdmitHostWaitExpiry_over {d : Dev} {i : Nat} {t since : Time} (h : ((d.advance t).svcRing i).Asked since)
    (hover : tdiff t since > ((d.advance t).get R.SVC_CTL_host_wait * msU : Nat)) :
    execAdmitHostWaitExpiry i t d =
      (modRing i (fun r => { r with timedOut := true }) (d.advance t)).raise E.HOST_WAIT_EXPIRED_SVC none (some i) := by
  obtain ⟨hasked, hundecided, hunaccepted, hwaiting⟩ := h
  simp only [execAdmitHostWaitExpiry, hasked]
  exact if_pos ⟨hundecided, Bool.eq_false_iff.mp hunaccepted, Bool.eq_false_iff.mp hwaiting, hover⟩

/-! ### Copies of pages -/

section
variable {d : Dev} {s q : Nat}

/-- No entry of the page's copy is left on the Isthmus. -/
theorem execHandoffCopyDone_crossed {x : SvcSlot} (hslot : d.slot s = some x) (hcopy : x.copies.contains q = true)
    (hcrossed : d.onIsthmus (fun b => b.ofSlot s (fun p => decide (p = q))) = false) :
    execHandoffCopyDone s q d =
      modSlot s (fun x => { x with copies := x.copies.filter (fun y => !decide (y = q)) }) d := by
  simp only [execHandoffCopyDone, hslot]
  exact if_neg (not_or_intro (not_not_intro hcopy) (Bool.eq_false_iff.mp hcrossed))

/-- The entry of Estuary's page table for a page of a slot. -/
def Dev.estPage (d : Dev) (s q : Nat) : Option KvPage := (d.slot s).bind (fun x => tget none x.est.pages q)

/-- The read of an Estuary frame for its spill (R171, R230). -/
def Dev.frameRead (d : Dev) (fr : Nat) : Dev × Bool := hbmRead byFerry none 1 (fr * frameSize) frameSize d

/-- A page's spill to slower-tier frame `f` is no longer awaited. -/
def Dev.withoutSpill (d : Dev) (s q f : Nat) : Dev :=
  modSvc (fun v => { v with spills := v.spills.filter (fun x => !decide (x = (s, q, f))) }) d

/-- The bytes of Estuary's frame `fr` are in slower-tier frame `f`, and the page is there (R230). -/
def spillTo (s q fr f : Nat) (d : Dev) : Dev :=
  let bytes := mbytes d.mem (hbmKey 1 (fr * frameSize)) frameSize
  setPage s 1 q (some { frame := none, slow := some f, staged := false })
    (modSvc (fun v => { v with spilled := v.spilled ++ [(d.slowAddr f, bytes)] }) d)

section
variable {f fr : Nat}
  (hspill : d.svc.spills.find? (fun x => decide (x.1 = s ∧ x.2.1 = q)) = some (s, q, f))
  (hframe : (d.estPage s q).bind (fun p => p.frame) = some fr)
include hspill hframe

theorem execKvSpillDone_framed :
    execKvSpillDone s q d =
      let e := (d.frameRead fr).1.withoutSpill s q f
      if (d.frameRead fr).2 then e else spillTo s q fr f e := by
  rw [Dev.estPage] at hframe
  simp only [execKvSpillDone, hspill, hframe]
  rfl

/-- The page cannot be read: it stays where it is. -/
theorem execKvSpillDone_unread (hbad : (d.frameRead fr).2 = true) :
    execKvSpillDone s q d = (d.frameRead fr).1.withoutSpill s q f :=
  (execKvSpillDone_framed hspill hframe).trans (if_pos hbad)

theorem execKvSpillDone_read (hgood : (d.frameRead fr).2 = false) :
    execKvSpillDone s q d = spillTo s q fr f ((d.frameRead fr).1.withoutSpill s q f) :=
  (execKvSpillDone_framed hspill hframe).trans (if_neg (Bool.eq_false_iff.mp hgood))

end

/-- A page with its data in Estuary's frame `f`; its slower-tier frame remains (R230). -/
def stageTo (s q f : Nat) (data : List Byte) (d : Dev) : Dev :=
  setPage s 1 q (some { frame := some f, slow := (d.estPage s q).bind (fun p => p.slow), staged := true })
    (modSvc (fun v => { v with
      stages := v.stages.filter (fun x => !decide (x = (s, q, f))), staged := v.staged ++ [(s, q, f)] })
      (hbmWrite 1 (f * frameSize) (data.take frameSize) d))

theorem execKvStageDone_awaited {f : Nat}
    (hstage : d.svc.stages.find? (fun x => decide (x.1 = s ∧ x.2.1 = q)) = some (s, q, f)) (data : List Byte) :
    execKvStageDone s q data d = stageTo s q f data d := by
  simp only [execKvStageDone, hstage]
  rfl

end

/-! ### Periods, and the rings' control word -/

/-- The budgets' refills are the device's own: the elapses of their period are counted (R259). -/
theorem execRefillPeriodExpiry_own {d : Dev} {t : Time} (h : (d.advance t).hosted 9 = false) :
    execRefillPeriodExpiry t d =
      let e := d.advance t
      let n := (tdiff t e.svc.refillAt).toNat / e.refillPeriod
      modSvc (fun v => { v with
        refills := v.refills + n, refillAt := v.refillAt + BitVec.ofNat 64 (n * e.refillPeriod) }) e :=
  if_neg (Bool.eq_false_iff.mp h)

/-- The control word of SVC_OUT[i]. -/
def putOutCtl (i v : Nat) (d : Dev) : Dev :=
  ((d.set R.SVC_OUT_size i (bits v 0 4)).store R.SVC_OUT_enable i (bits v 4 1)).set R.SVC_OUT_vector i (bits v 5 6)

section
variable {d : Dev} {i v : Nat}

/-- The write enables the ring, which then is empty (R412). -/
theorem execSvcOutEnableWrite_enables (hon : (putOutCtl i v d).is R.SVC_OUT_enable i = true)
    (hoff : d.is R.SVC_OUT_enable i = false) :
    execSvcOutEnableWrite i v d =
      let e := putOutCtl i v d
      modRing i (fun r => { r with phase := true }) (e.set R.SVC_OUT_tail i (e.get R.SVC_OUT_head i)) :=
  if_pos ⟨hon, Bool.eq_false_iff.mp hoff⟩

theorem execSvcOutEnableWrite_stores
    (h : (putOutCtl i v d).is R.SVC_OUT_enable i = false ∨ d.is R.SVC_OUT_enable i = true) :
    execSvcOutEnableWrite i v d = putOutCtl i v d :=
  if_neg fun ⟨hon, hoff⟩ => h.elim (fun hdown => Bool.eq_false_iff.mp hdown hon) hoff

end

/-- A record has waited in the feed for over a second (R267). -/
theorem execMeterFeedStallExpiry_stalls {d : Dev} {t : Time}
    (hlate : ∃ r ∈ (d.advance t).svc.feed, tdiff t r.since > (secU : Nat))
    (hfirst : (d.advance t).is R.SVC_METER_FEED_stalled = false) :
    execMeterFeedStallExpiry t d = ((d.advance t).set R.SVC_METER_FEED_stalled 0 1).raise E.METER_FEED_STALL := by
  have hany : (d.advance t).svc.feed.any (fun r => decide (tdiff t r.since > (secU : Nat))) = true := by
    simpa only [List.any_eq_true, decide_eq_true_iff] using hlate
  exact if_pos ⟨hany, Bool.eq_false_iff.mp hfirst⟩

/-! ### The statement -/

/-- Settles O21: each command through its own arm and the case of its function that the premises choose. What a field of
SVC_PLAN stores of a value outside its range, that a write which clears the enable of a plan changes nothing either,
where spilled pages lie and how their copies end, and that a page which cannot be read is not spilled, are the model's
choice (notes/assumptions, entries 31, 49, 73 and 105). -/
theorem servingCommandsComplete : Obligations.ServingCommandsComplete := by
  intro s t hup u d
  refine ⟨fun p v => ⟨fun hon w => ?enabled, fun hoff => ⟨?image, ?shape, ?pages⟩⟩, fun i hpending => ⟨?accept, ?reject⟩,
    fun i since hasked hundecided hunaccepted hwaiting hover => ?hostWait,
    fun slot q x hslot hcopy hcrossed => ?handoff, fun slot q f fr hspill hframe => ?spill,
    fun slot q data f hstage => ?stage, fun c n => ?adjust, fun hown => ?refill,
    fun i v => ?outWrite, fun hlate hfirst => ?stall⟩
  case enabled => exact (becomes_svcPlanWrite hup p w v).trans (execSvcPlanWrite_enabled hon _ _)
  case image => exact (becomes_svcPlanWrite hup p 0 v).trans (execSvcPlanWrite_image hoff _)
  case shape => exact (becomes_svcPlanWrite hup p 1 v).trans (execSvcPlanWrite_shape hoff _)
  case pages => exact (becomes_svcPlanWrite hup p 2 v).trans (execSvcPlanWrite_pages hoff _)
  case accept => exact (becomes_admitAccept hup i).trans (decideRing_pending hpending true)
  case reject => exact (becomes_admitReject hup i).trans (decideRing_pending hpending false)
  case hostWait =>
    exact (becomes_admitHostWaitExpiry hup i t).trans
      (execAdmitHostWaitExpiry_over ⟨hasked, hundecided, hunaccepted, hwaiting⟩ hover)
  case handoff => exact (becomes_handoffCopyDone hup slot q).trans (execHandoffCopyDone_crossed hslot hcopy hcrossed)
  case spill =>
    intro x e bytes
    have hdone := becomes_kvSpillDone hup slot q
    exact ⟨fun hbad => hdone.trans (execKvSpillDone_unread hspill hframe hbad),
      fun hgood => hdone.trans (execKvSpillDone_read hspill hframe hgood)⟩
  case stage => exact (becomes_kvStageDone hup slot q data).trans (execKvStageDone_awaited hstage data)
  case adjust => exact becomes_budgetAdjust hup c n
  case refill => exact (becomes_refillPeriodExpiry hup t).trans (execRefillPeriodExpiry_own hown)
  case outWrite =>
    have hwrite := becomes_svcOutEnableWrite hup i v
    exact ⟨fun ⟨hon, hoff⟩ => hwrite.trans (execSvcOutEnableWrite_enables hon hoff),
      fun hstays => hwrite.trans (execSvcOutEnableWrite_stores hstays)⟩
  case stall => exact (becomes_meterFeedStallExpiry hup t).trans (execMeterFeedStallExpiry_stalls hlate hfirst)

end Sys2Proof.Machine
end

section
/-! SUPPORT. The Isthmus: delivery of entries (R273), replays and retrains (R275 to R277) and the beacon sideband (R278
to R280), case by case. -/

namespace Sys2Proof.Machine

/-! ### The commands -/

section
variable {s : State} (hup : s.dev.coreUp 0 = true)
include hup

theorem becomes_istEntryArrival (hlive : s.dev.fatal = false) (toE : Bool) (t : Time) :
    Becomes (.istEntryArrival toE t) s (execIstEntryArrival toE t s.dev) := becomes_of_active rfl hup hlive

theorem becomes_istCrcFail (x : IstFlit) :
    Becomes (.istCrcFail x) s (execIstCrcFail x.toEstuary x.seq x.t s.dev) := becomes_of_onDie rfl hup

theorem becomes_istRetrainDone (up : BitVec 8) (reps : List LaneRepair) (t : Time) :
    Becomes (.istRetrainDone up reps t) s (execIstRetrainDone up.toNat reps t s.dev) := becomes_of_onDie rfl hup

theorem becomes_sidebandFrame (toE crcOk : Bool) (seq : BitVec 16) (x : SideTime) (t : Time) :
    Becomes (.sidebandFrame toE crcOk seq x t) s
      (execSidebandFrame toE crcOk seq x.sent x.drift x.delay t s.dev) := becomes_of_onDie rfl hup

end

/-! ### IST_ENTRY_ARRIVAL -/

/-- What is on its way in a direction once the first entry of run `r` has arrived (R273). -/
def IstDir.arrived (x : IstDir) (r : IstRun) (rest : List IstRun) : IstDir :=
  { x with sent := if r.count ≤ 1 then rest else r.drop 1 :: rest, replays := 0 }

theorem execIstEntryArrival_sent {toE : Bool} {t : Time} {d : Dev} {r : IstRun} {rest : List IstRun}
    (hcarries : (d.advance t).istSync.isthmusUp = true) (hsent : ((d.advance t).istSync.istDir toE).sent = r :: rest) :
    execIstEntryArrival toE t d = deliverEntry r ((d.advance t).istSync.setIstDir toE
      (((d.advance t).istSync.istDir toE).arrived r rest)) := by
  simp only [execIstEntryArrival, if_neg (not_not_intro hcarries), hsent]
  rfl

/-! ### IST_CRC_FAIL -/

/-- Times that flit `flit` of a direction has been replayed in succession. -/
def IstDir.replaysOf (x : IstDir) (flit : BitVec 8) : Nat := if x.flit = flit then x.replays else 0

/-- A CRC failure of flit `flit` and the replay that it begins are counted; `raised` is when EV_IST_CRC was last
raised (R275). -/
def countCrcFail (toE : Bool) (flit : BitVec 8) (raised : Option Time) (d : Dev) : Dev :=
  (({ d with ist := { d.ist with crcAt := raised } }).setIstDir toE
    { d.istDir toE with flit := flit, replays := (d.istDir toE).replaysOf flit + 1 }).inc C.IST_COUNTS_crc_errors

/-- A flit that has been replayed replay_limit times makes the Isthmus retrain (R275). -/
def retrainAtLimit (replays : Nat) (d : Dev) : Dev :=
  if replays ≥ d.get R.IST_CTL_replay_limit then beginRetrain d else d

theorem retrainAtLimit_reached {n : Nat} {d : Dev} (h : d.get R.IST_CTL_replay_limit ≤ n) :
    retrainAtLimit n d = beginRetrain d := if_pos h

theorem retrainAtLimit_below {n : Nat} {d : Dev} (h : n < d.get R.IST_CTL_replay_limit) :
    retrainAtLimit n d = d := if_neg (Nat.not_le.mpr h)

section
variable {toE : Bool} {flit : BitVec 8} {t : Time} {d : Dev} (hcarries : (d.advance t).isthmusUp = true)
include hcarries

/-- EV_IST_CRC was raised less than a second ago. -/
theorem execIstCrcFail_recent {t0 : Time} (hat : (d.advance t).ist.crcAt = some t0)
    (hrecent : tdiff (d.advance t).now t0 < (secU : Nat)) :
    execIstCrcFail toE flit t d = retrainAtLimit (((d.advance t).istDir toE).replaysOf flit)
      (countCrcFail toE flit (some t0) (d.advance t)) := by
  have hearly : decide (tdiff (d.advance t).now t0 ≥ (secU : Nat)) = false := decide_eq_false (Int.not_le.mpr hrecent)
  simp only [execIstCrcFail, if_neg (not_not_intro hcarries), hat, hearly]
  rfl

/-- EV_IST_CRC has not been raised yet. -/
theorem execIstCrcFail_first (hat : (d.advance t).ist.crcAt = none) :
    execIstCrcFail toE flit t d = retrainAtLimit (((d.advance t).istDir toE).replaysOf flit)
      ((countCrcFail toE flit (some (d.advance t).now) (d.advance t)).raise E.IST_CRC) := by
  simp only [execIstCrcFail, if_neg (not_not_intro hcarries), hat]
  rfl

end

/-! ### IST_RETRAIN_DONE -/

/-- A retrain brought up no module: the count of such retrains, the width, and the fall to 6 or fewer (R276, R277). -/
def noModuleUp (d : Dev) : Dev :=
  let e := ({ d with ist := { d.ist with fails := d.ist.fails + 1 } }.set R.IST_STATUS_modules 0 0).set
    R.IST_RESERVE_capacity 0 0
  if popCount (d.get R.IST_STATUS_modules) 8 > 6 then e.raise E.IST_BUDGET_BREACH else e

/-- The Isthmus tries again, unless `fails` retrains reach retrain_max (R276). -/
def retrainOrDown (fails : Nat) (d : Dev) : Dev :=
  if fails ≥ d.get R.IST_CTL_retrain_max then (d.set R.IST_STATUS_state 0 isDown).raise E.IST_DOWN else beginRetrain d

theorem retrainOrDown_limit {n : Nat} {d : Dev} (h : d.get R.IST_CTL_retrain_max ≤ n) :
    retrainOrDown n d = (d.set R.IST_STATUS_state 0 isDown).raise E.IST_DOWN := if_pos h

theorem retrainOrDown_again {n : Nat} {d : Dev} (h : n < d.get R.IST_CTL_retrain_max) :
    retrainOrDown n d = beginRetrain d := if_neg (Nat.not_le.mpr h)

/-- A retrain brought modules `up`, which ends the count of those that brought none (R276). -/
def modulesUp (up : Nat) (d : Dev) : Dev := setModules up { d with ist := { d.ist with fails := 0 } }

/-- The event of a fall to `m` modules: to 7 from the width `width` at which flits were last carried, to 6 or fewer from
`before` modules (R277). -/
def raiseNarrowed (m width before : Nat) (d : Dev) : Dev :=
  if m = 7 ∧ width > 7 then d.raise E.IST_DEGRADED
  else if m ≤ 6 ∧ before > 6 then d.raise E.IST_BUDGET_BREACH
  else d

section
variable {m width before : Nat} {d : Dev}

theorem raiseNarrowed_degraded (h : m = 7 ∧ 7 < width) : raiseNarrowed m width before d = d.raise E.IST_DEGRADED :=
  if_pos h

theorem raiseNarrowed_breach (h : m ≤ 6 ∧ 6 < before) :
    raiseNarrowed m width before d = d.raise E.IST_BUDGET_BREACH :=
  (if_neg fun ⟨hseven, _⟩ => by omega).trans (if_pos h)

theorem raiseNarrowed_unmarked (hseven : ¬ (m = 7 ∧ 7 < width)) (hsix : ¬ (m ≤ 6 ∧ 6 < before)) :
    raiseNarrowed m width before d = d := (if_neg hseven).trans (if_neg hsix)

end

section
variable {reps : List LaneRepair} {t : Time} {d : Dev} (htrains : (d.advance t).get R.IST_STATUS_state = isTraining)
include htrains

theorem execIstRetrainDone_none : execIstRetrainDone 0 reps t d =
    retrainOrDown ((noteRepairs reps (d.advance t)).ist.fails + 1) (noModuleUp (noteRepairs reps (d.advance t))) :=
  if_neg (not_not_intro htrains)

theorem execIstRetrainDone_some {up : Nat} (hsome : up ≠ 0) : execIstRetrainDone up reps t d =
    raiseNarrowed (popCount up 8) (noteRepairs reps (d.advance t)).ist.width
      (popCount ((noteRepairs reps (d.advance t)).get R.IST_STATUS_modules) 8)
      (modulesUp up (noteRepairs reps (d.advance t))) :=
  (if_neg (not_not_intro htrains)).trans (if_neg hsome)

end

/-! ### SIDEBAND_FRAME -/

/-- The sideband receiver of a direction. -/
def Dev.sideReceiver (d : Dev) (toE : Bool) : SidebandSt := if toE then d.ist.sideE else d.ist.sideH

/-- The receiver's answer to a frame: what it becomes, and whether it takes the frame (R279). -/
def Dev.sideAnswer (d : Dev) (toE crcOk : Bool) (seq : BitVec 16) (sent : BitVec 32) : SidebandSt × Bool :=
  sideFrame (d.sideReceiver toE) crcOk seq (d.beaconStates toE) sent

/-- The receiver of a direction becomes `x`, and sb_locked shows whether both are locked. -/
def putSideReceiver (toE : Bool) (x : SidebandSt) (d : Dev) : Dev :=
  let e := { d with ist := if toE then { d.ist with sideE := x } else { d.ist with sideH := x } }
  e.setB R.IST_STATUS_sb_locked 0 (e.ist.sideE.locked && e.ist.sideH.locked)

/-- A frame that is not accepted is counted, with the events of 4 and of 64 losses in succession (R279). -/
def countSideLoss (losses : Nat) (d : Dev) : Dev :=
  let e := d.inc C.IST_COUNTS_sb_frames_lost
  if losses = 4 then e.raise E.IST_SIDEBAND
  else if losses = 64 then e.raise E.IST_SIDEBAND_LOST
  else e

section
variable {n : Nat} {d : Dev}

theorem countSideLoss_four (h : n = 4) :
    countSideLoss n d = (d.inc C.IST_COUNTS_sb_frames_lost).raise E.IST_SIDEBAND := if_pos h

theorem countSideLoss_sixtyFour (h : n = 64) :
    countSideLoss n d = (d.inc C.IST_COUNTS_sb_frames_lost).raise E.IST_SIDEBAND_LOST :=
  (if_neg (by omega)).trans (if_pos h)

theorem countSideLoss_other (hfour : n ≠ 4) (hsixtyFour : n ≠ 64) :
    countSideLoss n d = d.inc C.IST_COUNTS_sb_frames_lost := (if_neg hfour).trans (if_neg hsixtyFour)

end

section
variable {crcOk : Bool} {seq : BitVec 16} {sent : BitVec 32} {drift delay : BitVec 16} {t : Time} {d : Dev}

theorem execSidebandFrame_estuary (htaken : ((d.advance t).sideAnswer true crcOk seq sent).2 = true) :
    execSidebandFrame true crcOk seq sent drift delay t d =
      putSideReceiver true ((d.advance t).sideAnswer true crcOk seq sent).1 (d.advance t) := if_pos htaken

/-- At Headland an accepted frame moves the copy of hall time, with the delay that a frame which relocks measures
(R280). -/
theorem execSidebandFrame_headland (htaken : ((d.advance t).sideAnswer false crcOk seq sent).2 = true) :
    execSidebandFrame false crcOk seq sent drift delay t d =
      let e := putSideReceiver false ((d.advance t).sideAnswer false crcOk seq sent).1 (d.advance t)
      headlandTime sent drift
        (if ((d.advance t).sideReceiver false).locked then e else e.set R.IST_SB_delay 0 delay.toNat) := if_pos htaken

theorem execSidebandFrame_lost {toE : Bool} (hlost : ((d.advance t).sideAnswer toE crcOk seq sent).2 = false) :
    execSidebandFrame toE crcOk seq sent drift delay t d =
      countSideLoss ((d.advance t).sideAnswer toE crcOk seq sent).1.losses
        (putSideReceiver toE ((d.advance t).sideAnswer toE crcOk seq sent).1 (d.advance t)) :=
  if_neg (Bool.eq_false_iff.mp hlost)

end

/-! ### The statement -/

/-- Settles O22: each command through its own arm and the case of its function that the premises choose. That a retrain
with no module up is what counts toward retrain_max, which number a receiver awaits after lost frames, the order of the
other classes' entries, the places of beacon lines in a frame and when beacons pass between the dies are the model's
reading (notes/assumptions, entries 83, 20, 109, 110 and 112). -/
theorem isthmusCommandsComplete : Obligations.IsthmusCommandsComplete := by
  intro s t hup d
  refine ⟨fun toE r rest hlive hcarries hsent => ?arrival, fun toE flit hcarries => ?crc,
    fun up reps htrains => ⟨fun hnone => ?noModule, fun hsome => ?modules⟩, fun toE crcOk seq sent drift delay => ?side⟩
  case arrival => exact (becomes_istEntryArrival hup hlive toE t).trans (execIstEntryArrival_sent hcarries hsent)
  case crc =>
    intro x n struck
    have hfail := becomes_istCrcFail hup ⟨toE, flit, t⟩
    refine ⟨fun t0 hat hrecent => ?recent, fun hat => ?first⟩
    case recent =>
      have hcounted := hfail.trans (execIstCrcFail_recent hcarries hat hrecent)
      exact ⟨fun hlimit => hcounted.trans (retrainAtLimit_reached hlimit),
        fun hbelow => hcounted.trans (retrainAtLimit_below hbelow)⟩
    case first =>
      have hcounted := hfail.trans (execIstCrcFail_first hcarries hat)
      exact ⟨fun hlimit => hcounted.trans (retrainAtLimit_reached hlimit),
        fun hbelow => hcounted.trans (retrainAtLimit_below hbelow)⟩
  case noModule =>
    subst hnone
    have hdone := (becomes_istRetrainDone hup 0 reps t).trans (execIstRetrainDone_none htrains)
    exact ⟨fun hlimit => hdone.trans (retrainOrDown_limit hlimit),
      fun hbelow => hdone.trans (retrainOrDown_again hbelow)⟩
  case modules =>
    have hdone := (becomes_istRetrainDone hup up reps t).trans
      (execIstRetrainDone_some htrains (BitVec.toNat_ne_iff_ne.mpr hsome))
    exact ⟨fun hseven => hdone.trans (raiseNarrowed_degraded hseven),
      fun hsix => hdone.trans (raiseNarrowed_breach hsix),
      fun hseven hsix => hdone.trans (raiseNarrowed_unmarked hseven hsix)⟩
  case side =>
    intro x y e
    have hframe := becomes_sidebandFrame hup toE crcOk seq ⟨sent, drift, delay⟩ t
    refine ⟨fun htaken => ⟨fun hdir => ?estuary, fun hdir => ?headland⟩, fun hlost => ?lost⟩
    case estuary =>
      subst hdir
      exact hframe.trans (execSidebandFrame_estuary htaken)
    case headland =>
      subst hdir
      exact hframe.trans (execSidebandFrame_headland htaken)
    case lost =>
      have hcounted := hframe.trans (execSidebandFrame_lost hlost)
      exact ⟨fun hfour => hcounted.trans (countSideLoss_four hfour),
        fun hsixtyFour => hcounted.trans (countSideLoss_sixtyFour hsixtyFour),
        fun ⟨hfour, hsixtyFour⟩ => hcounted.trans (countSideLoss_other hfour hsixtyFour)⟩

end Sys2Proof.Machine
end

section
/-! SUPPORT. What follows every command (R298, R299, R386, R414, R416, R451, R452, Table 16.9), part by part, on a
device on which that part has nothing to act on. -/

namespace Sys2Proof.Machine

/-- A run of steps none of which changes what it starts from leaves it as it is. -/
theorem foldl_of_fixed {α β : Type} {f : α → β → α} {a : α} {xs : List β} (h : ∀ x ∈ xs, f a x = a) :
    xs.foldl f a = a :=
  xs.foldlRecOn f (motive := (· = a)) rfl (fun _ hb x hx => hb ▸ h x hx)

section
variable {d : Dev}

/-! ### The links -/

theorem settleLink_settled {l : Nat} (h : d.linkSettled l) : settleLink d l = d := by
  unfold Dev.linkSettled at h
  unfold settleLink
  split at h
  case isTrue hup =>
    obtain ⟨hstore, hstopped, hshown⟩ := h
    rw [if_neg (not_not_intro hup), if_neg ?room, if_neg ?stopped, if_neg (not_not_intro hshown)]
    case room => exact fun ⟨hover, hwaits⟩ => hstore.elim (Nat.not_le.mpr hover) hwaits
    case stopped => exact fun ⟨hfull, hgoes⟩ => hstopped.elim (ne_false_of_eq_true hfull) hgoes
  case isFalse hdown => rw [if_pos hdown, if_pos h]

theorem settleLinks_settled (h : ∀ l, l < 6 → d.linkSettled l) : settleLinks d = d :=
  foldl_of_fixed fun l hl => settleLink_settled (h l (List.mem_range.mp hl))

/-! ### The launch, and serving's first step -/

theorem settleFailed_none (h : d.launch.failed = []) (fuel : Nat) : settleFailed fuel d = d := by
  cases fuel with
  | zero => rfl
  | succ n => simp only [settleFailed, h]

theorem reportLaunch_not_due (h : d.launch.tide = none ∨ d.launch.reported = true ∨ d.launch.asked.isSome = true ∨
    d.launch.children.any (fun c => c.ack.isNone && !c.lost) = true) : reportLaunch d = d :=
  if_pos (h.imp_left Option.isNone_iff_eq_none.mpr)

theorem settleLaunch_settled (h : d.launchSettled) : settleLaunch d = d := by
  obtain ⟨hfailed, hreport⟩ := h
  rw [settleLaunch, settleFailed_none hfailed, reportLaunch_not_due hreport]

theorem svcStarted_not_started (h : ¬ (d.get R.SVC_STATUS_state = svSwitching ∧
    d.get R.TIDE_STATUS_state = tsRunning ∧ d.svc.loading = none)) : svcStarted d = d := if_neg h

/-! ### The Quay ports -/

theorem endPause_not_over {q : Nat}
    (h : ¬ (d.is R.QUAY_PORT_paused q = true ∧ tdiff d.now (tget 0 d.quay.pauseEnd q) ≥ 0)) :
    endPause q d = d := if_neg h

theorem settlePause_kept {q : Nat} (h : (d.quayUp q = true ∧ d.quayHeld q > quayFull) ↔ q ∈ d.quay.pausing) :
    settlePause q d = d := by
  refine if_pos ?_
  rw [← Bool.decide_coe (d.quayUp q), ← Bool.decide_and]
  exact decide_eq_decide.mpr h

theorem settleQuay_settled (h : d.quaySettled) : settleQuay d = d := by
  obtain ⟨hports, hreads⟩ := h
  have hnone : d.quay.qps.filter (fun e => decide (e.2.waiting ≠ [])) = [] :=
    List.filter_eq_nil_iff.mpr fun e he => by simp [hreads e he]
  rw [settleQuay, endPause_not_over (hports 0 (by decide)).1, endPause_not_over (hports 1 (by decide)).1,
    settlePause_kept (hports 0 (by decide)).2, settlePause_kept (hports 1 (by decide)).2, hnone, List.foldl_nil]

/-! ### The Ferry, the power state and the quiesce sequence -/

theorem settleFerry_settled (h : d.ferrySettled) : settleFerry d = d :=
  if_neg fun ⟨hresumes, hfree, hserves, hswitches⟩ => by
    obtain hno | hheld | hserving | hswitching := h
    · exact Bool.false_ne_true (hno.symm.trans hresumes)
    · exact hfree hheld
    · exact hserves hserving
    · exact hswitches hswitching

theorem settlePower_settled (hserve : ¬ (d.powerState = psServe ∧ d.planHeld = false))
    (hidle : ¬ (d.powerState = psIdle ∧ d.planHeld = true)) : settlePower d = d :=
  (if_neg fun ⟨hst, hnone⟩ => hserve ⟨hst, Bool.eq_false_iff.mpr hnone⟩).trans (if_neg hidle)

theorem flushQuiesce_not_ready (h : ¬ (d.pwr.quiesceStep = 1 ∧ d.quiet = true)) : flushQuiesce d = d := if_neg h

end

/-- Settles O49: each part of `after` in turn leaves the device to the next as it was. -/
theorem nothingToSettleChangesNothing : Obligations.NothingToSettleChangesNothing := by
  intro d ⟨hlinks, hlaunch, hquay, hferry, hsvc, hserve, hidle, hquiesce⟩
  rw [after, settleLinks_settled hlinks, settleLaunch_settled hlaunch, svcStarted_not_started hsvc,
    settleQuay_settled hquay, settleFerry_settled hferry, settlePower_settled hserve hidle,
    flushQuiesce_not_ready hquiesce]

end Sys2Proof.Machine
end

section
/-! SUPPORT. A link's acknowledgements (R295): what follows a change of its store leaves the store as it is, and an ack
of one of consecutive flits leaves those after it. -/

namespace Sys2Proof.Machine

/-! ### The table of links -/

/-- A table of links with rising keys reads a link as it was changed. -/
theorem link_modLink_same {d : Dev} (hrise : rising d.links = true) (l : Nat) (f : LinkSt → LinkSt) :
    (d.modLink l f).link l = f (d.link l) := tget_tput_same_rising l hrise

theorem rising_modLink {d : Dev} (hrise : rising d.links = true) (l : Nat) (f : LinkSt → LinkSt) :
    rising (d.modLink l f).links = true := rising_tput l hrise

/-! ### What leaves a link's numbered flits as they were -/

/-- From `d` to `e` link `l` keeps the flits sent and not acknowledged, and the number of the next; the table of links
still rises. -/
structure KeepsSent (l : Nat) (d e : Dev) : Prop where
  rises : rising e.links = true
  store : (e.link l).store = (d.link l).store
  nextSeq : (e.link l).nextSeq = (d.link l).nextSeq

theorem KeepsSent.trans {l : Nat} {d e f : Dev} (hde : KeepsSent l d e) (hef : KeepsSent l e f) : KeepsSent l d f :=
  ⟨hef.rises, hef.store.trans hde.store, hef.nextSeq.trans hde.nextSeq⟩

theorem keepsSent_of_links_eq {l : Nat} {d e : Dev} (hrise : rising d.links = true) (h : e.links = d.links) :
    KeepsSent l d e := by
  have hlink : e.link l = d.link l := by rw [Dev.link, h, Dev.link]
  exact ⟨h ▸ hrise, by rw [hlink], by rw [hlink]⟩

theorem keepsSent_modLink {l : Nat} {d : Dev} {f : LinkSt → LinkSt} (hrise : rising d.links = true)
    (hstore : (f (d.link l)).store = (d.link l).store) (hnext : (f (d.link l)).nextSeq = (d.link l).nextSeq) :
    KeepsSent l d (d.modLink l f) :=
  ⟨rising_modLink hrise l f, by rw [link_modLink_same hrise, hstore], by rw [link_modLink_same hrise, hnext]⟩

/-- A run of steps that each keep the numbered flits keeps them. -/
theorem keepsSent_foldl {α : Type} {l : Nat} {f : Dev → α → Dev}
    (hstep : ∀ e x, rising e.links = true → KeepsSent l e (f e x)) {d : Dev} (hrise : rising d.links = true)
    (xs : List α) : KeepsSent l d (xs.foldl f d) :=
  xs.foldlRecOn f (motive := KeepsSent l d) (keepsSent_of_links_eq hrise rfl)
    (fun e hkept x _ => hkept.trans (hstep e x hkept.rises))

@[simp] theorem links_wakeFor (die a n : Nat) (d : Dev) : (wakeFor die a n d).links = d.links := by
  have hstack (s : Nat) (e : Dev) : (wakeStack s e).links = e.links := by
    unfold wakeStack
    split <;> rfl
  simp only [wakeFor, hstack]

/-- Drift goes on where the store has room again (R299). -/
def reopenDrift (l : Nat) (d : Dev) : Dev :=
  if d.is R.CW_STATUS_drift_stopped l ∧ (d.link l).held ≤ 131072 ∧ ¬ d.storeFull l then
    d.set R.CW_STATUS_drift_stopped l 0
  else d

theorem resumeDrift_eq (l : Nat) (d : Dev) :
    resumeDrift l d =
      if (reopenDrift l d).is R.CW_STATUS_drift_stopped l ∨ (d.link l).waiting = [] then reopenDrift l d
      else (d.link l).waiting.foldl (fun d w => offer l w d)
        ((reopenDrift l d).modLink l (fun x => { x with waiting := [] })) := rfl

section
variable {l : Nat} {d : Dev} (hrise : rising d.links = true)
include hrise

theorem keepsSent_offer (w : Packet × Bool) : KeepsSent l d (offer l w d) := by
  unfold offer enqueue
  dsimp only
  split
  case isTrue => exact keepsSent_modLink hrise rfl rfl
  case isFalse => exact keepsSent_modLink hrise rfl rfl

theorem keepsSent_resumeDrift : KeepsSent l d (resumeDrift l d) := by
  have hreopened : KeepsSent l d (reopenDrift l d) := by
    unfold reopenDrift
    split
    case isTrue => exact keepsSent_of_links_eq hrise rfl
    case isFalse => exact keepsSent_of_links_eq hrise rfl
  rw [resumeDrift_eq]
  refine hreopened.trans ?_
  split
  case isTrue => exact keepsSent_of_links_eq hreopened.rises rfl
  case isFalse =>
    exact (keepsSent_modLink hreopened.rises rfl rfl).trans
      (keepsSent_foldl (fun _ w h => keepsSent_offer h w) (rising_modLink hreopened.rises _ _) _)

theorem keepsSent_spillFlit (b : FlitBody) : KeepsSent l d (spillFlit l b d) := by
  unfold spillFlit
  dsimp only
  split
  case h_1 n _ =>
    have hwoken : KeepsSent l d (wakeFor (dieOfLink l) (d.spillAt l n) 256 d) :=
      keepsSent_of_links_eq hrise (links_wakeFor ..)
    have hlisted := hwoken.trans (keepsSent_modLink (f := fun x => { x with spill := x.spill ++ [(n, b)] })
      hwoken.rises rfl rfl)
    exact hlisted.trans (keepsSent_of_links_eq hlisted.rises rfl)
  case h_2 => exact keepsSent_of_links_eq hrise rfl

theorem keepsSent_settleSpill : KeepsSent l d (settleSpill l d) := by
  unfold settleSpill
  dsimp only
  split
  case isTrue => exact keepsSent_of_links_eq hrise rfl
  case isFalse =>
    exact (keepsSent_modLink hrise rfl rfl).trans
      (keepsSent_foldl (fun _ b h => keepsSent_spillFlit h b) (rising_modLink hrise _ _) _)

/-- What follows a change of a link's store leaves the store itself as that change made it (R298, R299). -/
theorem keepsSent_showStore : KeepsSent l d (showStore l d) := by
  have hdrift := keepsSent_resumeDrift (l := l) hrise
  have hspill := hdrift.trans (keepsSent_settleSpill hdrift.rises)
  exact hspill.trans (keepsSent_of_links_eq hspill.rises rfl)

end

/-! ### An acknowledgement -/

section
variable {l : Nat} {a : BitVec 16} {d : Dev}

theorem applyAck_nothing_stored (h : (d.link l).store = []) : applyAck l a d = d := by
  simp only [applyAck, h]

variable {o : Stored} {rest : List Stored} (hstore : (d.link l).store = o :: rest)
include hstore

theorem applyAck_out_of_range (hout : sdiff16 a o.seq < 0 ∨ sdiff16 ((d.link l).nextSeq - 1) a < 0) :
    applyAck l a d = d := by
  simp only [applyAck, hstore]
  exact if_pos hout

/-- An ack in range leaves the flits after the one that it names. -/
theorem applyAck_in_range (hin : ¬ (sdiff16 a o.seq < 0 ∨ sdiff16 ((d.link l).nextSeq - 1) a < 0))
    (hrise : rising d.links = true) :
    rising (applyAck l a d).links = true ∧
    ((applyAck l a d).link l).store = (d.link l).store.filter (fun s => decide (sdiff16 a s.seq < 0)) ∧
    ((applyAck l a d).link l).nextSeq = (d.link l).nextSeq := by
  simp only [applyAck, hstore, if_neg hin]
  have hshown := fun f => keepsSent_showStore (l := l) (rising_modLink hrise l f)
  refine ⟨(hshown _).rises, ?_, ?_⟩
  · rw [(hshown _).store, link_modLink_same hrise]
  · rw [(hshown _).nextSeq, link_modLink_same hrise]

end

/-! ### Consecutive flits -/

/-- The difference of two numbers of one window of 32,768. -/
theorem sdiff16_offsets (base : BitVec 16) {i k : Nat} (hi : i < 32768) (hk : k < 32768) :
    sdiff16 (base + BitVec.ofNat 16 i) (base + BitVec.ofNat 16 k) = (i : Int) - k := by
  have hi' : (BitVec.ofNat 16 i).toInt = i := by
    rw [BitVec.toInt_ofNat', Int.bmod_eq_of_le] <;> omega
  have hk' : (BitVec.ofNat 16 k).toInt = k := by
    rw [BitVec.toInt_ofNat', Int.bmod_eq_of_le] <;> omega
  rw [sdiff16, add_sub_add_left_eq_sub, BitVec.toInt_sub, hi', hk', Int.bmod]
  omega

/-- Link `l` holds the flits `base` to `base + n - 1`, sent and not acknowledged, and no other. -/
structure Dev.Unacked (d : Dev) (l : Nat) (base : BitVec 16) (n : Nat) : Prop where
  rises : rising d.links = true
  bound : n ≤ 32767
  seqs : (d.link l).store.map (fun s => s.seq) = (List.range n).map (fun i => base + BitVec.ofNat 16 i)
  next : (d.link l).nextSeq = base + BitVec.ofNat 16 n

namespace Dev.Unacked
variable {d : Dev} {l n : Nat} {base : BitVec 16} (h : d.Unacked l base n)
include h

theorem length : (d.link l).store.length = n := by simpa using congrArg List.length h.seqs

theorem seq_getElem {k : Nat} (hk : k < (d.link l).store.length) :
    ((d.link l).store[k]).seq = base + BitVec.ofNat 16 k := by
  have hkn : k < n := h.length ▸ hk
  have := congrArg (fun xs => xs[k]?) h.seqs
  simpa [hk, hkn] using this

theorem nothing_stored (hn : n = 0) : (d.link l).store = [] := List.eq_nil_of_length_eq_zero (h.length.trans hn)

theorem oldest (hn : 0 < n) : ∃ o rest, (d.link l).store = o :: rest ∧ o.seq = base := by
  obtain ⟨o, rest, hstore⟩ := List.exists_cons_of_length_pos (h.length ▸ hn)
  refine ⟨o, rest, hstore, ?_⟩
  have := h.seq_getElem (k := 0) (h.length ▸ hn)
  simpa [hstore] using this

theorem last (hn : 0 < n) : (d.link l).nextSeq - 1 = base + BitVec.ofNat 16 (n - 1) := by
  rw [h.next]
  bv_omega

/-- The flits that an ack of flit `i` leaves. -/
theorem filter_eq_drop {i : Nat} (hi : i < n) :
    (d.link l).store.filter (fun s => decide (sdiff16 (base + BitVec.ofNat 16 i) s.seq < 0)) =
      (d.link l).store.drop (i + 1) := by
  have hbound := h.bound
  have hfreed (k : Nat) (hk : k < (d.link l).store.length) :
      sdiff16 (base + BitVec.ofNat 16 i) ((d.link l).store[k]).seq = (i : Int) - k := by
    rw [h.seq_getElem hk]
    exact sdiff16_offsets base (by omega) (by have := h.length; omega)
  conv_lhs => rw [← List.take_append_drop (i + 1) (d.link l).store, List.filter_append]
  rw [List.filter_eq_nil_iff.mpr ?gone, List.filter_eq_self.mpr ?left, List.nil_append]
  case gone =>
    intro s hs
    obtain ⟨k, hk, rfl⟩ := List.mem_take_iff_getElem.mp hs
    rw [hfreed k (by omega)]
    simp only [decide_eq_true_eq]
    omega
  case left =>
    intro s hs
    obtain ⟨k, hk, rfl⟩ := List.mem_drop_iff_getElem.mp hs
    rw [hfreed _ (by omega)]
    simp only [decide_eq_true_eq]
    omega

/-- An ack of flit `i` frees it and those before it. -/
theorem store_applyAck {i : Nat} (hi : i < n) :
    ((applyAck l (base + BitVec.ofNat 16 i) d).link l).store = (d.link l).store.drop (i + 1) ∧
    (applyAck l (base + BitVec.ofNat 16 i) d).Unacked l (base + BitVec.ofNat 16 (i + 1)) (n - (i + 1)) := by
  have hbound := h.bound
  obtain ⟨o, rest, hstore, hfirst⟩ := h.oldest (by omega)
  have hfromFirst : sdiff16 (base + BitVec.ofNat 16 i) base = i := by
    simpa using sdiff16_offsets base (i := i) (k := 0) (by omega) (by omega)
  have htoLast : sdiff16 (base + BitVec.ofNat 16 (n - 1)) (base + BitVec.ofNat 16 i) = ((n - 1 : Nat) : Int) - i :=
    sdiff16_offsets base (by omega) (by omega)
  obtain ⟨hrises, hleft, hnext⟩ := applyAck_in_range (a := base + BitVec.ofNat 16 i) hstore
    (by rw [hfirst, h.last (by omega), hfromFirst, htoLast]; omega) h.rises
  rw [h.filter_eq_drop hi] at hleft
  refine ⟨hleft, hrises, by omega, ?_, ?_⟩
  · rw [hleft, List.map_drop, h.seqs]
    apply List.ext_getElem
    · simp
    · intro k hk hk'
      simp [BitVec.add_assoc, BitVec.ofNat_add]
  · rw [hnext, h.next]
    bv_omega

/-- An ack below the oldest flit or above the last one sent. -/
theorem applyAck_outside (hn : 0 < n) {a : BitVec 16}
    (hout : (a - base).toInt < 0 ∨ ((base + BitVec.ofNat 16 (n - 1)) - a).toInt < 0) : applyAck l a d = d := by
  obtain ⟨o, rest, hstore, hfirst⟩ := h.oldest hn
  exact applyAck_out_of_range hstore (by rw [hfirst, h.last hn]; exact hout)

/-- An ack of the flit before the oldest one is repeated, or late. -/
theorem applyAck_again {a : BitVec 16} (ha : base = a + 1) : applyAck l a d = d := by
  obtain hn | hn := Nat.eq_zero_or_pos n
  · exact applyAck_nothing_stored (h.nothing_stored hn)
  · refine h.applyAck_outside hn (Or.inl ?_)
    subst ha
    rw [sub_add_cancel_left]
    decide

end Dev.Unacked

/-! ### The statement -/

/-- Settles O58: an ack of flit `i` leaves consecutive flits from the next one on, so that a later ack acts on a store
of the same form. -/
theorem acksAreCumulative : Obligations.AcksAreCumulative := by
  intro d l base n hrise hn hbound hseqs hnext acked
  have h : d.Unacked l base n := ⟨hrise, hbound, hseqs, hnext⟩
  refine ⟨fun i hi => (h.store_applyAck hi).1, fun i j hij hj => ?later, fun a => h.applyAck_outside hn⟩
  case later =>
    obtain ⟨hleft, hrest⟩ := h.store_applyAck (Nat.lt_of_le_of_lt hij hj)
    rw [(h.store_applyAck hj).1]
    obtain rfl | hlt := Nat.eq_or_lt_of_le hij
    · rw [hrest.applyAck_again]
      · exact hleft
      · bv_omega
    · obtain ⟨k, rfl⟩ := Nat.exists_eq_add_of_lt hlt
      have hack : base + BitVec.ofNat 16 (i + k + 1) = base + BitVec.ofNat 16 (i + 1) + BitVec.ofNat 16 k := by
        bv_omega
      rw [hack, (hrest.store_applyAck (by omega)).1, hleft, List.drop_drop]
      congr 1
      omega

end Sys2Proof.Machine
end

section
/-! SUPPORT. Flits received on a Causeway link (R286, R292 to R296, R301 to R306, R310), case by case. -/

namespace Sys2Proof.Machine

/-! ### The commands -/

section
variable {s : State} {l : Link} (hup : s.dev.coreUp (dieOfLink l.val) = true) (h : FlitHead) (t : Time)
include hup

theorem becomes_ackFlit (v : VcTotals) : Becomes (.ackFlit l h v t) s (execAckFlit l.val h v t s.dev) :=
  becomes_of_onDie rfl hup

theorem becomes_nakFlit (q : BitVec 16) : Becomes (.nakFlit l h q t) s (execNakFlit l.val h q t s.dev) :=
  becomes_of_onDie rfl hup

theorem becomes_creditSyncFlit (m : BitVec 32) (v : VcTotals) :
    Becomes (.creditSyncFlit l h m v t) s (execCreditSyncFlit l.val h v t s.dev) := becomes_of_onDie rfl hup

theorem becomes_laneFlit (n : Fin 9) (a : BitVec 2) :
    Becomes (.laneFlit l h n a t) s (execLaneFlit l.val h n.val a.toNat t s.dev) := becomes_of_onDie rfl hup

theorem becomes_planFlit (tide : BitVec 16) (stream : BitVec 8) (ix : BitVec 16) (data : BitVec 1920) :
    Becomes (.planFlit l h tide stream ix data t) s
      (execPlanFlit l.val h tide.toNat stream.toNat ix.toNat data t s.dev) := becomes_of_onDie rfl hup

theorem becomes_driftFlit (vc : BitVec 2) (first last : Bool) (data : BitVec 1920) :
    Becomes (.driftFlit l h vc first last data t) s (execDriftFlit l.val h vc.toNat first last data t s.dev) :=
  becomes_of_onDie rfl hup

theorem becomes_flitCrcFail : Becomes (.flitCrcFail l t) s (execFlitCrcFail l.val t s.dev) := becomes_of_onDie rfl hup

theorem becomes_initFlit (dev : BitVec 20) (k : BitVec 3) (bs : List Byte) :
    Becomes (.initFlit l dev k bs t) s (execInitFlit l.val dev.toNat k.toNat t s.dev) := becomes_of_onDie rfl hup

end

section
variable {l : Nat} {t : Time} {d : Dev}

theorem execInitFlit_training (htrains : (d.advance t).get R.CW_STATUS_state l = lsTraining) (dev link : Nat) :
    execInitFlit l dev link t d =
      (((((d.advance t).set R.CW_PEER_device l dev).set R.CW_PEER_link l link).set R.CW_PEER_valid l 1).modLink l
        (fun x => { x with initSeen := true })) := if_pos htrains

variable (hhears : (d.advance t).hears l = true) (h : FlitHead)
include hhears

theorem execFlitCrcFail_heard :
    execFlitCrcFail l t d = askNak l ((d.advance t).inc C.CW_COUNTS_crc_errors l) := if_pos hhears

/-! ### Unsequenced flits: the header's ack, credit and beacon bits, then what the flit says -/

theorem unsequenced_heard (f : Dev → Dev) :
    unsequenced l h t f d = f (noteBeacon l h (applyHead l h (d.advance t))) := if_pos hhears

theorem execNakFlit_stored {q : BitVec 16}
    (hstored : ((noteBeacon l h (applyHead l h (d.advance t))).link l).store.any (fun x => x.seq = q) = true) :
    execNakFlit l h q t d = startReplay l q (noteBeacon l h (applyHead l h (d.advance t))) :=
  (unsequenced_heard hhears h _).trans (if_pos hstored)

/-- Drift flits of VC `i` that link `l` has sent and that are not acknowledged. -/
def Dev.driftStored (d : Dev) (l i : Nat) : Nat :=
  ((d.link l).store.filter (fun x => match x.body with
    | .drift f => decide (f.vc = i)
    | .plan _ => false)).length

/-- The peer's received totals are those sent up to the header's ack (R303). -/
def Dev.TotalsAgree (d : Dev) (l : Nat) (v : VcTotals) : Prop :=
  ∀ i < 4, (v.received.getD i 0).toNat =
    (d.get R.CW_CREDIT_sent (l * 4 + i) + 65536 - d.driftStored l i % 65536) % 65536

theorem execCreditSyncFlit_agrees {v : VcTotals}
    (hagree : (noteBeacon l h (applyHead l h (d.advance t))).TotalsAgree l v) :
    execCreditSyncFlit l h v t d = applyTotals l v (noteBeacon l h (applyHead l h (d.advance t))) := by
  refine (unsequenced_heard hhears h _).trans (if_pos (Or.inr (List.filter_eq_nil_iff.mpr fun i hi => ?_)))
  exact Bool.eq_false_iff.mp (decide_eq_false (not_not_intro (hagree i (List.mem_range.mp hi))))

theorem execLaneFlit_failed {n : Nat}
    (hgood : bit ((noteBeacon l h (applyHead l h (d.advance t))).get R.CW_LANES_tx_failed l) n = false) :
    execLaneFlit l h n 0 t d =
      let e := noteBeacon l h (applyHead l h (d.advance t))
      laneFailed l n true ((e.set R.CW_LANES_tx_failed l (setBit (e.get R.CW_LANES_tx_failed l) n true)).modLink l
        (fun x => { x with txPend := x.txPend ++ [n] })) :=
  (unsequenced_heard hhears h _).trans ((if_pos rfl).trans (if_neg (Bool.eq_false_iff.mp hgood)))

theorem execLaneFlit_spare (n : Nat) :
    execLaneFlit l h n 1 t d =
      (noteBeacon l h (applyHead l h (d.advance t))).modLink l (fun x => { x with spareTx := true }) :=
  unsequenced_heard hhears h _

theorem execLaneFlit_drop (n : Nat) :
    execLaneFlit l h n 2 t d =
      (noteBeacon l h (applyHead l h (d.advance t))).modLink l (fun x => { x with txPend := x.txPend ++ [n] }) :=
  unsequenced_heard hhears h _

/-! ### Sequenced flits, by their number (R292) -/

/-- How far a flit's number lies beyond the expected one. -/
def Dev.ahead (d : Dev) (l : Nat) (h : FlitHead) : Int := sdiff16 h.seq (d.link l).expected

/-- A flit with the expected number is accepted: the next number is expected, and an ACK falls due with the 64th flit
(R292, R294). -/
def acceptFlit (l : Nat) (h : FlitHead) (d : Dev) : Dev :=
  noteBeacon l h (d.modLink l (fun x =>
    { x with expected := x.expected + 1, nakAt := none, accepted := (d.link l).accepted + 1,
             ackDue := x.ackDue || decide ((d.link l).accepted + 1 ≥ 64) }))

theorem sequenced_expected (hexp : (applyHead l h (d.advance t)).ahead l h = 0) (f : Dev → Dev) :
    sequenced l h t f d = f (acceptFlit l h (applyHead l h (d.advance t))) :=
  (if_neg (not_not_intro hhears)).trans (if_pos hexp)

theorem sequenced_old (hold : (applyHead l h (d.advance t)).ahead l h < 0) (f : Dev → Dev) :
    sequenced l h t f d = (applyHead l h (d.advance t)).modLink l (fun x => { x with ackDue := true }) :=
  (if_neg (not_not_intro hhears)).trans ((if_neg (Int.ne_of_lt hold)).trans (if_pos hold))

theorem sequenced_later (hlater : 0 < (applyHead l h (d.advance t)).ahead l h) (f : Dev → Dev) :
    sequenced l h t f d = askNak l (applyHead l h (d.advance t)) :=
  (if_neg (not_not_intro hhears)).trans
    ((if_neg (Int.ne_of_gt hlater)).trans (if_neg (Int.not_lt.mpr (Int.le_of_lt hlater))))

end

/-! ### The statement -/

/-- Settles O23: each flit through its own arm; an unsequenced one by what it says, a sequenced one by its number. -/
theorem flitsReceived : Obligations.FlitsReceived := by
  intro s l t hup d
  refine ⟨fun dev k bs htrains => ?init, fun hhears => ⟨?crc, ?heads⟩⟩
  case init => exact (becomes_initFlit hup t dev k bs).trans (execInitFlit_training htrains _ _)
  case crc => exact (becomes_flitCrcFail hup t).trans (execFlitCrcFail_heard hhears)
  intro h e
  refine ⟨fun v => ?ack, fun q hstored => ?nak, fun m v _ hagree => ?sync,
    fun n => ⟨fun hgood => ?failed, ?spare, ?drop⟩, ?numbered⟩
  case ack => exact (becomes_ackFlit hup h t v).trans (unsequenced_heard hhears h _)
  case nak => exact (becomes_nakFlit hup h t q).trans (execNakFlit_stored hhears h hstored)
  case sync => exact (becomes_creditSyncFlit hup h t m v).trans (execCreditSyncFlit_agrees hhears h hagree)
  case failed => exact (becomes_laneFlit hup h t n 0).trans (execLaneFlit_failed hhears h hgood)
  case spare => exact (becomes_laneFlit hup h t n 1).trans (execLaneFlit_spare hhears h _)
  case drop => exact (becomes_laneFlit hup h t n 2).trans (execLaneFlit_drop hhears h _)
  case numbered =>
    intro tide stream ix vc first last data e diff count a
    have hplan := becomes_planFlit hup h t tide stream ix data
    have hdrift := becomes_driftFlit hup h t vc first last data
    refine ⟨fun hexp => ⟨hplan.trans (sequenced_expected hhears h hexp _),
      hdrift.trans (sequenced_expected hhears h hexp _)⟩, fun hold i hi => ?old, fun hlater i hi => ?later⟩
    case old =>
      obtain rfl | rfl := hi
      · exact hplan.trans (sequenced_old hhears h hold _)
      · exact hdrift.trans (sequenced_old hhears h hold _)
    case later =>
      obtain rfl | rfl := hi
      · exact hplan.trans (sequenced_later hhears h hlater _)
      · exact hdrift.trans (sequenced_later hhears h hlater _)

end Sys2Proof.Machine
end

section
/-! SUPPORT. What a flit slot of a Causeway link sends (R286, R289 to R291, R310) and the acknowledgement timers (R294,
R296), case by case. -/

namespace Sys2Proof.Machine

/-! ### The commands -/

section
variable {s : State} {l : Link} (hup : s.dev.coreUp (dieOfLink l.val) = true) (t : Time)
include hup

theorem becomes_flitSlotSend : Becomes (.flitSlotSend l t) s (execFlitSlotSend l.val t s.dev) :=
  becomes_of_onDie rfl hup

theorem becomes_ackTimeout : Becomes (.ackTimeout l t) s (execAckTimeout l.val t s.dev) := becomes_of_onDie rfl hup

theorem becomes_ackIntervalExpiry : Becomes (.ackIntervalExpiry l t) s (execAckIntervalExpiry l.val t s.dev) :=
  becomes_of_onDie rfl hup

end

/-! ### The state of a link -/

theorem linkUp_iff {d : Dev} {l : Nat} :
    d.linkUp l = true ↔ d.get R.CW_STATUS_state l = lsUp ∨ d.get R.CW_STATUS_state l = lsDegraded := by
  rw [Dev.linkUp, Bool.or_eq_true, decide_eq_true_eq, decide_eq_true_eq]
  rfl

/-- A link in another state than UP and DEGRADED is not up. -/
theorem linkUp_eq_false {d : Dev} {l st : Nat} (h : d.get R.CW_STATUS_state l = st) (hup : st ≠ lsUp)
    (hdegraded : st ≠ lsDegraded) : d.linkUp l = false :=
  Bool.eq_false_iff.mpr fun hlink => (linkUp_iff.mp hlink).elim (h ▸ hup) (h ▸ hdegraded)

/-! ### FLIT_SLOT_SEND -/

section
variable {l : Nat} {t : Time} {d : Dev}

theorem execFlitSlotSend_training (htrains : (d.advance t).get R.CW_STATUS_state l = lsTraining) :
    execFlitSlotSend l t d = sendInit l t (d.advance t) :=
  (if_neg (Bool.eq_false_iff.mp (linkUp_eq_false htrains (by decide) (by decide)))).trans (if_pos htrains)

theorem execFlitSlotSend_up (hlink : (d.advance t).linkUp l = true) :
    execFlitSlotSend l t d = sendSlot l t (d.advance t) := if_pos hlink

/-- No sequenced flit is taken where none is due, or where the store has no room for one (R291). -/
theorem takenIfRoom_none {α : Type} {o : Option α} {room : Bool} (h : o = none ∨ room = false) :
    (if room = true then o else none) = none := by
  obtain hnone | hfull := h
  · rw [hnone, ite_self]
  · exact if_neg (Bool.eq_false_iff.mp hfull)

/-- A replay goes before everything else (R289). -/
theorem sendSlot_replay {q : BitVec 16} (hreplay : (d.link l).replayAt = some q) :
    sendSlot l t d = sendReplay l q d := by
  simp only [sendSlot, hreplay]

section
variable (hidle : (d.link l).replayAt = none)
include hidle

theorem sendSlot_plan {f : PlanFlit} (hdue : d.planFlitNow l t = some f) (hroom : (d.link l).store.length < 32767) :
    sendSlot l t d = sendPlan l f d := by
  simp only [sendSlot, hidle, hdue, decide_eq_true hroom, if_true]

theorem sendSlot_free (hnone : d.planFlitNow l t = none ∨ ¬ (d.link l).store.length < 32767) :
    sendSlot l t d = sendFree l t (decide ((d.link l).store.length < 32767)) d := by
  simp only [sendSlot, hidle, takenIfRoom_none (hnone.imp_right decide_eq_false)]

end

/-! ### A slot that neither a replay nor a plan flit takes, in the order of R290 -/

theorem sendFree_sync (hsync : (d.link l).syncDue = true) (room : Bool) : sendFree l t room d = sendSync l d :=
  if_pos hsync

section
variable (hsync : (d.link l).syncDue = false) (room : Bool)
include hsync

theorem sendFree_nak {q : BitVec 16} {naks : List (BitVec 16)} (hnak : (d.link l).nakDue = q :: naks) :
    sendFree l t room d =
      let c := nextCredit l d
      (sendFlit l 3 0 false (some c.2) 0 q.toNat [] c.1).modLink l (fun y =>
        { y with nakDue := naks, nakAt := some (q, t) }) := by
  simp only [sendFree, hsync, hnak, Bool.false_eq_true, if_false]

variable (hnak : (d.link l).nakDue = [])
include hnak

theorem sendFree_lane {n a : Nat} {rest : List (Nat × Nat)} (hlane : (d.link l).laneOut = (n, a) :: rest) :
    sendFree l t room d = sendFlit l 4 0 false none 0 (n + 16 * a) [] (d.modLink l (fun x =>
      { x with laneOut := rest, laneAt := if a = 0 then t else x.laneAt })) := by
  simp only [sendFree, hsync, hnak, hlane, Bool.false_eq_true, if_false]

variable (hlane : (d.link l).laneOut = [])
include hlane

theorem sendFree_ack (hack : (d.link l).ackDue = true) : sendFree l t room d = sendAck l d := by
  simp only [sendFree, hsync, hnak, hlane, hack, Bool.false_eq_true, if_false, if_true]

variable (hack : (d.link l).ackDue = false)
include hack

theorem sendFree_time {p : List Byte} {rest : List (List Byte)} (htime : (d.link l).timeOut = p :: rest) :
    sendFree l t room d = sendFlit l 6 0 false none 0 0 (leBytes 8 t.toNat ++ p.drop 8)
      (d.modLink l (fun x => { x with timeOut := rest })) := by
  simp only [sendFree, hsync, hnak, hlane, hack, htime, Bool.false_eq_true, if_false]

variable (htime : (d.link l).timeOut = [])
include htime

theorem sendFree_drift {f : DriftFlit} (hroom : room = true) (hdrift : d.driftFlitNow l = some f) :
    sendFree l t room d = sendDrift l f d := by
  simp only [sendFree, hsync, hnak, hlane, hack, htime, hroom, hdrift, Bool.false_eq_true, if_false, if_true]

theorem sendFree_idle (hnone : d.driftFlitNow l = none ∨ room = false) : sendFree l t room d = sendAck l d := by
  simp only [sendFree, hsync, hnak, hlane, hack, htime, takenIfRoom_none hnone, Bool.false_eq_true, if_false]

end

/-! ### The acknowledgement timers -/

theorem execAckTimeout_due {o : Stored} {rest : List Stored} (hstore : ((d.advance t).link l).store = o :: rest)
    (hlink : (d.advance t).linkUp l = true)
    (hdue : tdiff t ((d.advance t).link l).timerAt ≥ ((d.advance t).get R.CW_CTL_ack_timeout l * 1600 : Nat)) :
    execAckTimeout l t d = startReplay l o.seq (d.advance t) := by
  simp only [execAckTimeout, hstore]
  exact if_pos ⟨hlink, hdue⟩

theorem execAckIntervalExpiry_due (hlink : (d.advance t).linkUp l = true)
    (hdue : tdiff t ((d.advance t).link l).ackAt ≥ 3200) :
    execAckIntervalExpiry l t d = (d.advance t).modLink l (fun x => { x with ackDue := true }) :=
  if_pos ⟨hlink, hdue⟩

end

/-! ### The statement -/

/-- Settles O24: a slot by what the link has to send, in the order of R289 and R290; each timer by its time. -/
theorem flitsSent : Obligations.FlitsSent := by
  intro s l t hup d x
  have hslot := becomes_flitSlotSend hup t
  refine ⟨fun htrains => hslot.trans (execFlitSlotSend_training htrains), fun hlink => ?up⟩
  intro room
  have hsends := hslot.trans (execFlitSlotSend_up hlink)
  refine ⟨fun q hreplay => hsends.trans (sendSlot_replay hreplay), fun hidle => ⟨fun f hdue hroom => ?plan,
    fun hnone => ?free⟩, fun o rest hstore hdue => ?timeout, fun hdue => ?interval⟩
  case plan => exact hsends.trans (sendSlot_plan hidle hdue hroom)
  case timeout => exact (becomes_ackTimeout hup t).trans (execAckTimeout_due hstore hlink hdue)
  case interval => exact (becomes_ackIntervalExpiry hup t).trans (execAckIntervalExpiry_due hlink hdue)
  case free =>
    have hfree := hsends.trans (sendSlot_free hidle hnone)
    refine ⟨fun hsync => hfree.trans (sendFree_sync hsync _),
      fun hsync q naks hnak => hfree.trans (sendFree_nak hsync _ hnak), fun hsync hnak =>
      ⟨fun n a rest hlane => hfree.trans (sendFree_lane hsync _ hnak hlane), fun hlane =>
      ⟨fun hack => hfree.trans (sendFree_ack hsync _ hnak hlane hack), fun hack =>
      ⟨fun p rest htime => hfree.trans (sendFree_time hsync _ hnak hlane hack htime), fun htime => ?rest⟩⟩⟩⟩
    exact ⟨fun f hdrift hroom =>
        hfree.trans (sendFree_drift hsync _ hnak hlane hack htime (decide_eq_true hroom) hdrift),
      fun hno => hfree.trans (sendFree_idle hsync _ hnak hlane hack htime (hno.imp_right decide_eq_false))⟩

end Sys2Proof.Machine
end

section
/-! SUPPORT. Training, damping, the host's waits and the fence of a Causeway link (R306, R309 to R313), case by case. -/

namespace Sys2Proof.Machine

/-! ### The commands -/

section
variable {s : State} {l : Link} (hup : s.dev.coreUp (dieOfLink l.val) = true) (t : Time)
include hup

theorem becomes_trainRetryExpiry : Becomes (.trainRetryExpiry l t) s (execTrainRetryExpiry l.val t s.dev) :=
  becomes_of_onDie rfl hup

theorem becomes_dampExpiry : Becomes (.dampExpiry l t) s (execDampExpiry l.val t s.dev) := becomes_of_onDie rfl hup

theorem becomes_trainingDone (rx tx : BitVec 9) :
    Becomes (.trainingDone l rx tx t) s (execTrainingDone l.val rx.toNat tx.toNat t s.dev) := becomes_of_onDie rfl hup

theorem becomes_trainTimeout : Becomes (.trainTimeout l t) s (execTrainTimeout l.val t s.dev) :=
  becomes_of_onDie rfl hup

theorem becomes_cwCmdTrain : Becomes (.cwCmdTrain l t) s (execCwCmdTrain l.val t s.dev) := becomes_of_onDie rfl hup

theorem becomes_cwHostWaitExpiry : Becomes (.cwHostWaitExpiry l t) s (execCwHostWaitExpiry l.val t s.dev) :=
  becomes_of_onDie rfl hup

theorem becomes_fenceWrite (v : Word) : Becomes (.fenceWrite l v t) s (execFenceWrite l.val v.toNat t s.dev) :=
  becomes_of_onDie rfl hup

end

section
variable {l : Nat} {t : Time} {d : Dev}

/-! ### TRAIN_RETRY_EXPIRY and DAMP_EXPIRY -/

theorem execTrainRetryExpiry_due {r : Time} (hretry : ((d.advance t).link l).retryAt = some r)
    (hdown : (d.advance t).get R.CW_STATUS_state l = lsDown) (hfree : (d.advance t).is R.CW_FENCE_fence l = false)
    (hdue : tdiff t r ≥ 0) :
    execTrainRetryExpiry l t d =
      seekTraining l ((d.advance t).modLink l (fun x => { x with retryAt := none })) := by
  simp only [execTrainRetryExpiry, hretry]
  exact if_pos ⟨hdown, Bool.eq_false_iff.mp hfree, hdue⟩

theorem execDampExpiry_due {u : Time} (huntil : ((d.advance t).link l).dampUntil = some u)
    (hdamped : (d.advance t).get R.CW_STATUS_state l = lsDamped) (hdue : tdiff t u ≥ 0) :
    execDampExpiry l t d = seekTraining l
      (((d.advance t).modLink l (fun x => { x with dampUntil := none })).set R.CW_STATUS_state l lsDown) := by
  simp only [execDampExpiry, huntil]
  exact if_pos ⟨hdamped, hdue⟩

/-! ### TRAINING_DONE and TRAIN_TIMEOUT -/

/-- The peer that training found is not the one expected (R311). -/
def Dev.wrongPeer (d : Dev) (l : Nat) : Prop :=
  d.is R.CW_PEER_EXPECT_check l = true ∧ (d.get R.CW_PEER_device l ≠ d.get R.CW_PEER_EXPECT_device l ∨
    d.get R.CW_PEER_link l ≠ d.get R.CW_PEER_EXPECT_link l)

/-- A training attempt fails as MISWIRED (R311). -/
def failMiswired (l : Nat) (d : Dev) : Dev :=
  (failTraining l dcMiswired d).modLink l (fun x => { x with miswired := true })

section
variable (htrains : (d.advance t).get R.CW_STATUS_state l = lsTraining)
  (hinit : ((d.advance t).link l).initSeen = true) (hfree : (d.advance t).is R.CW_FENCE_fence l = false)
include htrains hinit hfree

/-- The exchange of INIT flits is complete. -/
theorem training_not_barred : ¬ ((d.advance t).get R.CW_STATUS_state l ≠ lsTraining ∨
    ¬ ((d.advance t).link l).initSeen = true ∨ (d.advance t).is R.CW_FENCE_fence l = true) :=
  not_or_intro (not_not_intro htrains) (not_or_intro (not_not_intro hinit) (Bool.eq_false_iff.mp hfree))

theorem execTrainingDone_good (hpeer : ¬ (d.advance t).wrongPeer l) {rx tx : Nat} (hrx : 4 ≤ goodLanes rx)
    (htx : 4 ≤ goodLanes tx) : execTrainingDone l rx tx t d = linkRises l rx tx (d.advance t) :=
  (if_neg (training_not_barred htrains hinit hfree)).trans
    ((if_neg hpeer).trans (if_neg (Nat.not_lt.mpr (Nat.le_min.mpr ⟨hrx, htx⟩))))

variable (hpeer : (d.advance t).wrongPeer l) (rx tx : Nat)
include hpeer

theorem execTrainingDone_miswired_again (htold : ((d.advance t).link l).miswired = true) :
    execTrainingDone l rx tx t d = failMiswired l (d.advance t) :=
  (if_neg (training_not_barred htrains hinit hfree)).trans ((if_pos hpeer).trans (if_pos htold))

theorem execTrainingDone_miswired (hnew : ((d.advance t).link l).miswired = false) :
    execTrainingDone l rx tx t d = (failMiswired l (d.advance t)).raise E.CW_MISWIRED none (some l) :=
  (if_neg (training_not_barred htrains hinit hfree)).trans
    ((if_pos hpeer).trans (if_neg (Bool.eq_false_iff.mp hnew)))

end

theorem execTrainTimeout_due {t0 : Time} (hsince : ((d.advance t).link l).trainAt = some t0)
    (htrains : (d.advance t).get R.CW_STATUS_state l = lsTraining)
    (hdue : tdiff t t0 ≥ ((d.advance t).get R.CW_TRAIN_train_timeout l * msU : Nat)) :
    execTrainTimeout l t d = failTraining l dcTrainFailed (d.advance t) := by
  simp only [execTrainTimeout, hsince]
  exact if_pos ⟨htrains, hdue⟩

/-! ### CW_CMD_TRAIN and CW_HOST_WAIT_EXPIRY -/

theorem execCwCmdTrain_down (hfree : (d.advance t).is R.CW_FENCE_fence l = false)
    (hdown : (d.advance t).get R.CW_STATUS_state l = lsDown ∨ (d.advance t).get R.CW_STATUS_state l = lsDamped) :
    execCwCmdTrain l t d =
      beginTraining l ((d.advance t).modLink l (fun x => { x with dampUntil := none, initSeen := false })) := by
  have hlink : (d.advance t).linkUp l = false :=
    hdown.elim (linkUp_eq_false · (by decide) (by decide)) (linkUp_eq_false · (by decide) (by decide))
  simp only [execCwCmdTrain, hlink, Bool.false_eq_true, if_false]
  exact if_neg (not_or_intro (Bool.eq_false_iff.mp hfree) (not_not_intro hdown))

section
variable {t0 : Time} (hdue : tdiff t t0 ≥ ((d.advance t).get R.CW_TRAIN_host_wait l * msU : Nat))
include hdue

theorem execCwHostWaitExpiry_spare (hwait : ((d.advance t).link l).wait = some (.spare, t0)) :
    execCwHostWaitExpiry l t d =
      (orderSpares l ((d.advance t).modLink l (fun x => { x with wait := none }))).raise
        E.HOST_WAIT_EXPIRED_CW none (some l) := by
  simp only [execCwHostWaitExpiry, hwait]
  exact if_pos hdue

theorem execCwHostWaitExpiry_train (hwait : ((d.advance t).link l).wait = some (.train, t0))
    (hdown : (d.advance t).get R.CW_STATUS_state l = lsDown) (hfree : (d.advance t).is R.CW_FENCE_fence l = false) :
    execCwHostWaitExpiry l t d =
      (beginTraining l ((d.advance t).modLink l (fun x => { x with wait := none }))).raise
        E.HOST_WAIT_EXPIRED_CW none (some l) := by
  simp only [execCwHostWaitExpiry, hwait]
  exact (if_pos hdue).trans (if_pos ⟨hdown, Bool.eq_false_iff.mp hfree⟩)

end

/-! ### FENCE_WRITE -/

section
variable {v : Nat} (hfence : bit v 0 = true)
include hfence

theorem execFenceWrite_up (hlink : ((d.advance t).set R.CW_FENCE_fence l 1).linkUp l = true) :
    execFenceWrite l v t d = linkDown l dcFenced ((d.advance t).set R.CW_FENCE_fence l 1) :=
  (if_pos hfence).trans (if_pos hlink)

theorem execFenceWrite_down (hlink : ((d.advance t).set R.CW_FENCE_fence l 1).linkUp l = false) :
    execFenceWrite l v t d =
      (((d.advance t).set R.CW_FENCE_fence l 1).modLink l (fun x =>
        { x with trainAt := none, retryAt := none, dampUntil := none, wait := none, initSeen := false })).set
        R.CW_STATUS_state l lsFenced :=
  (if_pos hfence).trans (if_neg (Bool.eq_false_iff.mp hlink))

end

section
variable {v : Nat} (hfree : bit v 0 = false)
include hfree

theorem execFenceWrite_releases (hold : (d.advance t).is R.CW_FENCE_fence l = true)
    (hdown : ((d.advance t).set R.CW_FENCE_fence l 0).get R.CW_STATUS_state l = lsFenced ∨
      ((d.advance t).set R.CW_FENCE_fence l 0).get R.CW_STATUS_state l = lsDown) :
    execFenceWrite l v t d =
      seekTraining l (((d.advance t).set R.CW_FENCE_fence l 0).set R.CW_STATUS_state l lsDown) :=
  (if_neg (Bool.eq_false_iff.mp hfree)).trans (if_pos ⟨hold, hdown⟩)

theorem execFenceWrite_unfenced (hold : (d.advance t).is R.CW_FENCE_fence l = false) :
    execFenceWrite l v t d = (d.advance t).set R.CW_FENCE_fence l 0 :=
  (if_neg (Bool.eq_false_iff.mp hfree)).trans (if_neg fun ⟨hfenced, _⟩ => Bool.eq_false_iff.mp hold hfenced)

end

end

/-! ### The statement -/

/-- Settles O26: each command through its own arm and the case of its function that the premises choose. -/
theorem trainingCommandsComplete : Obligations.TrainingCommandsComplete := by
  intro s l t hup d x st free
  refine ⟨fun r hretry hdown hfree hdue => ?retry, fun u huntil hdamped hdue => ?damp,
    fun rx tx htrains hinit hfree => ?done, fun t0 hsince htrains hdue => ?timeout, fun hfree hdown => ?train,
    fun t0 hdue => ⟨fun hwait => ?spare, fun hwait hdown hfree => ?hostTrain⟩,
    fun v => ⟨fun hfence => ⟨fun hlink => ?fenceUp, fun hlink => ?fenceDown⟩,
      fun hclear => ⟨fun ⟨hold, hdown⟩ => ?release, fun hold => ?unfenced⟩⟩⟩
  case retry => exact (becomes_trainRetryExpiry hup t).trans (execTrainRetryExpiry_due hretry hdown hfree hdue)
  case damp => exact (becomes_dampExpiry hup t).trans (execDampExpiry_due huntil hdamped hdue)
  case done =>
    have hdone := becomes_trainingDone hup t rx tx
    exact ⟨fun hpeer hrx htx => hdone.trans (execTrainingDone_good htrains hinit hfree hpeer hrx htx), fun hpeer =>
      ⟨fun htold => hdone.trans (execTrainingDone_miswired_again htrains hinit hfree hpeer _ _ htold),
        fun hnew => hdone.trans (execTrainingDone_miswired htrains hinit hfree hpeer _ _ hnew)⟩⟩
  case timeout => exact (becomes_trainTimeout hup t).trans (execTrainTimeout_due hsince htrains hdue)
  case train => exact (becomes_cwCmdTrain hup t).trans (execCwCmdTrain_down hfree hdown)
  case spare => exact (becomes_cwHostWaitExpiry hup t).trans (execCwHostWaitExpiry_spare hdue hwait)
  case hostTrain => exact (becomes_cwHostWaitExpiry hup t).trans (execCwHostWaitExpiry_train hdue hwait hdown hfree)
  case fenceUp => exact (becomes_fenceWrite hup t v).trans (execFenceWrite_up hfence hlink)
  case fenceDown => exact (becomes_fenceWrite hup t v).trans (execFenceWrite_down hfence hlink)
  case release => exact (becomes_fenceWrite hup t v).trans (execFenceWrite_releases hclear hold hdown)
  case unfenced => exact (becomes_fenceWrite hup t v).trans (execFenceWrite_unfenced hclear hold)

end Sys2Proof.Machine
end

section
/-! SUPPORT. The orders that end the host's wait for a spare (R305, R306): CW_CMD_SPARE and CW_CMD_DROP change a link
twice, which is one change exactly where the table of links lists the link once. -/

namespace Sys2Proof.Machine

/-! ### One change after another -/

/-- A key below those listed is put in front, unless it takes the default. -/
theorem tput_below_rising {α : Type} [DecidableEq α] {z v : α} {k : Nat} {m : SMap α}
    (h : risingFrom (some k) m = true) : tput z m k v = if v = z then m else (k, v) :: m := by
  cases m with
  | nil => rfl
  | cons p m =>
    simp only [risingFrom, Bool.and_eq_true, decide_eq_true_eq] at h
    exact if_pos h.1

/-- Of two writes to one key the second alone shows. -/
theorem tput_tput_same_risingFrom {α : Type} [DecidableEq α] {z v w : α} {lo : Option Nat} {m : SMap α} {k : Nat}
    (h : risingFrom lo m = true) : tput z (tput z m k v) k w = tput z m k w := by
  induction m generalizing lo with
  | nil => by_cases hv : v = z <;> simp [tput, hv]
  | cons p m ih =>
    obtain ⟨i, x⟩ := p
    simp only [risingFrom, Bool.and_eq_true] at h
    obtain hki | rfl | hik := Nat.lt_trichotomy k i
    · by_cases hv : v = z <;> simp [tput, hki, hv]
    · by_cases hv : v = z
      · simp [tput, hv, tput_below_rising h.2]
      · simp [tput, hv]
    · simp [tput, Nat.not_lt_of_gt hik, Nat.ne_of_lt hik, ih h.2]

/-- Of two changes of one link in a table with rising keys the second acts on what the first made. -/
theorem modLink_modLink {d : Dev} (hrise : rising d.links = true) (l : Nat) (f g : LinkSt → LinkSt) :
    (d.modLink l f).modLink l g = d.modLink l (fun x => g (f x)) := by
  have hlinks := tput_tput_same_risingFrom (z := {}) (v := f (d.link l)) (w := g (f (d.link l))) (k := l) hrise
  rw [Dev.modLink, link_modLink_same hrise]
  exact congrArg (fun m => { d with links := m }) hlinks

@[simp] theorem links_advance (d : Dev) (t : Time) : (d.advance t).links = d.links := by
  unfold Dev.advance
  split
  case isTrue => rfl
  case isFalse => rfl

/-! ### The commands -/

section
variable {s : State} {l : Link} (hup : s.dev.coreUp (dieOfLink l.val) = true) (t : Time)
include hup

theorem becomes_cwCmdSpare : Becomes (.cwCmdSpare l t) s (execCwCmdSpare l.val t s.dev) := becomes_of_onDie rfl hup

theorem becomes_cwCmdDrop (n : Fin 9) : Becomes (.cwCmdDrop l n t) s (execCwCmdDrop l.val n.val t s.dev) :=
  becomes_of_onDie rfl hup

end

/-! ### Where the table lists the link once, both orders do as `Obligations.LaneCommandsComplete` says -/

section
variable {s : State} {l : Link} {t : Time} (hup : s.dev.coreUp (dieOfLink l.val) = true)
  (hrise : rising s.dev.links = true) (hlink : (s.dev.advance t).linkUp l.val = true)
include hup hrise hlink

theorem becomes_cwCmdDrop_of_rising {n : Fin 9}
    (hactive : bit ((s.dev.advance t).get R.CW_LANES_rx_active l.val) n.val = true) :
    Becomes (.cwCmdDrop l n t) s ((s.dev.advance t).modLink l.val (fun x => { x with
      wait := if x.wait.map (·.1) = some .spare then none else x.wait,
      rxPend := x.rxPend ++ [n.val], laneOut := x.laneOut ++ [(n.val, 2)] })) := by
  have hrise' : rising (s.dev.advance t).links = true := by rwa [links_advance]
  refine (becomes_cwCmdDrop hup t n).trans ?_
  rw [execCwCmdDrop, if_pos hlink, if_pos ⟨hlink, hactive⟩, endSpareWait, modLink_modLink hrise']

theorem becomes_cwCmdSpare_of_rising :
    let d := s.dev.advance t
    Becomes (.cwCmdSpare l t) s (d.modLink l.val (fun y => { y with
      spareTx := y.spareTx || d.lanesShort l.val true, spareRx := y.spareRx || d.lanesShort l.val false,
      wait := if y.wait.map (·.1) = some .spare then none else y.wait,
      laneOut := y.laneOut ++ (match (d.link l.val).rxSpare with
        | some lane => if d.lanesShort l.val false then [(lane, 1)] else []
        | none => []) })) := by
  intro d
  have hrise' : rising d.links = true := by rwa [links_advance]
  have hshort (tx : Bool) : (endSpareWait l.val d).lanesShort l.val tx = d.lanesShort l.val tx := by
    rw [Dev.lanesShort, endSpareWait, link_modLink_same hrise']
    rfl
  refine (becomes_cwCmdSpare hup t).trans ?_
  rw [execCwCmdSpare, if_neg (not_not_intro hlink), orderSpares, hshort, hshort, endSpareWait, modLink_modLink hrise',
    modLink_modLink hrise'] <;> rfl

end

/-- A command answers one device, what follows it included. -/
theorem Becomes.after_eq {i : Instr} {s : State} {d e : Dev} (hd : Becomes i s d) (he : Becomes i s e) :
    after d = after e := by
  have hnext := hd.symm.trans he
  rw [Host.Outcome.next.injEq, State.mk.injEq] at hnext
  obtain ⟨_, hdev, _⟩ := hnext
  exact hdev

/-! ### A table that lists a link twice -/

/-- Link 0 is up with lane 0 active. Its first entry in the table of links holds the host's wait for its spare and
nothing else; a second entry for the same link follows. -/
def State.linkListedTwice : State :=
  let d := ((State.reset.dev.set R.DEV_STATUS_core_h 0 1).set R.CW_STATUS_state 0 lsUp).set R.CW_LANES_rx_active 0 1
  { State.reset with dev := { d with links := [(0, { wait := some (.spare, 0) }), (0, {})] } }

/-- Refutes O25: its clauses for CW_CMD_SPARE and CW_CMD_DROP give one change of the link where the commands make two.
The first, the end of the wait, takes an entry that holds nothing else out of the table; where the table lists the link
twice, which no canonical table does, the second then acts on the other entry. So one entry is left, where the statement
leaves two. -/
theorem not_laneCommandsComplete : ¬ Obligations.LaneCommandsComplete := by
  intro h
  have hup : State.linkListedTwice.dev.coreUp (dieOfLink (0 : Link).val) = true := by decide
  obtain ⟨_, _, _, _, hdrop, _⟩ := h State.linkListedTwice 0 0 hup (by decide)
  have hstated := hdrop 0 (by decide)
  have hmade := becomes_cwCmdDrop hup 0 0
  have hlengths := congrArg (fun d => d.links.length) (hmade.after_eq hstated)
  exact absurd hlengths (by decide +kernel)

end Sys2Proof.Machine
end

section
/-! SUPPORT. Drift responses at their requester (R333), the requests' timeout (R334), and packets on their way (R322, R325
to R327, R330), case by case. -/

namespace Sys2Proof.Machine

/-! ### The commands -/

section
variable {s : State} (hup : s.dev.coreUp 1 = true) (hlive : s.dev.fatal = false) (t : Time)
include hup hlive

theorem becomes_readResp (p : Packet) : Becomes (.readResp p t) s (execReadResp p t s.dev) :=
  becomes_of_active rfl hup hlive

theorem becomes_writeAck (p : Packet) : Becomes (.writeAck p t) s (execWriteAck p t s.dev) :=
  becomes_of_active rfl hup hlive

theorem becomes_bounce (p : Packet) : Becomes (.bounce p t) s (execBounce p t s.dev) :=
  becomes_of_active rfl hup hlive

theorem becomes_mgmtResp (p : Packet) : Becomes (.mgmtResp p t) s (execMgmtResp p t s.dev) :=
  becomes_of_active rfl hup hlive

theorem becomes_driftReqTimeout (q : BitVec 4) (tag : BitVec 12) :
    Becomes (.driftReqTimeout q tag t) s (execDriftReqTimeout q.toNat tag.toNat t s.dev) :=
  becomes_of_active rfl hup hlive

theorem becomes_driftForward (via : Link) (vc : BitVec 2) (far : Bool) :
    Becomes (.driftForward via vc far t) s (execDriftForward via.val vc.toNat far t s.dev) :=
  becomes_of_active rfl hup hlive

end

/-! ### Responses -/

section
variable {p : Packet} {ops : List Nat} {d : Dev}

theorem closeTag_answered {r : Req} (h : d.answered p ops = some r) :
    closeTag ops p d = completeReq r p.status.toNat p.data d := by
  simp only [closeTag, h]

theorem closeTag_endedNow (h : d.answered p ops = none) {r : Req} (hended : d.endedNow p ops = some r) :
    closeTag ops p d = responseStands r p.status.toNat p.data d := by
  simp only [closeTag, h, hended]

theorem closeTag_stale (h : d.answered p ops = none) (hended : d.endedNow p ops = none) :
    closeTag ops p d = d.inc C.DRIFT_COUNTS2_stale := by
  simp only [closeTag, h, hended]

end

/-- A well-formed response for this device becomes what its tag makes of it. -/
theorem becomes_response {i : Instr} {s : State} {p : Packet} {t : Time} {op : Nat} {ops : List Nat} {e : Dev}
    (hreceived : Becomes i s (receive op p (closeTag ops) t s.dev)) (hop : p.opcode.toNat = op)
    (hdest : p.dest.toNat = (s.dev.advance t).get R.DEV_ADDR_address) (hok : packetOk p = true)
    (hclosed : closeTag ops p (unqueue p (s.dev.advance t)) = e) : Becomes i s (drainRequests e) :=
  hclosed ▸ hreceived.trans (receive_wellFormed hdest hop _ hok)

/-! ### DRIFT_REQ_TIMEOUT -/

theorem execDriftReqTimeout_due {q tag : Nat} {t : Time} {d : Dev} {r : Req}
    (hreq : (d.advance t).fabric.reqs.find? (fun r => decide (r.requester = q ∧ r.packet.tag.toNat = tag)) = some r)
    (hdue : tdiff t r.issued ≥ ((d.advance t).before R.DRIFT_CTL_req_timeout * usU : Nat)) :
    execDriftReqTimeout q tag t d = drainRequests (raiseOncePerSecond 2 E.DRIFT_TIMEOUT none
      (completeReq r stTimeout [] (noteEnded r ((d.advance t).inc C.DRIFT_COUNTS_timeouts)))) := by
  simp only [execDriftReqTimeout, hreq]
  exact if_pos hdue

/-! ### DRIFT_FORWARD -/

/-- The flits that a link's input buffer holds on a VC, or its transit buffer on the far die. -/
def LinkSt.waitingFlits (x : LinkSt) (vc : Nat) (far : Bool) : List DriftFlit :=
  tget [] (if far then x.transit else x.inBuf) vc

section
variable {via vc : Nat} {far : Bool} {t : Time} {d : Dev} {fs : List DriftFlit}
  (hfront : frontPacket (((d.advance t).link via).waitingFlits vc far) = some fs)
include hfront

theorem execDriftForward_bad_markers (hmarkers : markersOk fs = false) :
    execDriftForward via vc far t d = malformed (leaveBuffer via vc fs.length far (d.advance t)) := by
  unfold LinkSt.waitingFlits at hfront
  simp only [execDriftForward, hfront, hmarkers, Bool.false_eq_true, if_false]

section
variable (hmarkers : markersOk fs = true)
include hmarkers

theorem execDriftForward_unparsed (hparse : parsePacket vc (fs.map (·.data)) = none) :
    execDriftForward via vc far t d = malformed (leaveBuffer via vc fs.length far (d.advance t)) := by
  unfold LinkSt.waitingFlits at hfront
  simp only [execDriftForward, hfront, hmarkers, hparse, if_true]

variable {p : Packet} (hparse : parsePacket vc (fs.map (·.data)) = some p)
include hparse

theorem execDriftForward_here {b : Bool} (hroute : (d.advance t).route p (some via) = (.here, b))
    (hfree : (d.advance t).unitWaits p = false) :
    let gone := leaveBuffer via vc fs.length far (d.advance t)
    execDriftForward via vc far t d = { gone with fabric := { gone.fabric with selfQ := gone.fabric.selfQ ++ [p] } } := by
  unfold LinkSt.waitingFlits at hfront
  simp only [execDriftForward, hfront, hmarkers, hparse, hroute, hfree, Bool.false_eq_true, if_true, if_false]

theorem execDriftForward_noRoute {b : Bool} (hroute : (d.advance t).route p (some via) = (.noRoute, b)) :
    execDriftForward via vc far t d = noRoutePacket p (leaveBuffer via vc fs.length far (d.advance t)) := by
  unfold LinkSt.waitingFlits at hfront
  simp only [execDriftForward, hfront, hmarkers, hparse, hroute, if_true]

section
variable {l : Nat} {q : Packet} {enters b : Bool} (hroute : (d.advance t).route p (some via) = (.out l q enters, b))
include hroute

theorem execDriftForward_same_die (hdie : far = true ∨ dieOfLink l = dieOfLink via) :
    let gone := leaveBuffer via vc fs.length far (d.advance t)
    execDriftForward via vc far t d = queueOn l q enters (if b then gone.inc C.DRIFT_COUNTS_detours else gone) := by
  have hstays : ¬ (¬ far = true ∧ dieOfLink l ≠ dieOfLink via) := fun ⟨hnear, hother⟩ => hdie.elim hnear hother
  unfold LinkSt.waitingFlits at hfront
  simp only [execDriftForward, hfront, hmarkers, hparse, hroute, if_true]
  exact if_neg hstays

theorem execDriftForward_crosses (hnear : far = false) (hdie : dieOfLink l ≠ dieOfLink via)
    (hroom : (tget [] ((d.advance t).link via).transit vc).length + (d.advance t).onWayTo via vc + fs.length ≤ 4) :
    execDriftForward via vc far t d = (leaveBuffer via vc fs.length far (d.advance t)).istQueue
      (decide (dieOfLink l = 1)) (icDrift vc) 0 0 p.addr.toNat (4 * fs.length) (.drift via vc fs) := by
  unfold LinkSt.waitingFlits at hfront
  simp only [execDriftForward, hfront, hmarkers, hparse, hroute, if_true]
  exact (if_pos ⟨Bool.eq_false_iff.mp hnear, hdie⟩).trans (if_pos hroom)

end

end

end

/-! ### The statement -/

/-- Settles O28: a response by what its tag finds, a request that has waited its time, and a packet at the front of a
buffer by its form and its route. -/
theorem driftResponsesAndForwarding : Obligations.DriftResponsesAndForwarding := by
  intro s t hup hlive e
  refine ⟨fun p hdest hok => ?responses, fun q tag r hreq hdue => ?timeout,
    fun via vc far fs hfront => ⟨fun hmarkers => ?badMarkers, fun hmarkers hparse => ?unparsed,
      fun p hmarkers hparse => ⟨fun b hroute hfree => ?here, fun b hroute => ?noRoute, fun l q enters b hroute =>
        ⟨fun hdie => ?sameDie, fun hnear hdie hroom => ?crosses⟩⟩⟩⟩
  case responses =>
    intro d answers
    have closes {i : Instr} {op : Nat} {ops : List Nat} (hreceived : Becomes i s (receive op p (closeTag ops) t s.dev))
        (hop : p.opcode.toNat = op) : answers i ops :=
      have hresponse {x : Dev} : closeTag ops p d = x → Becomes i s (drainRequests x) :=
        becomes_response hreceived hop hdest hok
      ⟨fun r hanswered => hresponse (closeTag_answered hanswered), fun hnone =>
        ⟨fun r hended => hresponse (closeTag_endedNow hnone hended), fun hended => hresponse (closeTag_stale hnone hended)⟩⟩
    exact ⟨closes (becomes_readResp hup hlive t p), closes (becomes_writeAck hup hlive t p),
      closes (becomes_bounce hup hlive t p), closes (becomes_mgmtResp hup hlive t p)⟩
  case timeout => exact (becomes_driftReqTimeout hup hlive t q tag).trans (execDriftReqTimeout_due hreq hdue)
  case badMarkers =>
    exact (becomes_driftForward hup hlive t via vc far).trans (execDriftForward_bad_markers hfront hmarkers)
  case unparsed =>
    exact (becomes_driftForward hup hlive t via vc far).trans (execDriftForward_unparsed hfront hmarkers hparse)
  case here =>
    exact (becomes_driftForward hup hlive t via vc far).trans (execDriftForward_here hfront hmarkers hparse hroute hfree)
  case noRoute =>
    exact (becomes_driftForward hup hlive t via vc far).trans (execDriftForward_noRoute hfront hmarkers hparse hroute)
  case sameDie =>
    exact (becomes_driftForward hup hlive t via vc far).trans
      (execDriftForward_same_die hfront hmarkers hparse hroute hdie)
  case crosses =>
    exact (becomes_driftForward hup hlive t via vc far).trans
      (execDriftForward_crosses hfront hmarkers hparse hroute hnear hdie hroom)

end Sys2Proof.Machine
end

section
/-! SUPPORT. The service arbiters' commands (R339 to R344), case by case. -/

namespace Sys2Proof.Machine

/-! ### The commands -/

section
variable {s : State} {i : Fin 600} (hup : s.dev.coreUp (arbDie i.val) = true)
include hup

theorem becomes_arbGrant (m : BitVec 16) : Becomes (.arbGrant i m) s (execArbGrant i.val m.toNat s.dev) :=
  becomes_of_onDie rfl hup

theorem becomes_arbStarveLimit (q : Fin 16) : Becomes (.arbStarveLimit i q) s (execArbStarveLimit i.val q.val s.dev) :=
  becomes_of_onDie rfl hup

theorem becomes_arbWithdraw (q : Fin 16) : Becomes (.arbWithdraw i q) s (execArbWithdraw i.val q.val s.dev) :=
  becomes_of_onDie rfl hup

theorem becomes_arbMask (q : Fin 16) (on : Bool) : Becomes (.arbMask i ⟨q, on⟩) s (execArbMask i.val q.val on s.dev) :=
  becomes_of_onDie rfl hup

end

/-! ### ARB_GRANT -/

/-- A grant counted for the winner, in WATCH mode alone (R340, R341). -/
def countGrant (i w : Nat) (d : Dev) : Dev :=
  if d.get R.ARB_MODE_mode i = 0 then d.inc C.ARB_WATCH_grants (i * 16 + w) else d

/-- The waits after a grant to `w`: of the others that are not masked, one that asks waits a cycle more, the rest do not
wait (R342). -/
def othersWait (i asks w : Nat) (d : Dev) : Dev :=
  (arbRequesters i).foldl (fun d q =>
    if q = w ∨ bit (d.get R.ARB_STATUS_masked i) q then d
    else if bit asks q then waitCycle i q d
    else d.setWait i q 0) d

/-- The requests that a grant to `w` leaves pending. -/
def stillPending (i asks w : Nat) : Nat :=
  ((arbRequesters i).filter (fun q => bit asks q && decide (q ≠ w))).foldl (fun m q => setBit m q true) 0

/-- The device after a grant to `w`, before the access that the grant is for. -/
def arbGranted (i asks w : Nat) (d : Dev) : Dev :=
  (othersWait i asks w ((arbAdvance i w (countGrant i w d)).setWait i w 0)).set R.ARB_STATUS_pending i
    (stillPending i asks w)

section
variable {i m w : Nat} {d : Dev} (hpresent : d.arbPresent i = true)
  (hwinner : d.arbWinner i (d.arbReady i (d.arbAsks i m)) = some w)
include hpresent hwinner

/-- A grant of a bank to drift, requester 1, performs the next row access. -/
theorem execArbGrant_drift (hdrift : i < 512 ∧ w = 1 ∧ (arbGranted i (d.arbAsks i m) w d).fatal = false) :
    execArbGrant i m d =
      showBank (i / 32) (i % 32) (bankGrant (i / 32) (i % 32) (arbGranted i (d.arbAsks i m) w d)) := by
  obtain ⟨hbank, hw, hlive⟩ := hdrift
  simp only [execArbGrant, hpresent, hwinner, not_true_eq_false, if_false]
  exact if_pos ⟨hbank, hw, Bool.eq_false_iff.mp hlive⟩

theorem execArbGrant_other (hother : ¬ (i < 512 ∧ w = 1 ∧ (arbGranted i (d.arbAsks i m) w d).fatal = false)) :
    execArbGrant i m d = arbGranted i (d.arbAsks i m) w d := by
  simp only [execArbGrant, hpresent, hwinner, not_true_eq_false, if_false]
  exact if_neg fun ⟨hbank, hw, hlive⟩ => hother ⟨hbank, hw, Bool.eq_false_iff.mpr hlive⟩

end

/-! ### ARB_STARVE_LIMIT, ARB_WITHDRAW and ARB_MASK -/

section
variable {i q : Nat} {d : Dev} (hpresent : d.arbPresent i = true) (hq : (arbRequesters i).contains q = true)
include hpresent hq

theorem execArbStarveLimit_starved (hwaited : d.get R.ARB_MODE_starve_limit i ≤ d.arbWait i q)
    (hnew : bit (d.get R.ARB_STATUS_starved i) q = false) :
    execArbStarveLimit i q d = (d.setWc R.ARB_STATUS_starved i (2 ^ q)).raise E.ARB_STARVED none (some i) :=
  if_pos ⟨hpresent, hq, hwaited, Bool.eq_false_iff.mp hnew⟩

theorem execArbWithdraw_unused :
    let e := (arbAdvance i q d).setWait i q 0
    execArbWithdraw i q d = e.set R.ARB_STATUS_pending i (setBit (e.get R.ARB_STATUS_pending i) q false) :=
  if_pos ⟨hpresent, hq⟩

theorem execArbMask_masks :
    let e := (d.set R.ARB_STATUS_masked i (setBit (d.get R.ARB_STATUS_masked i) q true)).setWait i q 0
    execArbMask i q true d = e.set R.ARB_STATUS_pending i (setBit (e.get R.ARB_STATUS_pending i) q false) :=
  if_pos ⟨hpresent, hq⟩

theorem execArbMask_unmasks :
    execArbMask i q false d = d.set R.ARB_STATUS_masked i (setBit (d.get R.ARB_STATUS_masked i) q false) :=
  if_pos ⟨hpresent, hq⟩

end

/-! ### The statement -/

/-- Settles O29: each command through its own arm and the case of its function that the premises choose. -/
theorem arbiterCommandsComplete : Obligations.ArbiterCommandsComplete := by
  intro s i hup hpresent d
  refine ⟨fun m w hwinner => ⟨fun hdrift => ?grantDrift, fun hother => ?grantOther⟩,
    fun q hq => ⟨fun hwaited hnew => ?starved, ?withdraw, ?mask, ?unmask⟩⟩
  case grantDrift => exact (becomes_arbGrant hup m).trans (execArbGrant_drift hpresent hwinner hdrift)
  case grantOther => exact (becomes_arbGrant hup m).trans (execArbGrant_other hpresent hwinner hother)
  case starved => exact (becomes_arbStarveLimit hup q).trans (execArbStarveLimit_starved hpresent hq hwaited hnew)
  case withdraw => exact (becomes_arbWithdraw hup q).trans (execArbWithdraw_unused hpresent hq)
  case mask => exact (becomes_arbMask hup q true).trans (execArbMask_masks hpresent hq)
  case unmask => exact (becomes_arbMask hup q false).trans (execArbMask_unmasks hpresent hq)

end Sys2Proof.Machine
end

section
/-! SUPPORT. What each command leaves of the block: a command answers a next state that keeps the queue and, but for the
sealed meter's own connections (R479), the meter. -/

namespace Sys2Proof.Machine

/-- The answer is a next state that differs in the device alone. -/
def AnswersDev (s : State) (a : Answer) : Prop := ∃ d, a = .next { s with dev := d }

/-- The answer is a next state that differs in the device and the meter alone. -/
def AnswersBoth (s : State) (a : Answer) : Prop := ∃ d m, a = .next { s with dev := d, meter := m }

theorem AnswersDev.both {s : State} {a : Answer} (h : AnswersDev s a) : AnswersBoth s a :=
  h.imp fun _ hd => ⟨s.meter, hd⟩

/-- A command outside the meter's connections is a command of the device, whatever it asks of a die. -/
theorem exec_answersDev {i : Instr} {s : State} (hmeter : i.ofMeter = false)
    (hlocked : (∀ code tdi, i ≠ .jtagVendorPrivate code tdi) ∨ s.dev.is R.SEC_DEBUG_unlocked = false) :
    AnswersDev s (exec i s) := by
  cases i with
  | jtagVendorPrivate code tdi =>
    obtain hother | hlocked := hlocked
    · exact absurd rfl (hother code tdi)
    · exact ⟨_, if_neg (Bool.eq_false_iff.mp hlocked)⟩
  | feedCountRecord | feedIdleFrame | feedInterruption | recordIntervalEnd | recordSigned | meterPowerRestore
  | mirrorRefresh | energySample | meterTimebaseFail | meterTimebaseRestore | meterSupplyWarning | sealOpen | sealClose
  | readRecord | readCustomerSnapshot | readLiveTotals | readCertificate | writeParameterSet | setMeterSeconds =>
    exact absurd hmeter Bool.noConfusion
  | _ => exact ⟨_, rfl⟩

end Sys2Proof.Machine
end

section
/-! SUPPORT. What a command can do to the sealed meter, said once (18). -/

namespace Sys2Proof.Machine

/-- The meter when its supply returns: the records left over are signed, then that of the interrupted interval, and a
new interval begins (R491). -/
def restoredMeter (t : Time) (alone : MeterSt → Bool) (m : MeterSt) : MeterSt :=
  let cut := takeSnap m.seconds m.secondsAt ({ m with sample := none }.flagged mfRestored)
  let n := (m.signing ++ [cut]).foldl (fun m x => signRecord x m)
    { m with powered := true, secondsAt := t, signing := [], acceptedAt := t }
  beginInterval n.seconds (alone n) n

/-- The meter when an interval ends: the totals are copied and the next interval begins (R489). -/
def intervalEnded (t : Time) (alone : Bool) (m : MeterSt) : MeterSt :=
  let f := if alone then m.flagged mfMeterOnly else m
  beginInterval (m.secondsNow t) alone { f with signing := f.signing ++ [takeSnap (m.secondsNow t) t f] }

/-- The changes of the meter that a command can make. -/
inductive MeterStep (m : MeterSt) : MeterSt → Prop
  | none : MeterStep m m
  | frame (f : List Byte) (t : Time) : MeterStep m (takeFrame f t m).1
  | interruption (alone : Bool) : MeterStep m { interrupt alone m with absent := true }
  | sample (shunts volts : List (BitVec 32)) : MeterStep m (execEnergySample shunts volts m)
  | timebaseFail : MeterStep m (execMeterTimebaseFail m)
  | timebaseRestore : MeterStep m (execMeterTimebaseRestore m)
  | intervalEnd (t : Time) (alone : Bool) : MeterStep m (intervalEnded t alone m)
  | signed (x : MeterSnap) (rest : List MeterSnap) (h : m.signing = x :: rest) :
      MeterStep m (signRecord x { m with signing := rest })
  | supplyWarning (t : Time) : MeterStep m { m with powered := false, seconds := m.secondsNow t, secondsAt := t }
  | powerRestore (t : Time) (alone : MeterSt → Bool) : MeterStep m (restoredMeter t alone m)
  | sealOpen : MeterStep m (execSealOpen m)
  | sealClose : MeterStep m (execSealClose m)
  | sent (port : List (List Byte)) : MeterStep m { m with port := port }
  | parameters (set : List Byte) : MeterStep m (execWriteParameterSet set m)
  | seconds (v : Nat) (t : Time) : MeterStep m (execSetMeterSeconds v t m)
  | refreshed (t : Option Time) : MeterStep m { m with refreshAt := t }

theorem meterStep_whenPowered {f : MeterSt → MeterSt} {m : MeterSt} (h : MeterStep m (f m)) :
    MeterStep m (whenPowered f m) := by
  simp only [whenPowered]
  split
  · exact h
  · exact .none

theorem meterStep_deliverFrame (flips : BitVec 192) (lost : Bool) (t : Time) (d : Dev) (m : MeterSt) :
    MeterStep m (deliverFrame flips lost t (d, m)).2 := by
  simp only [deliverFrame]
  split
  · exact .none
  · exact .frame _ t

theorem meterStep_feedCountRecord (flips : BitVec 192) (lost : Bool) (t : Time) (d : Dev) (m : MeterSt) :
    MeterStep m (execFeedCountRecord flips lost t (d, m)).2 := by
  simp only [execFeedCountRecord]
  split
  · exact .none
  · split
    · split
      · exact meterStep_deliverFrame flips lost t _ m
      · exact .none
    · exact meterStep_deliverFrame flips lost t _ m
    · exact .none

theorem meterStep_feedIdleFrame (flips : BitVec 192) (lost : Bool) (t : Time) (d : Dev) (m : MeterSt) :
    MeterStep m (execFeedIdleFrame flips lost t (d, m)).2 := by
  simp only [execFeedIdleFrame]
  split
  · exact meterStep_deliverFrame flips lost t _ m
  · exact .none

theorem meterStep_feedInterruption (t : Time) (d : Dev) (m : MeterSt) :
    MeterStep m (execFeedInterruption t (d, m)).2 := by
  simp only [execFeedInterruption]
  split
  · exact .interruption _
  · exact .none

theorem meterStep_recordIntervalEnd (t : Time) (d : Dev) (m : MeterSt) :
    MeterStep m (execRecordIntervalEnd t (d, m)).2 := by
  simp only [execRecordIntervalEnd]
  split
  · exact .intervalEnd t _
  · exact .none

theorem meterStep_recordSigned (t : Time) (d : Dev) (m : MeterSt) : MeterStep m (execRecordSigned t (d, m)).2 := by
  simp only [execRecordSigned]
  split
  next x rest hsigning =>
    split
    · exact .signed x rest hsigning
    · exact .none
  next => exact .none

theorem meterStep_meterSupplyWarning (t : Time) (m : MeterSt) : MeterStep m (execMeterSupplyWarning t m) := by
  simp only [execMeterSupplyWarning]
  split
  · exact .supplyWarning t
  · exact .none

theorem meterStep_meterPowerRestore (t : Time) (d : Dev) (m : MeterSt) :
    MeterStep m (execMeterPowerRestore t (d, m)).2 := by
  simp only [execMeterPowerRestore]
  split
  · exact .none
  · exact .powerRestore t (fun n => n.absent && decide ((d.advance t).get R.PWR_STATE_state = 3))

theorem meterStep_readRecord (n : Nat) (m : MeterSt) : MeterStep m (execReadRecord n m) := by
  simp only [execReadRecord]
  split <;> exact .sent _

theorem meterStep_readCustomerSnapshot (n : Nat) (m : MeterSt) : MeterStep m (execReadCustomerSnapshot n m) := by
  simp only [execReadCustomerSnapshot]
  split <;> exact .sent _

theorem meterStep_mirrorRefresh (t : Time) (d : Dev) (m : MeterSt) : MeterStep m (execMirrorRefresh t (d, m)).2 := by
  simp only [execMirrorRefresh]
  split
  · exact .refreshed (some t)
  · exact .none

/-- A command of the meter's connections answers a next state, with one of the changes of the meter. -/
theorem exec_meterStep {i : Instr} {s : State} (hmeter : i.ofMeter = true) :
    ∃ d m, exec i s = .next { s with dev := d, meter := m } ∧ MeterStep s.meter m := by
  cases i with
  | feedCountRecord flips lost t => exact ⟨_, _, rfl, meterStep_feedCountRecord flips lost t s.dev s.meter⟩
  | feedIdleFrame flips lost t => exact ⟨_, _, rfl, meterStep_feedIdleFrame flips lost t s.dev s.meter⟩
  | feedInterruption t => exact ⟨_, _, rfl, meterStep_feedInterruption t s.dev s.meter⟩
  | recordIntervalEnd t => exact ⟨_, _, rfl, meterStep_recordIntervalEnd t s.dev s.meter⟩
  | recordSigned t => exact ⟨_, _, rfl, meterStep_recordSigned t s.dev s.meter⟩
  | meterPowerRestore t => exact ⟨_, _, rfl, meterStep_meterPowerRestore t s.dev s.meter⟩
  | mirrorRefresh t => exact ⟨_, _, rfl, meterStep_mirrorRefresh t s.dev s.meter⟩
  | energySample shunts volts => exact ⟨_, _, rfl, meterStep_whenPowered (.sample shunts volts)⟩
  | meterTimebaseFail => exact ⟨_, _, rfl, meterStep_whenPowered .timebaseFail⟩
  | meterTimebaseRestore => exact ⟨_, _, rfl, meterStep_whenPowered .timebaseRestore⟩
  | meterSupplyWarning t => exact ⟨_, _, rfl, meterStep_meterSupplyWarning t s.meter⟩
  | sealOpen => exact ⟨_, _, rfl, meterStep_whenPowered .sealOpen⟩
  | sealClose => exact ⟨_, _, rfl, meterStep_whenPowered .sealClose⟩
  | readRecord n => exact ⟨_, _, rfl, meterStep_whenPowered (meterStep_readRecord n.toNat s.meter)⟩
  | readCustomerSnapshot n => exact ⟨_, _, rfl, meterStep_whenPowered (meterStep_readCustomerSnapshot n.toNat s.meter)⟩
  | readLiveTotals t => exact ⟨_, _, rfl, meterStep_whenPowered (f := execReadLiveTotals t) (.sent _)⟩
  | readCertificate => exact ⟨_, _, rfl, meterStep_whenPowered (f := execReadCertificate) (.sent _)⟩
  | writeParameterSet set => exact ⟨_, _, rfl, meterStep_whenPowered (.parameters set)⟩
  | setMeterSeconds v t => exact ⟨_, _, rfl, meterStep_whenPowered (.seconds v.toNat t)⟩
  | _ => exact absurd hmeter Bool.false_ne_true

/-- A command that answers a next state keeps the queue and makes one of the changes of the meter; without a connection
to the meter it makes none. -/
theorem meter_of_exec {i : Instr} {s s' : State} (hmeter : i.ofMeter = false) (h : exec i s = .next s') :
    s'.meter = s.meter := by
  obtain ⟨d, hd⟩ : AnswersDev s (exec i s) := by
    refine exec_answersDev hmeter ?_
    by_cases hlocked : s.dev.is R.SEC_DEBUG_unlocked = true
    · refine .inl fun code tdi hi => ?_
      rw [hi, show exec (.jtagVendorPrivate code tdi) s = .fault .jtagPrivate from if_pos hlocked] at h
      cases h
    · exact .inr (Bool.eq_false_iff.mpr hlocked)
  cases hd.symm.trans h
  rfl

theorem meterStep_of_exec {i : Instr} {s s' : State} (h : exec i s = .next s') : MeterStep s.meter s'.meter := by
  cases hmeter : i.ofMeter with
  | false => exact meter_of_exec hmeter h ▸ .none
  | true =>
    obtain ⟨d, m, hd, hstep⟩ := exec_meterStep (s := s) hmeter
    cases hd.symm.trans h
    exact hstep

/-! ### WRITE_PARAMETER_SET (R493) -/

/-- A parameter event counted, whether the set is accepted or refused. -/
def paramCounted (m : MeterSt) : MeterSt :=
  let n := stick 31 (m.paramEvents + flag m.paramSat * 2 ^ 31) 1
  { m with paramEvents := n % 2 ^ 31, paramSat := decide (n ≥ 2 ^ 31) }

section
variable {m : MeterSt} {set : List Byte}

theorem execWriteParameterSet_closed (hseal : m.sealOpen = false) : execWriteParameterSet set m = sendPort [1] m :=
  if_pos (Bool.eq_false_iff.mp hseal)

variable (hseal : m.sealOpen = true)
include hseal

theorem execWriteParameterSet_unreadable (hread : readParams set = none) :
    execWriteParameterSet set m = sendPort [1] (paramCounted m) := by
  unfold execWriteParameterSet paramCounted
  generalize stick 31 (m.paramEvents + flag m.paramSat * 2 ^ 31) 1 = n
  rw [if_neg (not_not_intro hseal)]
  simp only [hread]

variable {p : MeterParams} (hread : readParams set = some p)
include hread

theorem execWriteParameterSet_full (hfull : m.banks ≥ 32 ∨ m.paramEvents = 2 ^ 31 - 1) :
    execWriteParameterSet set m = sendPort [1] (paramCounted m) := by
  unfold execWriteParameterSet paramCounted
  generalize stick 31 (m.paramEvents + flag m.paramSat * 2 ^ 31) 1 = n
  rw [if_neg (not_not_intro hseal)]
  simp only [hread]
  exact if_pos (hfull.imp_right decide_eq_true)

theorem execWriteParameterSet_accepted (hroom : ¬ (m.banks ≥ 32 ∨ m.paramEvents = 2 ^ 31 - 1)) :
    execWriteParameterSet set m =
      sendPort [0] { paramCounted m with next := some p, banks := m.banks + 1 } := by
  unfold execWriteParameterSet paramCounted
  generalize stick 31 (m.paramEvents + flag m.paramSat * 2 ^ 31) 1 = n
  rw [if_neg (not_not_intro hseal)]
  simp only [hread]
  exact if_neg fun hfull => hroom (hfull.imp_right of_decide_eq_true)

end

/-- A set is refused with the seal closed, refused and counted, or accepted and counted while a bank is left. -/
theorem execWriteParameterSet_cases (set : List Byte) (m : MeterSt) :
    execWriteParameterSet set m = sendPort [1] m ∨ execWriteParameterSet set m = sendPort [1] (paramCounted m) ∨
    ∃ p, m.banks < 32 ∧
      execWriteParameterSet set m = sendPort [0] { paramCounted m with next := some p, banks := m.banks + 1 } := by
  cases hseal : m.sealOpen with
  | false => exact .inl (execWriteParameterSet_closed hseal)
  | true =>
    cases hread : readParams set with
    | none => exact .inr (.inl (execWriteParameterSet_unreadable hseal hread))
    | some p =>
      by_cases hfull : m.banks ≥ 32 ∨ m.paramEvents = 2 ^ 31 - 1
      · exact .inr (.inl (execWriteParameterSet_full hseal hread hfull))
      · exact .inr (.inr ⟨p, Nat.not_le.mp fun hbanks => hfull (.inl hbanks),
          execWriteParameterSet_accepted hseal hread hfull⟩)

end Sys2Proof.Machine
end

section
/-! SUPPORT. The sealed meter's invariant (R488 to R493), kept by every change of the meter. -/

namespace Sys2Proof.Machine

/-! ### Flags -/

theorem bit_setBit_same (v i : Nat) : bit (setBit v i true) i = true := by
  simp only [setBit]
  split
  · assumption
  · next hclear =>
    rw [if_true, bit_eq_testBit, Nat.add_comm, Nat.testBit_two_pow_add_eq, ← bit_eq_testBit]
    simpa using hclear

theorem testBit_two_pow_add_of_gt {v i j : Nat} (hclear : v.testBit i = false) (hj : i < j) :
    (2 ^ i + v).testBit j = v.testBit j := by
  obtain ⟨k, rfl⟩ := Nat.exists_eq_add_of_lt hj
  have hodd : v / 2 ^ i % 2 = 0 := by simpa [Nat.testBit_eq_decide_div_mod_eq] using hclear
  have hhalf : (2 ^ i + v) / 2 ^ (i + 1) = v / 2 ^ (i + 1) := by
    rw [Nat.pow_succ, ← Nat.div_div_eq_div_mul, ← Nat.div_div_eq_div_mul, Nat.add_div_left _ (Nat.two_pow_pos i)]
    omega
  rw [show i + k + 1 = k + (i + 1) by omega, Nat.testBit_add, Nat.testBit_add, hhalf]

/-- Setting a bit clears none. -/
theorem bit_setBit_of_bit {v j : Nat} (i : Nat) (h : bit v j = true) : bit (setBit v i true) j = true := by
  by_cases hij : j = i
  · exact hij ▸ bit_setBit_same v i
  simp only [setBit]
  split
  · exact h
  · next hclear =>
    rw [if_true, bit_eq_testBit, Nat.add_comm]
    rw [bit_eq_testBit] at h
    rw [bit_eq_testBit, Bool.not_eq_true] at hclear
    obtain hlt | hgt := Nat.lt_or_gt_of_ne hij
    · exact (Nat.testBit_two_pow_add_gt hlt v).trans h
    · exact (testBit_two_pow_add_of_gt hclear hgt).trans h

/-! ### Lengths -/

theorem length_foldl_of_length {α β : Type} {f : List α → β → List α} (h : ∀ l x, (f l x).length = l.length)
    (l : List α) (xs : List β) : (xs.foldl f l).length = l.length := by
  induction xs generalizing l with
  | nil => rfl
  | cons x xs ih => exact (ih (f l x)).trans (h l x)

theorem length_mixRows (l : List (BitVec 64)) : (mixRows l).length = l.length := by simp [mixRows]

theorem length_moveLanes (l : List (BitVec 64)) : (moveLanes l).length = l.length :=
  length_foldl_of_length (fun _ _ => List.length_set ..) l _

theorem length_mixColumns (l : List (BitVec 64)) : (mixColumns l).length = l.length := by simp [mixColumns]

theorem length_stirRounds (n reg : Nat) (l : List (BitVec 64)) : (stirRounds n reg l).length = l.length := by
  induction n generalizing reg l with
  | zero => rfl
  | succ n ih => simp [stirRounds, ih, length_mixRows, length_moveLanes, length_mixColumns]

theorem length_soak (l : List (BitVec 64)) (block : List Byte) : (soak l block).length = l.length := by
  rw [soak, length_stirRounds, List.length_map, List.length_zipIdx]

theorem length_soakAll (n : Nat) (msg : List Byte) : (soakAll n msg).length = 25 := by
  rw [soakAll, length_soak, length_foldl_of_length (fun _ _ => length_soak ..), List.length_replicate]

theorem length_flatMap_leBytes {α : Type} (n : Nat) (f : α → Nat) (l : List α) :
    (l.flatMap (fun x => leBytes n (f x))).length = n * l.length := by
  induction l with
  | nil => rfl
  | cons x l ih => simp [length_leBytes, Nat.mul_succ, Nat.add_comm] at ih ⊢; omega

@[simp] theorem length_shake256 (msg : List Byte) : (shake256 msg 32).length = 32 := by
  rw [shake256, List.length_take, length_flatMap_leBytes, length_soakAll]
  rfl

/-! ### Records -/

/-- A field of a text, found past what stands before it. -/
theorem take_drop_append {a b c : List Byte} {off n : Nat} (hoff : a.length = off) (hn : b.length = n) :
    ((a ++ b ++ c).drop off).take n = b := by
  subst hoff hn
  simp

/-- Bytes 0x00 to 0x9F of a record. -/
def headerBytes (m : MeterSt) (n : Nat) (x : MeterSnap) : List Byte :=
  leBytes 4 0x4D545231 ++ leBytes 2 1 ++ leBytes 2 x.flags ++ leBytes 8 n ++ leBytes 16 m.serial ++ leBytes 8 x.start ++
  leBytes 8 x.stop ++ leBytes 8 x.calendar ++ leBytes 4 x.paramEvents ++ leBytes 4 x.interruptions ++
  shake256 (paramBytes x.params) 32 ++ x.energy.flatMap (fun e => leBytes 8 e) ++ leBytes 16 0

section
variable {x : MeterSnap} (henergy : x.energy.length = 6) (m : MeterSt) (n : Nat) (previous rest : List Byte)

theorem number_recordBody : ((recordBody m n previous x ++ rest).drop 8).take 8 = leBytes 8 n := by
  obtain ⟨c, hc⟩ : ∃ c, recordBody m n previous x ++ rest =
      leBytes 4 0x4D545231 ++ leBytes 2 1 ++ leBytes 2 x.flags ++ leBytes 8 n ++ c :=
    ⟨_, by simp only [recordBody, List.append_assoc]; rfl⟩
  rw [hc]
  exact take_drop_append (by simp [length_leBytes]) (length_leBytes 8 n)

include henergy

theorem length_headerBytes : (headerBytes m n x).length = 0xA0 := by
  simp only [headerBytes, List.length_append, length_leBytes, length_shake256,
    length_flatMap_leBytes 8 (fun e => e), henergy]

theorem customers_recordBody :
    ((recordBody m n previous x ++ rest).drop 0xA0).take 32 = shake256 (totalsBytes 4096 x.customers) 32 := by
  obtain ⟨c, hc⟩ : ∃ c, recordBody m n previous x ++ rest =
      headerBytes m n x ++ shake256 (totalsBytes 4096 x.customers) 32 ++ c :=
    ⟨_, by simp only [recordBody, headerBytes, List.append_assoc]; rfl⟩
  rw [hc]
  exact take_drop_append (length_headerBytes henergy m n) (length_shake256 _)

theorem previous_recordBody (hprevious : previous.length = 32) :
    ((recordBody m n previous x ++ rest).drop 0xC0).take 32 = previous := by
  obtain ⟨c, hc⟩ : ∃ c, recordBody m n previous x ++ rest =
      headerBytes m n x ++ shake256 (totalsBytes 4096 x.customers) 32 ++ previous ++ c :=
    ⟨_, by simp only [recordBody, headerBytes, List.append_assoc]; rfl⟩
  rw [hc]
  refine take_drop_append ?_ hprevious
  rw [List.length_append, length_headerBytes henergy m n, length_shake256]

end

/-- The record that a signing adds to the store (R490). -/
def signedRecord (x : MeterSnap) (m : MeterSt) : MeterRecord :=
  let body := recordBody m (m.last.1 + 1) m.last.2 x
  { number := m.last.1 + 1, bytes := body ++ Config.sign 2 (leBytes 16 m.serial) body, customers := x.customers }

theorem signRecord_eq (x : MeterSnap) (m : MeterSt) :
    signRecord x m = { m with store := (m.store ++ [signedRecord x m]).drop (m.store.length - 1023) } := by
  have hdrop : m.store.length + 1 - 1024 = m.store.length - 1023 := by omega
  simp only [signRecord, signedRecord, List.length_append, List.length_singleton, hdrop]

theorem signedRecord_sound {x : MeterSnap} (m : MeterSt) (henergy : x.energy.length = 6) : (signedRecord x m).sound := by
  refine ⟨?_, customers_recordBody henergy m _ _ _⟩
  simp only [signedRecord]
  rw [number_recordBody, leNat_leBytes, ← Nat.pow_mul 2 8 8]

theorem signedRecord_follows {x : MeterSnap} {m : MeterSt} {r : MeterRecord} (henergy : x.energy.length = 6)
    (hlast : m.store.getLast? = some r) : (signedRecord x m).follows r := by
  have hlast : m.last = (r.number, shake256 r.bytes 32) := by simp only [MeterSt.last, hlast]
  refine ⟨?_, ?_⟩
  · simp only [signedRecord, hlast]
  · simp only [signedRecord, hlast]
    exact previous_recordBody henergy m _ _ _ (length_shake256 _)

/-! ### The store -/

/-- The part of the invariant about the record store, apart from its size. -/
structure ChainOk (store : List MeterRecord) : Prop where
  sound : ∀ r ∈ store, r.sound
  chain : ∀ k r r', store[k]? = some r → store[k + 1]? = some r' → r'.follows r

theorem ChainOk.append {store : List MeterRecord} {r : MeterRecord} (h : ChainOk store) (hsound : r.sound)
    (hfollows : ∀ l, store.getLast? = some l → r.follows l) : ChainOk (store ++ [r]) where
  sound y hy := (List.mem_append.mp hy).elim (h.sound y) fun hr => List.mem_singleton.mp hr ▸ hsound
  chain k a b ha hb := by
    obtain hlt | heq | hgt := Nat.lt_trichotomy (k + 1) store.length
    · rw [List.getElem?_append_left (by omega)] at ha hb
      exact h.chain k a b ha hb
    · rw [List.getElem?_append_left (by omega)] at ha
      rw [heq, List.getElem?_concat_length] at hb
      cases hb
      refine hfollows a ?_
      rw [List.getLast?_eq_getElem?, ← heq]
      exact ha
    · rw [List.getElem?_eq_none (by simp; omega)] at hb
      cases hb

theorem ChainOk.drop {store : List MeterRecord} (h : ChainOk store) (n : Nat) : ChainOk (store.drop n) where
  sound r hr := h.sound r (List.mem_of_mem_drop hr)
  chain k a b ha hb := by
    rw [List.getElem?_drop] at ha hb
    exact h.chain (n + k) a b ha hb

theorem inv_withStore {m : MeterSt} {store : List MeterRecord} (h : m.Inv) (hsize : store.length ≤ 1024)
    (hchain : ChainOk store) : ({ m with store := store } : MeterSt).Inv :=
  { h with
    size := hsize
    sound := hchain.sound
    chain := hchain.chain }

theorem length_keepLast {α : Type} {l : List α} {n : Nat} (h : l.length ≤ n + 1) (x : α) :
    ((l ++ [x]).drop (l.length - n)).length ≤ n + 1 := by
  rw [List.length_drop, List.length_append, List.length_singleton]
  omega

theorem inv_signRecord {x : MeterSnap} {m : MeterSt} (h : m.Inv) (henergy : x.energy.length = 6) :
    (signRecord x m).Inv := by
  have hchain : ChainOk (m.store ++ [signedRecord x m]) :=
    ChainOk.append ⟨h.sound, h.chain⟩ (signedRecord_sound m henergy) fun _ => signedRecord_follows henergy
  have hsize : ((m.store ++ [signedRecord x m]).drop (m.store.length - 1023)).length ≤ 1024 :=
    length_keepLast (n := 1023) h.size _
  rw [signRecord_eq]
  exact inv_withStore h hsize (hchain.drop _)


/-! ### The other changes -/

theorem inv_flagged {m : MeterSt} (h : m.Inv) (i : Nat) : (m.flagged i).Inv :=
  { h with
    sealFlag := fun hopen => bit_setBit_of_bit i (h.sealFlag hopen)
    timebaseFlag := fun hdegraded => bit_setBit_of_bit i (h.timebaseFlag hdegraded)
    overrangeFlag := fun hover => bit_setBit_of_bit i (h.overrangeFlag hover) }

theorem inv_interrupt {m : MeterSt} (h : m.Inv) (alone : Bool) : (interrupt alone m).Inv := by
  have hcounted (n : Nat) (b : Bool) : ({ m with interruptions := n, interruptSat := b }.flagged mfFeed).Inv :=
    inv_flagged (m := { m with interruptions := n, interruptSat := b }) { h with } mfFeed
  simp only [interrupt]
  split
  · exact inv_flagged (hcounted _ _) mfMeterOnly
  · exact hcounted _ _

theorem inv_keepTotals {m : MeterSt} (h : m.Inv) (t : Time) : (keepTotals t m).Inv := by
  simp only [keepTotals]
  split
  · exact h
  · exact { h with }

theorem tableWf_addTokens {ts : SMap TokenTotal} (key delivered expired : Nat) (h : tableWf {} ts = true) :
    tableWf {} (addTokens key delivered expired ts) = true :=
  tableWf_tput key h

theorem inv_acceptFrame {m : MeterSt} (h : m.Inv) (f : List Byte) (t : Time) : (acceptFrame f t m).Inv := by
  have hheard : (if bit (frameNum f 2 1) 0 ∧ ¬ m.absent then interrupt false m else m).Inv := by
    split
    · exact inv_interrupt h false
    · exact h
  simp only [acceptFrame]
  split
  · exact { hheard with }
  · have hkept := inv_keepTotals (m := { (if bit (frameNum f 2 1) 0 ∧ ¬ m.absent then interrupt false m else m) with
      lastSeq := some (frameNum f 0 2), acceptedAt := t, absent := false }) { hheard with } t
    exact { hkept with
      customers := tableWf_addTokens _ _ _ hkept.customers
      tenants := tableWf_addTokens _ _ _ hkept.tenants }

/-- A frame is accepted, or leaves the meter as it was. -/
theorem takeFrame_cases (f : List Byte) (t : Time) (m : MeterSt) :
    (takeFrame f t m).1 = m ∨ (takeFrame f t m).1 = acceptFrame f t m := by
  simp only [takeFrame, apply_ite Prod.fst]
  split
  · exact .inl rfl
  · split <;> split
    · exact .inr rfl
    · exact .inl rfl
    · exact .inr rfl
    · exact .inl rfl

theorem inv_takeFrame {m : MeterSt} (h : m.Inv) (f : List Byte) (t : Time) : (takeFrame f t m).1.Inv := by
  obtain hlost | htaken := takeFrame_cases f t m
  · exact hlost.symm ▸ h
  · exact htaken.symm ▸ inv_acceptFrame h f t

theorem inv_sampleChannel {m : MeterSt} (h : m.Inv) (nv uv ch : Nat) : (sampleChannel nv uv ch m).Inv := by
  simp only [sampleChannel]
  split
  · exact h
  · split
    · exact { h with
        sealFlag := fun hopen => bit_setBit_of_bit mfOverrange (h.sealFlag hopen)
        timebaseFlag := fun hdegraded => bit_setBit_of_bit mfOverrange (h.timebaseFlag hdegraded)
        overrangeFlag := fun _ => bit_setBit_same _ _ }
    · exact { h with }

theorem inv_givePulses {m : MeterSt} (h : m.Inv) : (givePulses m).Inv := by
  simp only [givePulses]
  split
  · exact h
  · exact { h with }

theorem inv_execEnergySample {m : MeterSt} (h : m.Inv) (shunts volts : List (BitVec 32)) :
    (execEnergySample shunts volts m).Inv :=
  inv_givePulses (List.foldlRecOn (motive := MeterSt.Inv) (List.range 6) _ h fun _ hm ch _ => inv_sampleChannel hm _ _ ch)

theorem length_energy_takeSnap (stop : Nat) (t : Time) (m : MeterSt) : (takeSnap stop t m).energy.length = 6 := rfl

/-- The flags of a new interval are those of the states that last: nothing of the interval before remains. -/
theorem inv_beginInterval {m : MeterSt} (h : m.Inv) (start : Nat) (alone : Bool) : (beginInterval start alone m).Inv :=
  { h with
    sealFlag := fun hopen => by
      simp only [beginInterval, show m.sealOpen = true from hopen]
      cases m.degraded <;> cases alone <;> cases m.next.isSome <;> decide
    timebaseFlag := fun hdegraded => by
      simp only [beginInterval, show m.degraded = true from hdegraded]
      cases m.sealOpen <;> cases alone <;> cases m.next.isSome <;> decide
    overrangeFlag := fun hover => absurd rfl hover }

theorem inv_intervalEnded {m : MeterSt} (h : m.Inv) (t : Time) (alone : Bool) : (intervalEnded t alone m).Inv := by
  have hcopied {f : MeterSt} (hf : f.Inv) :
      ({ f with signing := f.signing ++ [takeSnap (m.secondsNow t) t f] } : MeterSt).Inv :=
    { hf with
      copies := fun x hx => (List.mem_append.mp hx).elim (hf.copies x) fun hx =>
        List.mem_singleton.mp hx ▸ length_energy_takeSnap _ _ _ }
  refine inv_beginInterval (hcopied ?_) _ alone
  split
  · exact inv_flagged h mfMeterOnly
  · exact h

theorem inv_restoredMeter {m : MeterSt} (h : m.Inv) (t : Time) (alone : MeterSt → Bool) :
    (restoredMeter t alone m).Inv := by
  have hrestored : ({ m with powered := true, secondsAt := t, signing := [], acceptedAt := t } : MeterSt).Inv :=
    { h with copies := fun _ hx => absurd hx List.not_mem_nil }
  refine inv_beginInterval (List.foldlRecOn (motive := MeterSt.Inv) _ _ hrestored fun n hn x hx => ?_) _ _
  refine inv_signRecord hn ((List.mem_append.mp hx).elim (h.copies x) fun hx => ?_)
  exact List.mem_singleton.mp hx ▸ length_energy_takeSnap _ _ _

theorem inv_sendPort {m : MeterSt} (h : m.Inv) (bs : List Byte) : (sendPort bs m).Inv := { h with }

theorem inv_withParamEvents {m : MeterSt} (h : m.Inv) (n : Nat) (full : Bool) :
    ({ m with paramEvents := n, paramSat := full } : MeterSt).Inv := { h with }

theorem inv_paramCounted {m : MeterSt} (h : m.Inv) : (paramCounted m).Inv := inv_withParamEvents h _ _

theorem inv_withNext {m : MeterSt} {n : Nat} (h : m.Inv) (p : MeterParams) (hbanks : n ≤ 32) :
    ({ m with next := some p, banks := n } : MeterSt).Inv := { h with banks := hbanks }

theorem inv_execWriteParameterSet {m : MeterSt} (h : m.Inv) (set : List Byte) : (execWriteParameterSet set m).Inv := by
  have hcounted : (paramCounted m).Inv := inv_paramCounted h
  obtain hset | hset | ⟨p, hroom, hset⟩ := execWriteParameterSet_cases set m
  · exact hset ▸ inv_sendPort h _
  · exact hset ▸ inv_sendPort hcounted _
  · exact hset ▸ inv_sendPort (inv_withNext hcounted p hroom) _

theorem inv_execSetMeterSeconds {m : MeterSt} (h : m.Inv) (v : Nat) (t : Time) : (execSetMeterSeconds v t m).Inv := by
  simp only [execSetMeterSeconds]
  split <;> exact { h with }

/-- Every change of the meter keeps its invariant. -/
theorem inv_of_meterStep {m m' : MeterSt} (h : m.Inv) (hstep : MeterStep m m') : m'.Inv := by
  cases hstep with
  | none => exact h
  | frame f t => exact inv_takeFrame h f t
  | interruption alone => exact { inv_interrupt h alone with }
  | sample shunts volts => exact inv_execEnergySample h shunts volts
  | timebaseFail =>
    exact { h with
      sealFlag := fun hopen => bit_setBit_of_bit mfTimebase (h.sealFlag hopen)
      timebaseFlag := fun _ => bit_setBit_same _ _
      overrangeFlag := fun hover => bit_setBit_of_bit mfTimebase (h.overrangeFlag hover) }
  | timebaseRestore => exact { h with timebaseFlag := nofun }
  | intervalEnd t alone => exact inv_intervalEnded h t alone
  | signed x rest hsigning =>
    have hcopies : ∀ y ∈ x :: rest, y.energy.length = 6 := hsigning ▸ h.copies
    obtain ⟨hx, hrest⟩ := List.forall_mem_cons.mp hcopies
    exact inv_signRecord { h with copies := hrest } hx
  | supplyWarning t => exact { h with }
  | powerRestore t alone => exact inv_restoredMeter h t alone
  | sealOpen =>
    exact { h with
      sealFlag := fun _ => bit_setBit_same _ _
      timebaseFlag := fun hdegraded => bit_setBit_of_bit mfSealOpen (h.timebaseFlag hdegraded)
      overrangeFlag := fun hover => bit_setBit_of_bit mfSealOpen (h.overrangeFlag hover) }
  | sealClose => exact { h with sealFlag := nofun }
  | sent port => exact { h with }
  | parameters set => exact inv_execWriteParameterSet h set
  | seconds v t => exact inv_execSetMeterSeconds h v t
  | refreshed t => exact { h with }

/-! ### The statement -/

/-- Settles O51: a step runs the front command, a command makes one of the meter's changes, and each keeps the
invariant. -/
theorem everyStepKeepsTheMeterInvariant : Obligations.EveryStepKeepsTheMeterInvariant := by
  intro s s' h hstep
  simp only [step] at hstep
  split at hstep
  next =>
    cases hstep
    exact h
  next c rest hfront => exact inv_of_meterStep h (meterStep_of_exec (s := { s with pending := rest }) hstep)

end Sys2Proof.Machine
end

section
/-! SUPPORT. The token totals (R483): what an accepted count frame adds, and that no change of the meter lowers one. -/

namespace Sys2Proof.Machine

/-! ### Counts that stick (R7) -/

/-- A sticking count adds up to its maximum; the sat bit is set at the maximum and never cleared. -/
theorem stick_adds (x n : Nat) :
    stick 63 x n % 2 ^ 63 = Nat.min (2 ^ 63 - 1) (x % 2 ^ 63 + n) ∧
    (bit (stick 63 x n) 63 = true ↔ bit x 63 = true ∨ x % 2 ^ 63 + n ≥ 2 ^ 63 - 1) := by
  simp only [stick, bit, decide_eq_true_eq]
  split
  · next hlow =>
    exact ⟨Eq.trans (by omega) (Nat.min_eq_right (Nat.le_of_lt hlow)).symm, by rw [decide_eq_true_eq]; omega⟩
  · next hfull =>
    exact ⟨Eq.trans (by omega) (Nat.min_eq_left (Nat.not_lt.mp hfull)).symm, by rw [decide_eq_true_eq]; omega⟩

theorem stickLe_refl (w x : Nat) : stickLe w x x := ⟨Nat.le_refl _, id⟩

theorem stickLe_stick (x n : Nat) : stickLe 63 x (stick 63 x n) := by
  obtain ⟨hcount, hsat⟩ := stick_adds x n
  refine ⟨?_, fun hx => hsat.mpr (.inl hx)⟩
  rw [hcount]
  exact Nat.le_min.mpr ⟨Nat.le_pred_of_lt (Nat.mod_lt x (Nat.two_pow_pos 63)), Nat.le_add_right _ _⟩

theorem TokenTotal.le_refl (x : TokenTotal) : x.le x := ⟨stickLe_refl 63 _, stickLe_refl 63 _⟩

/-! ### Totals by key -/

theorem tget_addTokens_same {ts : SMap TokenTotal} (hwf : tableWf {} ts = true) (key delivered expired : Nat) :
    tget {} (addTokens key delivered expired ts) key =
      { delivered := stick 63 (tget {} ts key).delivered delivered,
        expired := stick 63 (tget {} ts key).expired expired } :=
  tget_tput_same key hwf

theorem tget_addTokens_other {ts : SMap TokenTotal} {key k : Nat} (hk : k ≠ key) (delivered expired : Nat) :
    tget {} (addTokens key delivered expired ts) k = tget {} ts k :=
  tget_tput_other hk

theorem le_addTokens {ts : SMap TokenTotal} (hwf : tableWf {} ts = true) (key delivered expired k : Nat) :
    (tget {} ts k).le (tget {} (addTokens key delivered expired ts) k) := by
  by_cases hk : k = key
  · rw [hk, tget_addTokens_same hwf]
    exact ⟨stickLe_stick _ _, stickLe_stick _ _⟩
  · rw [tget_addTokens_other hk]
    exact TokenTotal.le_refl _

/-! ### Frames -/

/-- Two meters with the same totals. -/
def SameTotals (m m' : MeterSt) : Prop := m'.customers = m.customers ∧ m'.tenants = m.tenants

theorem SameTotals.refl (m : MeterSt) : SameTotals m m := ⟨rfl, rfl⟩

theorem SameTotals.trans {a b c : MeterSt} (hab : SameTotals a b) (hbc : SameTotals b c) : SameTotals a c :=
  ⟨hbc.1.trans hab.1, hbc.2.trans hab.2⟩

theorem sameTotals_flagged (m : MeterSt) (i : Nat) : SameTotals m (m.flagged i) := ⟨rfl, rfl⟩

theorem sameTotals_interrupt (alone : Bool) (m : MeterSt) : SameTotals m (interrupt alone m) := by
  have hcounted (n : Nat) (b : Bool) :
      SameTotals m ({ m with interruptions := n, interruptSat := b }.flagged mfFeed) := ⟨rfl, rfl⟩
  simp only [interrupt]
  split
  · exact (hcounted _ _).trans (sameTotals_flagged _ mfMeterOnly)
  · exact hcounted _ _

theorem sameTotals_keepTotals (t : Time) (m : MeterSt) : SameTotals m (keepTotals t m) := by
  simp only [keepTotals]
  split <;> exact ⟨rfl, rfl⟩

/-- The meter that has heard a frame: a restart while frames came begins an interruption (R484). -/
def frameHeard (f : List Byte) (t : Time) (m : MeterSt) : MeterSt :=
  { (if bit (frameNum f 2 1) 0 ∧ ¬ m.absent then interrupt false m else m) with
    lastSeq := some (frameNum f 0 2), acceptedAt := t, absent := false }

theorem sameTotals_frameHeard (f : List Byte) (t : Time) (m : MeterSt) : SameTotals m (frameHeard f t m) := by
  simp only [frameHeard]
  split
  · exact sameTotals_interrupt false m
  · exact SameTotals.refl m

/-- An idle frame brings the calendar and no count. -/
theorem acceptFrame_idle {f : List Byte} (hidle : bit (frameNum f 2 1) 1 = true) (t : Time) (m : MeterSt) :
    acceptFrame f t m = { frameHeard f t m with calendar := frameNum f 3 5 } := if_pos hidle

/-- A count frame adds its counts to the totals of the customer and of the tenant it names. -/
theorem totals_acceptFrame_count {f : List Byte} (hcount : bit (frameNum f 2 1) 1 = false) (t : Time) (m : MeterSt) :
    (acceptFrame f t m).customers = addTokens (frameNum f 3 2 % 4096) (frameNum f 6 6) (frameNum f 12 6) m.customers ∧
    (acceptFrame f t m).tenants = addTokens (frameNum f 5 1) (frameNum f 6 6) (frameNum f 12 6) m.tenants := by
  obtain ⟨hcustomers, htenants⟩ := (sameTotals_frameHeard f t m).trans (sameTotals_keepTotals t _)
  rw [← hcustomers, ← htenants, acceptFrame, if_neg (Bool.eq_false_iff.mp hcount)]
  exact ⟨rfl, rfl⟩

/-! ### No change lowers a total -/

/-- No total of `m` is above its value in `m'`. -/
def TotalsLe (m m' : MeterSt) : Prop :=
  ∀ k, (tget {} m.customers k).le (tget {} m'.customers k) ∧ (tget {} m.tenants k).le (tget {} m'.tenants k)

theorem totalsLe_of_same {m m' : MeterSt} (h : SameTotals m m') : TotalsLe m m' := fun k => by
  rw [h.1, h.2]
  exact ⟨TokenTotal.le_refl _, TokenTotal.le_refl _⟩

theorem totalsLe_acceptFrame {m : MeterSt} (hcustomers : tableWf {} m.customers = true)
    (htenants : tableWf {} m.tenants = true) (f : List Byte) (t : Time) : TotalsLe m (acceptFrame f t m) := by
  cases hidle : bit (frameNum f 2 1) 1 with
  | true => exact totalsLe_of_same (acceptFrame_idle hidle t m ▸ sameTotals_frameHeard f t m)
  | false =>
    intro k
    rw [(totals_acceptFrame_count hidle t m).1, (totals_acceptFrame_count hidle t m).2]
    exact ⟨le_addTokens hcustomers _ _ _ k, le_addTokens htenants _ _ _ k⟩

theorem sameTotals_foldl {α : Type} {f : MeterSt → α → MeterSt} (h : ∀ m x, SameTotals m (f m x)) (m : MeterSt)
    (l : List α) : SameTotals m (l.foldl f m) := by
  induction l generalizing m with
  | nil => exact SameTotals.refl m
  | cons x l ih => exact (h m x).trans (ih (f m x))

theorem sameTotals_sampleChannel (nv uv ch : Nat) (m : MeterSt) : SameTotals m (sampleChannel nv uv ch m) := by
  simp only [sampleChannel]
  split
  · exact SameTotals.refl m
  · split <;> exact ⟨rfl, rfl⟩

theorem sameTotals_givePulses (m : MeterSt) : SameTotals m (givePulses m) := by
  simp only [givePulses]
  split <;> exact ⟨rfl, rfl⟩

theorem sameTotals_execEnergySample (shunts volts : List (BitVec 32)) (m : MeterSt) :
    SameTotals m (execEnergySample shunts volts m) := by
  refine (sameTotals_foldl ?_ m (List.range 6)).trans (sameTotals_givePulses _)
  exact fun m ch => sameTotals_sampleChannel _ _ ch m

theorem sameTotals_signRecord (x : MeterSnap) (m : MeterSt) : SameTotals m (signRecord x m) := by
  rw [signRecord_eq]
  exact ⟨rfl, rfl⟩

theorem sameTotals_restoredMeter (t : Time) (alone : MeterSt → Bool) (m : MeterSt) :
    SameTotals m (restoredMeter t alone m) := by
  have hsigned := sameTotals_foldl (f := fun m x => signRecord x m) (fun m x => sameTotals_signRecord x m)
    { m with powered := true, secondsAt := t, signing := [], acceptedAt := t }
  exact ⟨(hsigned _).1, (hsigned _).2⟩

theorem sameTotals_paramCounted (m : MeterSt) : SameTotals m (paramCounted m) := by
  have hcounted (n : Nat) (b : Bool) : SameTotals m { m with paramEvents := n, paramSat := b } := ⟨rfl, rfl⟩
  exact hcounted _ _

theorem sameTotals_sendPort (bs : List Byte) (m : MeterSt) : SameTotals m (sendPort bs m) := ⟨rfl, rfl⟩

theorem sameTotals_withNext (p : MeterParams) (n : Nat) (m : MeterSt) :
    SameTotals m { m with next := some p, banks := n } := ⟨rfl, rfl⟩

theorem sameTotals_execWriteParameterSet (set : List Byte) (m : MeterSt) :
    SameTotals m (execWriteParameterSet set m) := by
  obtain h | h | ⟨p, -, h⟩ := execWriteParameterSet_cases set m
  · exact h ▸ sameTotals_sendPort _ m
  · exact h ▸ (sameTotals_paramCounted m).trans (sameTotals_sendPort _ _)
  · exact h ▸ ((sameTotals_paramCounted m).trans (sameTotals_withNext p _ _)).trans (sameTotals_sendPort _ _)

/-- No change of the meter lowers a total: an accepted frame adds, and nothing else touches the totals. -/
theorem totalsLe_of_meterStep {m m' : MeterSt} (hcustomers : tableWf {} m.customers = true)
    (htenants : tableWf {} m.tenants = true) (hstep : MeterStep m m') : TotalsLe m m' := by
  cases hstep with
  | frame f t =>
    obtain hlost | htaken := takeFrame_cases f t m
    · exact hlost.symm ▸ totalsLe_of_same (SameTotals.refl m)
    · exact htaken.symm ▸ totalsLe_acceptFrame hcustomers htenants f t
  | interruption alone => exact totalsLe_of_same (sameTotals_interrupt alone m)
  | sample shunts volts => exact totalsLe_of_same (sameTotals_execEnergySample shunts volts m)
  | intervalEnd t alone => exact totalsLe_of_same (by cases alone <;> exact ⟨rfl, rfl⟩)
  | powerRestore t alone => exact totalsLe_of_same (sameTotals_restoredMeter t alone m)
  | parameters set => exact totalsLe_of_same (sameTotals_execWriteParameterSet set m)
  | seconds v t =>
    refine totalsLe_of_same ?_
    simp only [execSetMeterSeconds]
    split <;> exact ⟨rfl, rfl⟩
  | none | timebaseFail | timebaseRestore | signed | supplyWarning | sealOpen | sealClose | sent | refreshed =>
    exact totalsLe_of_same ⟨rfl, rfl⟩

/-! ### The statement -/

/-- Settles O52: a count frame's totals through `stick`, and the rest through the changes that a command can make. -/
theorem tokenTotalsOnlyRise : Obligations.TokenTotalsOnlyRise := by
  refine ⟨fun f t m hcustomers htenants hcount => ?_, fun i s s' hcustomers htenants h =>
    totalsLe_of_meterStep hcustomers htenants (meterStep_of_exec h)⟩
  obtain ⟨hc, hn⟩ := totals_acceptFrame_count hcount t m
  simp only [hc, hn, tget_addTokens_same hcustomers, tget_addTokens_same htenants]
  exact ⟨fun _ => ⟨stick_adds _ _, stick_adds _ _, stick_adds _ _, stick_adds _ _⟩,
    fun k hk => tget_addTokens_other hk _ _, fun k hk => tget_addTokens_other hk _ _⟩

end Sys2Proof.Machine
end

section
/-! SUPPORT. What reaches the sealed meter (R479), that every command answers (R476), and that a step runs the front
command. -/

namespace Sys2Proof.Machine

/-- The feed's part of a frame that arrives, where its accept line is lost, does not look at the meter. -/
theorem deliverFrame_unacknowledged (flips : BitVec 192) (t : Time) (d : Dev) (m m' : MeterSt) :
    (deliverFrame flips true t (d, m)).1 = (deliverFrame flips true t (d, m')).1 := by
  simp only [deliverFrame, not_true_eq_false, and_false, if_false]
  split <;> rfl

/-- Settles O53: by the kinds of command, and the meter's own commands are `liftMeter`, which keeps the device. -/
theorem onlyItsConnectionsReachTheMeter : Obligations.OnlyItsConnectionsReachTheMeter := by
  refine ⟨fun i s s' hmeter h => meter_of_exec hmeter h, fun s s' sh vo n v set t i hi h => ?_,
    fun flips t d m m' => deliverFrame_unacknowledged flips t d m m'⟩
  obtain ⟨f, hf⟩ : ∃ f, exec i s = liftMeter f s := by
    simp only [List.mem_cons, List.not_mem_nil, or_false] at hi
    obtain rfl | rfl | rfl | rfl | rfl | rfl | rfl | rfl | rfl | rfl | rfl | rfl := hi <;> exact ⟨_, rfl⟩
  cases hf.symm.trans h
  rfl

/-- A command answers a next state with the queue as it was, but for the one that has no meaning while debug is
unlocked. -/
theorem exec_answersBoth {i : Instr} {s : State}
    (h : (∀ code tdi, i ≠ .jtagVendorPrivate code tdi) ∨ s.dev.is R.SEC_DEBUG_unlocked = false) :
    AnswersBoth s (exec i s) := by
  cases hmeter : i.ofMeter with
  | false => exact (exec_answersDev hmeter h).both
  | true =>
    obtain ⟨d, m, hd, -⟩ := exec_meterStep (s := s) hmeter
    exact ⟨d, m, hd⟩

/-- Settles O48. -/
theorem everyCommandAnswers : Obligations.EveryCommandAnswers := by
  refine fun c s => ⟨fun h => ?_, fun code tdi hc hunlocked => hc ▸ if_pos hunlocked⟩
  obtain ⟨d, m, hd⟩ := exec_answersBoth h
  exact ⟨_, hd, rfl⟩

/-- Settles O47: `step` is a match on the queue. -/
theorem stepTakesTheFrontCommand : Obligations.StepTakesTheFrontCommand := fun _ _ _ => ⟨rfl, rfl⟩

end Sys2Proof.Machine
end

section
/-! SUPPORT. A FATAL event and its end (R9, R500), the reset state (R521), and the registers of a die held in reset
(R522). -/

namespace Sys2Proof.Machine

/-! ### FATAL -/

/-- A command of the plan or of drift is `active`, on whichever die. -/
theorem exec_planOrDrift {i : Instr} (h : i.planOrDrift = true) (s : State) : ∃ die f, exec i s = active die f s := by
  cases i with
  | tideMark | regionWake | tideStart | planTick | tideEnd | holdTick | crossingArrival | landingGraceExpiry
  | tideDeadlineExpiry | holdLimitExpiry | armedStart | clear | mac | wload | wswap | drain | add | sub | mul | fma
  | max | min | exp2 | log2 | rcp | rsqrt | cvt | ld | st | rdacc | cmp | topk | sample | reduce | start | step
  | setpos | gather | scatter | csend | bsend | xsend | xrecv | lsend | land | lread | loopf | loopb | jmp | planEnd
  | dload | dbase | cntsrc | cntld | cntset | pcix | plog | pvec | pcnt | macContribution | wloadComplete
  | vectorResult | stWrite | transferDelivery | ringPageFill | slipPeriod | hbmReadArrival | hbmWriteAccept
  | istEntryArrival | read | write | readResp | writeAck | bounce | relay | mgmtReq | mgmtResp | driftForward
  | driftReqTimeout | launchStart | launchSend | launchRecord | launchAck | launchWaitExpiry | launchHostWaitExpiry
  | routerCrcFail =>
    exact ⟨_, _, rfl⟩
  | _ => exact absurd h Bool.false_ne_true

theorem fatal_foldl {α : Type} {f : Dev → α → Dev} (h : ∀ d x, (f d x).fatal = d.fatal) (d : Dev) (l : List α) :
    (l.foldl f d).fatal = d.fatal := by
  induction l generalizing d with
  | nil => rfl
  | cons x l ih => exact (ih (f d x)).trans (h d x)

/-- The reset of a core domain ends what a FATAL event stopped. -/
theorem fatal_coreReset (die : Nat) (d : Dev) : (coreReset die d).fatal = false := by
  have hset (f g : Fld) (v : Nat) (e : Dev) :
      (if die = 0 then e.set f 0 v else e.set g 0 v).fatal = e.fatal := by split <;> rfl
  have hstopped (r v : Nat) (e : Dev) :
      (showLimits r ((e.set R.CLK_REGION_STATUS_f_now r v).set R.CLK_REGION_STATUS_stretch r v)).fatal = e.fatal := rfl
  have hlost (e : Dev) : (if die = 0 then loseHeadland e else loseEstuary e).fatal = e.fatal := by split <;> rfl
  rw [coreReset, hset, fatal_foldl (fun e k => hstopped (8 * die + k) 0 e), hlost]

/-- Settles O59: FATAL stops what is `active`, and RESET_CORES ends with the reset of Estuary's domain. -/
theorem fatalHoldsPlanAndDrift : Obligations.FatalHoldsPlanAndDrift := by
  refine ⟨fun i s hkind hfatal => ?_, fun s t => ⟨execResetCores t s.dev, becomes_of_settled rfl, fatal_coreReset 1 _⟩⟩
  obtain ⟨die, f, hf⟩ := exec_planOrDrift hkind s
  exact hf.trans (active_fatal hfatal)

/-! ### Reset -/

theorem inv_reset : State.reset.meter.Inv where
  customers := rfl
  tenants := rfl
  copies := nofun
  size := Nat.zero_le _
  sound := nofun
  chain := nofun
  sealFlag := nofun
  timebaseFlag := nofun
  overrangeFlag := fun hover => absurd rfl hover
  banks := by decide

/-- Settles O50: no field and no byte is listed in the reset state, so that each reads its default. -/
theorem resetHoldsResetValues : Obligations.ResetHoldsResetValues :=
  ⟨rfl, fun _ _ => rfl, rfl, rfl, rfl, rfl, rfl, rfl, rfl, rfl, rfl, rfl, fun _ => rfl, fun _ => rfl, wf_reset, inv_reset⟩

/-! ### Registers of a held die -/

section
variable {d : Dev} {w : RegWord} {i : Nat}

theorem coreUp_headland (d : Dev) : d.coreUp 0 = d.is R.DEV_STATUS_core_h := rfl

theorem coreUp_estuary (d : Dev) : d.coreUp 1 = d.is R.DEV_STATUS_core_e := rfl

theorem regHeld_of_die {die : Nat} (hdie : w.die i = some die) (hheld : d.coreUp die = false) : d.regHeld w i = true := by
  simp only [Dev.regHeld, hdie, hheld, Bool.not_false]

theorem readReg_held (hheld : d.regHeld w i = true) (bar2 : Bool) : d.readReg bar2 w i = 0 :=
  if_pos (.inr (.inl hheld))

theorem writeReg_held (hheld : d.regHeld w i = true) (hpresent : d.absentReg w.word i = false) (p : RegPart) (q v : Nat)
    (t : Time) : writeReg w i p q v t d = d := by
  rw [writeReg, if_neg (Bool.eq_false_iff.mp hpresent)]
  exact if_pos (.inl hheld)

end

/-- Settles O60: a register of a held die is held itself, and DEV_STATUS is what `coreUp` reads. -/
theorem heldRegistersReadZero : Obligations.HeldRegistersReadZero := by
  intro d w i die hdie _ hdown
  have hheld : d.regHeld w i = true := regHeld_of_die hdie hdown
  refine ⟨readReg_held hheld false, readReg_held hheld true, fun hzero => ?headland, fun hone => ?estuary,
    writeReg_held hheld⟩
  case headland => exact (coreUp_headland d).symm.trans (hzero ▸ hdown)
  case estuary => exact (coreUp_estuary d).symm.trans (hone ▸ hdown)

end Sys2Proof.Machine
end

section
/-! SUPPORT. The board sideband's commands (R420, R422, R476), case by case: they touch the sideband's state alone. -/

namespace Sys2Proof.Machine

section
variable {s : State}

theorem execSetdasa_static {d : Dev} {a : BitVec 7} (haddress : a.toNat = d.i3cStatic) (dyn : BitVec 7) :
    execSetdasa a dyn d = d.modSide (fun x => { x with dyn := some dyn }) := if_pos haddress

theorem execSetdasa_other {d : Dev} {a : BitVec 7} (haddress : a.toNat ≠ d.i3cStatic) (dyn : BitVec 7) :
    execSetdasa a dyn d = d := if_neg haddress

theorem exec_setdasa (a dyn : BitVec 7) :
    exec (.setdasa a dyn) s = .next { s with dev := execSetdasa a dyn s.dev } := lift_next _ s

/-- A vendor's own JTAG instruction is a BYPASS while debug is locked. -/
theorem exec_jtagVendorPrivate_locked (hlocked : s.dev.is R.SEC_DEBUG_unlocked = false) (code : BitVec 8)
    (tdi : List Bool) :
    exec (.jtagVendorPrivate code tdi) s = .next { s with dev := throughBypass .bypass tdi s.dev } :=
  if_neg (Bool.eq_false_iff.mp hlocked)

end

/-- Settles O35: each command is a `lift` of its function, which changes the sideband's state. -/
theorem sidebandCommandsComplete : Obligations.SidebandCommandsComplete := by
  refine fun s => ⟨fun a n => lift_next _ s, fun a bs => lift_next _ s,
    fun a dyn => ⟨fun haddress => ?static, fun haddress => ?other⟩, fun dyn => lift_next _ s, fun tdi => lift_next _ s,
    lift_next _ s, fun pins tdi => lift_next _ s, fun pins tdi => lift_next _ s, fun tdi => lift_next _ s,
    fun tdi => lift_next _ s, fun code tdi hlocked => ?locked⟩
  case static =>
    rw [exec_setdasa, execSetdasa_static haddress]
    rfl
  case other => rw [exec_setdasa, execSetdasa_other haddress]
  case locked => exact exec_jtagVendorPrivate_locked hlocked code tdi

end Sys2Proof.Machine
end

section
/-! SUPPORT. The sealed meter's own commands (R485 to R493), case by case. -/

namespace Sys2Proof.Machine

/-! ### What a powered meter asks -/

theorem MeterBecomes.trans {i : Instr} {s : State} {m n : MeterSt} (h : MeterBecomes i s m) (hmn : m = n) :
    MeterBecomes i s n := hmn ▸ h

theorem whenPowered_on {f : MeterSt → MeterSt} {m : MeterSt} (hpowered : m.powered = true) : whenPowered f m = f m :=
  if_pos hpowered

/-- A command of the meter that acts while it is powered. -/
theorem meterBecomes_of_powered {i : Instr} {s : State} {f : MeterSt → MeterSt} (hpowered : s.meter.powered = true)
    (harm : exec i s = liftMeter (whenPowered f) s) : MeterBecomes i s (f s.meter) :=
  (harm.trans (liftMeter_next _ s)).trans (by rw [whenPowered_on hpowered])

section
variable {s : State} (hpowered : s.meter.powered = true)
include hpowered

theorem meterBecomes_meterSupplyWarning (t : Time) : MeterBecomes (.meterSupplyWarning t) s
    { s.meter with powered := false, seconds := s.meter.secondsNow t, secondsAt := t } :=
  (liftMeter_next (execMeterSupplyWarning t) s).trans (by rw [execMeterSupplyWarning, if_pos hpowered])

theorem meterBecomes_readRecord (n : Word) : MeterBecomes (.readRecord n) s (execReadRecord n.toNat s.meter) :=
  meterBecomes_of_powered hpowered rfl

theorem meterBecomes_readCustomerSnapshot (n : Word) :
    MeterBecomes (.readCustomerSnapshot n) s (execReadCustomerSnapshot n.toNat s.meter) :=
  meterBecomes_of_powered hpowered rfl

theorem meterBecomes_writeParameterSet (set : List Byte) :
    MeterBecomes (.writeParameterSet set) s (execWriteParameterSet set s.meter) :=
  meterBecomes_of_powered hpowered rfl

theorem meterBecomes_setMeterSeconds (v : Word) (t : Time) :
    MeterBecomes (.setMeterSeconds v t) s (execSetMeterSeconds v.toNat t s.meter) :=
  meterBecomes_of_powered hpowered rfl

end

/-! ### READ_RECORD and READ_CUSTOMER_SNAPSHOT -/

section
variable {m : MeterSt} {n : Nat}

theorem execReadRecord_held {r : MeterRecord} (hr : m.store.find? (fun r => r.number = n) = some r) :
    execReadRecord n m = sendPort r.bytes m := by simp only [execReadRecord, hr]

theorem execReadRecord_unheld (hr : m.store.find? (fun r => r.number = n) = none) :
    execReadRecord n m = sendPort [] m := by simp only [execReadRecord, hr]

theorem execReadCustomerSnapshot_held {r : MeterRecord} (hr : m.store.find? (fun r => r.number = n) = some r) :
    execReadCustomerSnapshot n m = sendPort (totalsBytes 4096 r.customers) m := by
  simp only [execReadCustomerSnapshot, hr]

theorem execReadCustomerSnapshot_unheld (hr : m.store.find? (fun r => r.number = n) = none) :
    execReadCustomerSnapshot n m = sendPort [] m := by simp only [execReadCustomerSnapshot, hr]

end

/-! ### SET_METER_SECONDS -/

theorem execSetMeterSeconds_open {m : MeterSt} (hseal : m.sealOpen = true) (v : Nat) (t : Time) :
    execSetMeterSeconds v t m = sendPort [0] { m with seconds := v, secondsAt := t } := if_pos hseal

theorem execSetMeterSeconds_closed {m : MeterSt} (hseal : m.sealOpen = false) (v : Nat) (t : Time) :
    execSetMeterSeconds v t m = sendPort [1] m := if_neg (Bool.eq_false_iff.mp hseal)

/-! ### The statement -/

/-- Settles O43: each command through its own arm, with the meter powered, and the case that the premises choose. -/
theorem meterCommandsComplete : Obligations.MeterCommandsComplete := by
  refine fun s t hpowered => ⟨fun shunts volts => meterBecomes_of_powered (f := execEnergySample shunts volts) hpowered rfl,
    meterBecomes_of_powered (f := execMeterTimebaseFail) hpowered rfl,
    meterBecomes_of_powered (f := execMeterTimebaseRestore) hpowered rfl,
    meterBecomes_meterSupplyWarning hpowered t,
    meterBecomes_of_powered (f := execSealOpen) hpowered rfl,
    meterBecomes_of_powered (f := execSealClose) hpowered rfl,
    fun n => ⟨fun r hr => ⟨?record, ?snapshot⟩, fun hr => ⟨?noRecord, ?noSnapshot⟩⟩,
    meterBecomes_of_powered (f := execReadLiveTotals t) hpowered rfl,
    meterBecomes_of_powered (f := execReadCertificate) hpowered rfl,
    fun set => ⟨fun hseal => ?setClosed, fun hseal hread => ?setUnreadable,
      fun p hseal hread => ⟨fun hbanks hevents => ?setAccepted, fun hfull => ?setFull⟩⟩,
    fun v => ⟨fun hseal => ?secondsOpen, fun hseal => ?secondsClosed⟩⟩
  case record => exact (meterBecomes_readRecord hpowered n).trans (execReadRecord_held hr)
  case snapshot => exact (meterBecomes_readCustomerSnapshot hpowered n).trans (execReadCustomerSnapshot_held hr)
  case noRecord => exact (meterBecomes_readRecord hpowered n).trans (execReadRecord_unheld hr)
  case noSnapshot => exact (meterBecomes_readCustomerSnapshot hpowered n).trans (execReadCustomerSnapshot_unheld hr)
  case setClosed => exact (meterBecomes_writeParameterSet hpowered set).trans (execWriteParameterSet_closed hseal)
  case setUnreadable =>
    exact (meterBecomes_writeParameterSet hpowered set).trans (execWriteParameterSet_unreadable hseal hread)
  case setAccepted =>
    exact (meterBecomes_writeParameterSet hpowered set).trans
      (execWriteParameterSet_accepted hseal hread (not_or_intro (Nat.not_le.mpr hbanks) hevents))
  case setFull => exact (meterBecomes_writeParameterSet hpowered set).trans (execWriteParameterSet_full hseal hread hfull)
  case secondsOpen => exact (meterBecomes_setMeterSeconds hpowered v t).trans (execSetMeterSeconds_open hseal _ t)
  case secondsClosed => exact (meterBecomes_setMeterSeconds hpowered v t).trans (execSetMeterSeconds_closed hseal _ t)

end Sys2Proof.Machine
end

section
/-! SUPPORT. The token feed, the records and the mirror (R482 to R495), case by case. -/

namespace Sys2Proof.Machine

/-- A command of the device and the meter, by what its function answers. -/
theorem bothBecome_of_liftBoth {i : Instr} {s : State} {f : Dev × MeterSt → Dev × MeterSt} {x : Dev × MeterSt}
    (harm : exec i s = liftBoth f s) (hf : f (s.dev, s.meter) = x) : BothBecome i s x.1 x.2 :=
  (harm.trans (liftBoth_next f s)).trans (by rw [hf])

/-! ### FEED_COUNT_RECORD and FEED_IDLE_FRAME -/

section
variable {d : Dev} {t : Time} (flips : BitVec 192) (lost : Bool) (m : MeterSt)

/-- The device after the controller has sent a record. -/
def recordSent (r : FeedRec) (t : Time) (d : Dev) : Dev :=
  sendFrame false (some (r.customer, r.delivered, r.expired)) (countBody r) t d

theorem execFeedCountRecord_sends (hup : (d.advance t).coreUp 1 = true) {r : FeedRec} {rest : List FeedRec}
    (hframe : (d.advance t).svc.feedTx.frame = none) (hfeed : (d.advance t).svc.feed = r :: rest) :
    execFeedCountRecord flips lost t (d, m) = deliverFrame flips lost t (recordSent r t (d.advance t), m) := by
  simp only [execFeedCountRecord, hup, hframe, hfeed, not_true_eq_false, if_false]
  rfl

theorem execFeedCountRecord_sent (hup : (d.advance t).coreUp 1 = true) {f : List Byte} {c : Nat × Nat × Nat}
    (hframe : (d.advance t).svc.feedTx.frame = some f) (hcarries : (d.advance t).svc.feedTx.carries = some c)
    (hwire : (d.advance t).svc.feedTx.onWire = true) :
    execFeedCountRecord flips lost t (d, m) = deliverFrame flips lost t (d.advance t, m) := by
  simp only [execFeedCountRecord, hup, hframe, hcarries, hwire, not_true_eq_false, if_false, if_true]

theorem execFeedIdleFrame_sent (hup : (d.advance t).coreUp 1 = true)
    (hwire : (d.advance t).svc.feedTx.onWire = true) (hcarries : (d.advance t).svc.feedTx.carries = none) :
    execFeedIdleFrame flips lost t (d, m) = deliverFrame flips lost t (d.advance t, m) := if_pos ⟨hup, hwire, hcarries⟩

end

/-! ### The feed's timers, and MIRROR_STALE_TIMEOUT -/

section
variable {s : State} (hup : s.dev.coreUp 1 = true) (t : Time)
include hup

theorem becomes_feedResendTimeout : Becomes (.feedResendTimeout t) s (execFeedResendTimeout t s.dev) :=
  becomes_of_estuary rfl hup

theorem becomes_feedIdleTimer : Becomes (.feedIdleTimer t) s (execFeedIdleTimer t s.dev) := becomes_of_estuary rfl hup

theorem becomes_mirrorStaleTimeout : Becomes (.mirrorStaleTimeout t) s (execMirrorStaleTimeout t s.dev) :=
  becomes_of_estuary rfl hup

end

section
variable {d : Dev} {t : Time} (hup : (d.advance t).coreUp 1 = true)
include hup

theorem execFeedResendTimeout_due (hframe : (d.advance t).svc.feedTx.frame.isSome = true)
    (hwire : (d.advance t).svc.feedTx.onWire = false)
    (hdue : tdiff t (d.advance t).svc.feedTx.sentAt ≥ (10 * usU : Nat)) :
    execFeedResendTimeout t d = modFeed (fun x => { x with onWire := true, sentAt := t }) (d.advance t) :=
  if_pos ⟨hup, hframe, Bool.eq_false_iff.mp hwire, hdue⟩

/-- The calendar that an idle frame carries: 0 until the calendar is set. -/
def idleBody (d : Dev) : Nat := if d.is R.TIME_CALENDAR_synced then d.calSeconds else 0

theorem execFeedIdleTimer_due (hframe : (d.advance t).svc.feedTx.frame = none) (hfeed : (d.advance t).svc.feed = [])
    (hdue : tdiff t (d.advance t).svc.feedTx.idleAt ≥ (msU : Nat)) :
    execFeedIdleTimer t d = modFeed (fun x => { x with idleAt := t })
      (sendFrame true none (idleBody (d.advance t)) t (d.advance t)) :=
  if_pos ⟨hup, hframe, hfeed, hdue⟩

theorem execMirrorStaleTimeout_due (hfresh : (d.advance t).is R.METER_STATUS_stale = false)
    (hdue : tdiff t (d.advance t).mirrorAt ≥ (3 * secU : Nat)) :
    execMirrorStaleTimeout t d = ((d.advance t).set R.METER_STATUS_stale 0 1).raise E.METER_STALE :=
  if_pos ⟨hup, Bool.eq_false_iff.mp hfresh, hdue⟩

end

/-! ### The meter's own occasions -/

section
variable {d : Dev} {m : MeterSt} {t : Time}

theorem execFeedInterruption_due (hpowered : m.powered = true) (hpresent : m.absent = false)
    (hdue : tdiff t m.acceptedAt ≥ (10 * msU : Nat)) :
    execFeedInterruption t (d, m) =
      (d.advance t, { interrupt (decide ((d.advance t).get R.PWR_STATE_state = 3)) m with absent := true }) :=
  if_pos ⟨hpowered, Bool.eq_false_iff.mp hpresent, hdue⟩

theorem execRecordIntervalEnd_due (hpowered : m.powered = true)
    (hdue : m.secondsNow t ≥ m.start + m.params.period) :
    execRecordIntervalEnd t (d, m) = (d, intervalEnded t (m.absent && decide (d.get R.PWR_STATE_state = 3)) m) :=
  if_pos ⟨hpowered, hdue⟩

theorem execRecordSigned_next {x : MeterSnap} {rest : List MeterSnap} (hpowered : m.powered = true)
    (hsigning : m.signing = x :: rest) :
    let n := signRecord x { m with signing := rest }
    execRecordSigned t (d, m) = (refreshMirror t n (d.advance t), n) := by
  simp only [execRecordSigned, hsigning, hpowered, if_true]

theorem execMeterPowerRestore_off (hoff : m.powered = false) :
    let n := restoredMeter t (fun n => n.absent && decide ((d.advance t).get R.PWR_STATE_state = 3)) m
    execMeterPowerRestore t (d, m) = (refreshMirror t n (d.advance t), n) :=
  if_neg (Bool.eq_false_iff.mp hoff)

theorem refreshMirror_powered (hpowered : m.powered = true) (hup : d.coreUp 1 = true) :
    let es := mirrorEvents d m ++ List.replicate (mirrorFull d m) E.COUNTER_SATURATED
    refreshMirror t m d =
      { showBytes R.METER_CERT_cert 8192 m.cert (mirrorRecord m (showMirror t m d)) with mirrorAt := t }.raiseAll
        (es.map (fun e => (e, none, none))) :=
  if_neg (not_or_intro (not_not_intro hpowered) (not_not_intro hup))

theorem execMirrorRefresh_due (hpowered : m.powered = true) (hdue : lapsed m.refreshAt secU t = true) :
    execMirrorRefresh t (d, m) = (refreshMirror t m (d.advance t), { m with refreshAt := some t }) :=
  if_pos ⟨hpowered, hdue⟩

end

/-! ### The statement -/

/-- Settles O44: each command through its own arm and the case of its function that the premises choose. -/
theorem feedAndMirrorCommandsComplete : Obligations.FeedAndMirrorCommandsComplete := by
  refine fun s t => ⟨fun hup flips lost => ⟨fun r rest hframe hfeed => ?sends,
      fun f c hframe hcarries hwire => ?sent, fun hwire hcarries => ?idleSent⟩,
    fun hup hstill => ⟨fun hframe hwire hdue => ?resend,
      fun hframe hfeed hdue => ⟨fun hsynced => ?idleSynced, fun hunsynced => ?idleUnsynced⟩,
      fun hfresh hdue => ?stale⟩,
    fun hpowered hpresent hdue => ?interruption, fun hpowered hdue => ?intervalEnd,
    fun snap rest hpowered hsigning => ?signed, fun hoff => ?restore, fun hpowered hup hdue => ?refresh⟩
  case sends => exact bothBecome_of_liftBoth rfl (execFeedCountRecord_sends flips lost s.meter hup hframe hfeed)
  case sent => exact bothBecome_of_liftBoth rfl (execFeedCountRecord_sent flips lost s.meter hup hframe hcarries hwire)
  case idleSent => exact bothBecome_of_liftBoth rfl (execFeedIdleFrame_sent flips lost s.meter hup hwire hcarries)
  case resend => exact (becomes_feedResendTimeout hup t).trans (execFeedResendTimeout_due hstill hframe hwire hdue)
  case idleSynced =>
    refine (becomes_feedIdleTimer hup t).trans ((execFeedIdleTimer_due hstill hframe hfeed hdue).trans ?_)
    rw [idleBody, if_pos hsynced]
  case idleUnsynced =>
    refine (becomes_feedIdleTimer hup t).trans ((execFeedIdleTimer_due hstill hframe hfeed hdue).trans ?_)
    rw [idleBody, if_neg (Bool.eq_false_iff.mp hunsynced)]
  case stale => exact (becomes_mirrorStaleTimeout hup t).trans (execMirrorStaleTimeout_due hstill hfresh hdue)
  case interruption => exact bothBecome_of_liftBoth rfl (execFeedInterruption_due hpowered hpresent hdue)
  case intervalEnd => exact bothBecome_of_liftBoth rfl (execRecordIntervalEnd_due hpowered hdue)
  case signed => exact bothBecome_of_liftBoth rfl (execRecordSigned_next hpowered hsigning)
  case restore => exact bothBecome_of_liftBoth rfl (execMeterPowerRestore_off hoff)
  case refresh =>
    exact bothBecome_of_liftBoth rfl
      ((execMirrorRefresh_due hpowered hdue).trans (congrArg (·, _) (refreshMirror_powered hpowered hup)))

end Sys2Proof.Machine
end

section
/-! SUPPORT. A completion statement from the command's arm, the die that it needs, and what its function answers. -/

namespace Sys2Proof.Machine

variable {i : Instr} {s : State} {f : Dev → Dev} {e : Dev}

theorem becomes_settled (harm : exec i s = settled f s) (he : f s.dev = e) : Becomes i s e :=
  (becomes_of_settled harm).trans he

theorem becomes_estuary (harm : exec i s = estuary f s) (hup : s.dev.coreUp 1 = true) (he : f s.dev = e) :
    Becomes i s e := (becomes_of_estuary harm hup).trans he

theorem becomes_onDie {die : Nat} (harm : exec i s = onDie die f s) (hup : s.dev.coreUp die = true)
    (he : f s.dev = e) : Becomes i s e := (becomes_of_onDie harm hup).trans he

theorem becomes_active {die : Nat} (harm : exec i s = active die f s) (hup : s.dev.coreUp die = true)
    (hlive : s.dev.fatal = false) (he : f s.dev = e) : Becomes i s e := (becomes_of_active harm hup hlive).trans he

end Sys2Proof.Machine
end

section
/-! SUPPORT. The hall-time exchange, the servo and its registers (R351 to R357, Table 12.4), case by case. -/

namespace Sys2Proof.Machine

section
variable {d : Dev} {t : Time}

/-- A TIME flit queued on a link (R353). -/
def sendTime (t : Time) (d : Dev) (l : Nat) : Dev :=
  (d.modLink l (fun x => { x with timeOut := x.timeOut ++ [d.timePayload l] })).modTimeLink l
    (fun x => { x with seq := x.seq + 1, sent := x.sent ++ [(x.seq, t)] })

theorem execTimeExchangeSend_due (hdue : due (d.advance t).time.sentAt (d.advance t).exchangePeriod t = true) :
    execTimeExchangeSend t d =
      ((List.range 6).filter (fun l => (d.advance t).linkUp l)).foldl (sendTime t)
        ((d.advance t).modTime (fun x => { x with sentAt := some t })) :=
  if_neg (not_not_intro hdue)

/-- The update is the host's (R357). -/
def Dev.hostCorrects (d : Dev) : Prop := d.hosted 2 = true ∧ d.time.byItself = false

theorem correctTime_host (hhost : d.hostCorrects) : correctTime d = hostUpdate d :=
  if_pos ⟨hhost.1, Bool.eq_false_iff.mp hhost.2⟩

theorem correctTime_own (hown : ¬ d.hostCorrects) : correctTime d = ownUpdate d :=
  if_neg fun ⟨hhosted, hself⟩ => hown ⟨hhosted, Bool.eq_false_iff.mpr hself⟩

/-- The end of a servo update: the measurement is used. -/
def updateDone (d : Dev) : Dev := d.modTime (fun x => { x with theta := none, byItself := false, updateAt := some d.now })

theorem execServoUpdate_due
    (hdue : due (d.advance t).time.updateAt (125 * usU * 2 ^ (d.advance t).time.servoPeriod) t = true) :
    execServoUpdate t d =
      updateDone (freeRate (chooseSource true (correctTime (showOffset (latchTimeCtl (d.advance t)))))) :=
  if_neg (not_not_intro hdue)

theorem execTimeHostWaitExpiry_over (hhosted : (d.advance t).hosted 2 = true) (hadj : (d.advance t).time.adj = none)
    (hover : tdiff t (d.advance t).time.adjSince ≥ ((d.advance t).time.hostWait * msU : Nat)) :
    execTimeHostWaitExpiry t d =
      ((d.advance t).modTime (fun x => { x with byItself := true, adjSince := t })).raise E.HOST_WAIT_EXPIRED_TIME :=
  if_pos ⟨hhosted, hadj, hover⟩

theorem execTimeParentWrite_legal {v : Nat} (hp : bits v 0 4 < 10 ∧ bits v 4 4 < 10) :
    execTimeParentWrite v d =
      (d.set R.TIME_PARENT_primary 0 (bits v 0 4)).set R.TIME_PARENT_fallback 0 (bits v 4 4) :=
  if_neg (not_or_intro (Nat.not_le.mpr hp.1) (Nat.not_le.mpr hp.2))

theorem execTimeParentWrite_illegal {v : Nat} (hp : ¬ (bits v 0 4 < 10 ∧ bits v 4 4 < 10)) :
    execTimeParentWrite v d = d.raise E.TIME_CONFIG :=
  if_pos ((not_and_or.mp hp).imp Nat.not_lt.mp Nat.not_lt.mp)

theorem execTimeLinkLoss_unusable {l : Nat} (hlost : (d.advance t).usable (l + 1) = false) :
    execTimeLinkLoss l t d = chooseSource false (d.advance t) := if_neg (Bool.eq_false_iff.mp hlost)

end

/-- Settles O30: each command through its own arm and the case of its function that the premises choose. -/
theorem hallTimeCommandsComplete : Obligations.HallTimeCommandsComplete := by
  refine fun s t hup => ⟨fun hdue => ?send, fun l h bs arrival hlink hhears => ?flit,
    fun hdue => ⟨fun hhost => ?host, fun hown => ?own⟩, fun v => ?adjust, fun hhosted hadj hover => ?wait,
    fun v => ⟨fun hp => ?legal, fun hp => ?illegal⟩, fun l hlost => ?loss⟩
  case send => exact becomes_estuary rfl hup (execTimeExchangeSend_due hdue)
  case flit => exact becomes_onDie rfl hlink (unsequenced_heard hhears h _)
  case host =>
    refine becomes_estuary rfl hup ((execServoUpdate_due hdue).trans ?_)
    rw [correctTime_host hhost, updateDone]
  case own =>
    refine becomes_estuary rfl hup ((execServoUpdate_due hdue).trans ?_)
    rw [correctTime_own hown, updateDone]
  case adjust => exact becomes_estuary rfl hup rfl
  case wait => exact becomes_estuary rfl hup (execTimeHostWaitExpiry_over hhosted hadj hover)
  case legal => exact becomes_estuary rfl hup (execTimeParentWrite_legal hp)
  case illegal => exact becomes_estuary rfl hup (execTimeParentWrite_illegal hp)
  case loss => exact becomes_estuary rfl hup (execTimeLinkLoss_unusable hlost)

end Sys2Proof.Machine
end

section
/-! SUPPORT. PTP, PPS, capture, pulses and the calendar (R360 to R366), case by case. -/

namespace Sys2Proof.Machine

/-! ### PTP -/

section
variable {d : Dev} {t : Time} {q : Nat} {m : PtpHead} (htakes : (d.advance t).ptpTakes q m = true) (origin : PtpTime)
include htakes

theorem execPtpSync_twoStep (arrival : Time) :
    execPtpSync q m true origin arrival t d = (d.advance t).modPtp q (fun x =>
      { x with waiting := some (m.seq, arrival, corrUnits m.correction) }) := by
  simp only [execPtpSync, htakes, not_true_eq_false, if_false, if_true]

theorem execPtpSync_oneStep (arrival : Time) :
    execPtpSync q m false origin arrival t d = ptpMeasure q ((d.advance t).modPtp q (fun x =>
      { x with sync := some ((d.advance t).ptpUnits origin + corrUnits m.correction, (arrival.toNat : Int)) })) := by
  simp only [execPtpSync, htakes, not_true_eq_false, if_false, Bool.false_eq_true]

theorem execPtpFollowUp_awaited {arrival : Time} {c : Int}
    (hwaiting : ((d.advance t).ptp q).waiting = some (m.seq, arrival, c)) :
    execPtpFollowUp q m origin t d = ptpMeasure q ((d.advance t).modPtp q (fun x =>
      { x with
        waiting := none,
        sync := some ((d.advance t).ptpUnits origin + c + corrUnits m.correction, (arrival.toNat : Int)) })) := by
  simp only [execPtpFollowUp, hwaiting, htakes, and_self, if_true]

theorem execPtpDelayResp_asked {t3 : Time} {t1 t2 : Int} (hreq : ((d.advance t).ptp q).req = some (m.seq, t3))
    (hsync : ((d.advance t).ptp q).sync = some (t1, t2)) :
    execPtpDelayResp q m origin t d = ptpMeasure q ((d.advance t).modPtp q (fun x =>
      { x with
        req := none,
        delay := some (((t2 - t1) +
          ((d.advance t).ptpUnits origin - corrUnits m.correction - (t3.toNat : Int))) / 2) })) := by
  simp only [execPtpDelayResp, hreq, hsync, htakes, and_self, if_true]

end

section
variable {d : Dev} {t : Time} {q : Nat}

/-- A listening port that follows no grandmaster takes the one that announces itself (R360). -/
def adoptMaster (q : Nat) (m : PtpHead) (d : Dev) : Dev :=
  if (d.quayUp q = true ∧ d.get R.TIME_PTP_gm_identity q = 0 ∧ (d.ptp q).gm = none) ∧
      d.is R.TIME_PTP_enable q = true ∧ m.domain.toNat = d.get R.TIME_PTP_domain q ∧
      m.udp = d.is R.TIME_PTP_transport q then
    d.modPtp q (fun x => { x with gm := some m.gm }) else d

/-- An announcement restarts the announce timer, and a LOST port listens again (R362). -/
def hearAnnounce (q : Nat) (log : BitVec 8) (t : Time) (d : Dev) : Dev :=
  let e := log.toInt
  let gap := if e ≥ 0 then secU * 2 ^ e.toNat else secU / 2 ^ (-e).toNat
  let a := d.modPtp q (fun x => { x with announceAt := some t, interval := gap })
  if a.get R.TIME_PTP_state q = ptLost then
    (a.modPtp q (fun x => { x with sync := none, delay := none, waiting := none })).set R.TIME_PTP_state q ptListen
  else a

section
variable {m : PtpHead} (htakes : (adoptMaster q m (d.advance t)).ptpTakes q m = true) (utc : Nat) (log : BitVec 8)
include htakes

theorem execPtpAnnounce_utc :
    execPtpAnnounce q m true utc log t d =
      ((hearAnnounce q log t (adoptMaster q m (d.advance t))).setRw R.TIME_UTC_utc_offset 0 utc).set
        R.TIME_UTC_from_ptp 0 1 :=
  if_neg (not_not_intro htakes)

theorem execPtpAnnounce_no_utc :
    execPtpAnnounce q m false utc log t d = hearAnnounce q log t (adoptMaster q m (d.advance t)) :=
  if_neg (not_not_intro htakes)

end

theorem execPtpDelayReqSend_due (henable : (d.advance t).is R.TIME_PTP_enable q = true)
    (hport : (d.advance t).quayUp q = true)
    (hdue : due (((d.advance t).ptp q).sent.getLast?.map (·.2))
      (secU * 2 ^ (d.advance t).get R.TIME_PTP_delay_req_log q / 128) t = true) :
    execPtpDelayReqSend q t d = (d.advance t).modPtp q (fun x =>
      { x with req := some (x.seq, t), seq := x.seq + 1, sent := x.sent ++ [(x.seq, t)] }) :=
  if_pos ⟨henable, hport, hdue⟩

theorem execPtpAnnounceTimeout_over {t0 : Time} (hannounce : ((d.advance t).ptp q).announceAt = some t0)
    (hstate : (d.advance t).get R.TIME_PTP_state q = ptListen ∨ (d.advance t).get R.TIME_PTP_state q = ptTracking)
    (hover : tdiff t t0 ≥
      ((d.advance t).get R.TIME_PTP_announce_timeout q * ((d.advance t).ptp q).interval : Nat)) :
    execPtpAnnounceTimeout q t d = chooseSource false
      (((d.advance t).modPtp q (fun x => { x with gm := none })).set R.TIME_PTP_state q ptLost) := by
  simp only [execPtpAnnounceTimeout, hannounce]
  exact if_pos ⟨hstate, hover⟩

end

/-! ### PPS -/

section
variable {d : Dev} {t : Time}

/-- The PPS edge noted. -/
def notePps (t : Time) (d : Dev) : Dev := d.modTime (fun x => { x with ppsAt := some t })

/-- The signed distance of a time from the nearest whole second (R363). -/
def fromSecond (t : Time) : Int :=
  if t.toNat % secU ≤ secU / 2 then (t.toNat % secU : Nat) else (t.toNat % secU : Nat) - (secU : Int)

/-- PPS is the active source. -/
def Dev.followsPps (d : Dev) : Prop := d.get R.TIME_STATUS_source = 9 ∧ d.time.lost = false

section
variable {falling : Bool} (henable : (d.advance t).is R.TIME_PPS_enable = true)
  (hedge : (d.advance t).is R.TIME_PPS_edge = falling)
include henable hedge

theorem execPpsEdge_active (hactive : (notePps t (d.advance t)).followsPps) :
    execPpsEdge falling t d =
      (notePps t (d.advance t)).modTime (fun x => { x with theta := some (fromSecond t), delay := 0 }) :=
  (if_pos ⟨henable, hedge⟩).trans (if_pos ⟨hactive.1, Bool.eq_false_iff.mp hactive.2⟩)

theorem execPpsEdge_inactive (hinactive : ¬ (notePps t (d.advance t)).followsPps) :
    execPpsEdge falling t d = chooseSource false (notePps t (d.advance t)) :=
  (if_pos ⟨henable, hedge⟩).trans
    (if_neg fun ⟨hsource, hlost⟩ => hinactive ⟨hsource, Bool.eq_false_iff.mpr hlost⟩)

end

theorem execPpsLossTimeout_unusable (hlost : (d.advance t).usable 9 = false) :
    execPpsLossTimeout t d = chooseSource false (d.advance t) := if_neg (Bool.eq_false_iff.mp hlost)

/-! ### CAPTURE_EDGE -/

/-- An edge captured at hall time `at0` (R364). -/
def captured (at0 : Time) (d : Dev) : Dev :=
  ((d.set R.TIME_CAPTURE_value 0 at0.toNat).incW R.TIME_CAPTURE_count).modTime (fun x => { x with unread := true })

section
variable {falling : Bool} (henable : (edgeTime t d).1.is R.TIME_CAPTURE_enable = true)
  (hedge : (edgeTime t d).1.is R.TIME_CAPTURE_edge = falling)
include henable hedge

theorem execCaptureEdge_first (hread : (edgeTime t d).1.time.unread = false) :
    execCaptureEdge falling t d = captured (edgeTime t d).2 (edgeTime t d).1 :=
  (if_pos ⟨henable, hedge⟩).trans (if_neg (Bool.eq_false_iff.mp hread))

theorem execCaptureEdge_overrun (hunread : (edgeTime t d).1.time.unread = true) :
    execCaptureEdge falling t d =
      ((captured (edgeTime t d).2 (edgeTime t d).1).setWc R.TIME_CAPTURE_overrun 0 1).raise E.TIME_CAPTURE_OVERRUN :=
  (if_pos ⟨henable, hedge⟩).trans (if_pos hunread)

end

/-! ### PULSE_FIRE and CALENDAR_SYNC -/

/-- A pulse given at its start (R365). -/
def pulseGiven (p : Nat) (d : Dev) : Dev :=
  d.modTime (fun x =>
    { x with pulses := x.pulses ++ [(p, tget 0 d.time.pulseAt p, d.get R.TIME_PULSE_width p)] })

section
variable {p : Nat} (harmed : (d.advance t).is R.TIME_PULSE_armed p = true)
  (hdue : tdiff t (tget 0 (d.advance t).time.pulseAt p) ≥ 0)
include harmed hdue

theorem execPulseFire_single (hperiod : (pulseGiven p (d.advance t)).get R.TIME_PULSE_period p = 0) :
    execPulseFire p t d =
      ((pulseGiven p (d.advance t)).set R.TIME_PULSE_armed p 0).clearWs R.TIME_PULSE_arm p :=
  (if_pos ⟨harmed, hdue⟩).trans (if_pos hperiod)

theorem execPulseFire_periodic (hperiod : (pulseGiven p (d.advance t)).get R.TIME_PULSE_period p ≠ 0) :
    execPulseFire p t d = (pulseGiven p (d.advance t)).modTime (fun x =>
      { x with
        pulseAt := tput 0 x.pulseAt p (tget 0 (d.advance t).time.pulseAt p +
          BitVec.ofNat 64 ((pulseGiven p (d.advance t)).get R.TIME_PULSE_period p)) }) :=
  (if_pos ⟨harmed, hdue⟩).trans (if_neg hperiod)

end

theorem execCalendarSync_due (hgood : (d.advance t).calendarGood = true)
    (hdue : due (d.advance t).time.calendarAt (3600 * secU) (d.advance t).now = true) :
    execCalendarSync t d = setCalendar (d.advance t) := if_pos ⟨hgood, hdue⟩

end

/-! ### The statement -/

/-- Settles O31: each command through its own arm and the case of its function that the premises choose. -/
theorem timeSourceCommandsComplete : Obligations.TimeSourceCommandsComplete := by
  refine fun s t hup => ⟨fun q m origin arrival htakes => ⟨?twoStep, ?oneStep, fun c hwaiting => ?followUp,
      fun t1 t2 hreq hsync => ?delayResp⟩,
    fun q m utc log htakes => ⟨?announceUtc, ?announce⟩, fun q henable hport hdue => ?delayReq,
    fun q t0 hannounce hstate hover => ?announceTimeout,
    fun falling henable hedge => ⟨fun hactive => ?ppsActive, fun hinactive => ?ppsInactive⟩, fun hlost => ?ppsLoss,
    fun falling henable hedge => ⟨fun hread => ?capture, fun hunread => ?overrun⟩, ?captureRead,
    fun p => ⟨?arm, fun harmed hdue => ⟨fun hperiod => ?fireSingle, fun hperiod => ?firePeriodic⟩⟩,
    fun hgood hdue => ?calendar⟩
  case twoStep => exact becomes_estuary rfl hup (execPtpSync_twoStep htakes origin arrival)
  case oneStep => exact becomes_estuary rfl hup (execPtpSync_oneStep htakes origin arrival)
  case followUp => exact becomes_estuary rfl hup (execPtpFollowUp_awaited htakes origin hwaiting)
  case delayResp => exact becomes_estuary rfl hup (execPtpDelayResp_asked htakes origin hreq hsync)
  case announceUtc => exact becomes_estuary rfl hup (execPtpAnnounce_utc htakes utc.toNat log)
  case announce => exact becomes_estuary rfl hup (execPtpAnnounce_no_utc htakes utc.toNat log)
  case delayReq => exact becomes_estuary rfl hup (execPtpDelayReqSend_due henable hport hdue)
  case announceTimeout => exact becomes_estuary rfl hup (execPtpAnnounceTimeout_over hannounce hstate hover)
  case ppsActive => exact becomes_estuary rfl hup (execPpsEdge_active henable hedge hactive)
  case ppsInactive => exact becomes_estuary rfl hup (execPpsEdge_inactive henable hedge hinactive)
  case ppsLoss => exact becomes_estuary rfl hup (execPpsLossTimeout_unusable hlost)
  case capture => exact becomes_estuary rfl hup (execCaptureEdge_first henable hedge hread)
  case overrun => exact becomes_estuary rfl hup (execCaptureEdge_overrun henable hedge hunread)
  case captureRead => exact becomes_estuary rfl hup rfl
  case arm => exact becomes_estuary rfl hup rfl
  case fireSingle => exact becomes_estuary rfl hup (execPulseFire_single harmed hdue hperiod)
  case firePeriodic => exact becomes_estuary rfl hup (execPulseFire_periodic harmed hdue hperiod)
  case calendar => exact becomes_estuary rfl hup (execCalendarSync_due hgood hdue)

end Sys2Proof.Machine
end

section
/-! SUPPORT. The host port (R402 to R413), case by case, and the bytes of a host write (R405). -/

namespace Sys2Proof.Machine

section
variable {d e : Dev} {t : Time}

theorem execHostLinkUp_of_down (wide fast : Bool) (hheld : (d.advance t).host.held = false)
    (hdown : (d.advance t).is R.HOST_STATUS_link_up = false) :
    execHostLinkUp wide fast t d =
      (sendPending ((((d.advance t).set R.HOST_STATUS_link_up 0 1).set R.HOST_STATUS_width 0
        (if wide then 16 else 8)).setB R.HOST_STATUS_rate 0 fast)).raise E.HOST_LINK_UP :=
  if_neg (not_or_intro (Bool.eq_false_iff.mp hheld) (Bool.eq_false_iff.mp hdown))

/-- The line of a snoop response leaves the filter (R406). -/
def dropLine (l : Nat) (d : Dev) : Dev :=
  showSnoop (d.modHost (fun h => { h with
    snoop := h.snoop.filter (fun x => !decide (x = l)),
    snoopOut := h.snoopOut.filter (fun x => !decide (x = l)) }))

/-- The data of a snoop response (R406). -/
def dirtyWrite (die a : Nat) (dirty : Option (List Byte)) (d : Dev) : Dev :=
  match dirty with
  | some bs => hbmWrite die (a / 64 * 64) (bs.take 64) d
  | none => d

/-- The cached read that waits longest for a place in the filter goes on (R406). -/
def waitingRead (d : Dev) : Dev :=
  match d.host.waitReads with
  | [] => d
  | r :: rest => cachedRead r (d.modHost (fun h => { h with waitReads := rest }))

theorem waitingRead_nil (hnone : d.host.waitReads = []) : waitingRead d = d := by
  simp only [waitingRead, hnone]

theorem waitingRead_cons {r : Nat} {rest : List Nat} (hwaits : d.host.waitReads = r :: rest) :
    waitingRead d = cachedRead r (d.modHost (fun h => { h with waitReads := rest })) := by
  simp only [waitingRead, hwaits]

theorem execBiSnoopResponse_asked {die a : Nat} (dirty : Option (List Byte))
    (hasked : (d.advance t).host.snoopOut.contains (hostLine die a) = true) :
    execBiSnoopResponse die a dirty t d =
      freePackets (fun d p => d.packetLines p)
        (waitingRead (dropLine (hostLine die a) (dirtyWrite die a dirty (d.advance t)))) :=
  if_neg (not_not_intro hasked)

theorem onHdm_mapped {a n die x : Nat} (f : Dev → Dev) (hat : d.hdmAt a n = some (die, x))
    (hup : d.coreUp die = true) (hreach : die = 0 ∨ d.isthmusUp = true) (htrained : d.bytesTrain die x n = false) :
    onHdm a n f d = f (wakeFor die x n d) := by
  simp only [onHdm, hat]
  exact (onCore_up hup).trans (if_pos ⟨hreach, Bool.eq_false_iff.mp htrained⟩)

theorem execHostMemWrite_mapped {a die x : Nat} {bs : List Byte} (hup : d.is R.HOST_STATUS_link_up = true)
    (hat : d.hdmAt a bs.length = some (die, x)) : execHostMemWrite a bs false d = hbmWrite die x bs d := by
  refine (if_neg (not_not_intro hup)).trans ?_
  simp only [hat]
  exact if_neg Bool.false_ne_true

theorem execHostMemWrite_poisoned {a die x : Nat} {bs : List Byte} (hup : d.is R.HOST_STATUS_link_up = true)
    (hat : d.hdmAt a bs.length = some (die, x)) :
    execHostMemWrite a bs true d = (d.inc C.HOST_COUNTS_poisoned).raise E.HOST_POISON := by
  refine (if_neg (not_not_intro hup)).trans ?_
  simp only [hat]
  exact if_pos trivial

theorem execHostMemRead_mapped {a die x : Nat} {us : List HbmUpset}
    (hup : (takeHbmUpsets us d).is R.HOST_STATUS_link_up = true)
    (hat : (takeHbmUpsets us d).hdmAt (a / 64 * 64) 64 = some (die, x)) :
    execHostMemRead a false us d = answerRead (hbmKey die x) (takeHbmUpsets us d) := by
  refine (if_neg (not_not_intro hup)).trans ?_
  simp only [hat]
  exact if_neg Bool.false_ne_true

theorem execHostMemRead_cached {a die x : Nat} {us : List HbmUpset}
    (hup : (takeHbmUpsets us d).is R.HOST_STATUS_link_up = true)
    (hat : (takeHbmUpsets us d).hdmAt (a / 64 * 64) 64 = some (die, x)) :
    execHostMemRead a true us d = cachedRead (hostLine die x) (takeHbmUpsets us d) := by
  refine (if_neg (not_not_intro hup)).trans ?_
  simp only [hat]
  exact if_pos trivial

theorem execHdmDecoderCommit_sized {n base : Nat} (hsize : d.hdmSize n ≠ 0) (hfree : d.host.held = false)
    (hup : d.is R.HOST_STATUS_link_up = true) :
    execHdmDecoderCommit n base d =
      ((d.set R.HOST_HDM_size n (d.hdmSize n)).set R.HOST_HDM_base n (base / 0x10000000)).set
        R.HOST_HDM_committed n 1 :=
  if_neg (not_or_intro hsize (not_or_intro (Bool.eq_false_iff.mp hfree) (not_not_intro hup)))

theorem execDoeDiscovery_up {mailbox index : Nat} (hup : d.is R.HOST_STATUS_link_up = true) :
    execDoeDiscovery mailbox index d =
      doeAnswer mailbox (leBytes 2 ((d.doeTypes mailbox).getD index (0xFFFF, 0)).1 ++
        leBytes 1 ((d.doeTypes mailbox).getD index (0xFFFF, 0)).2 ++
        leBytes 1 (if index + 1 < (d.doeTypes mailbox).length then index + 1 else 0)) d :=
  if_neg (not_not_intro hup)

theorem execCdatRead_known {n : Nat} (hup : d.is R.HOST_STATUS_link_up = true) (hn : n < 4) :
    execCdatRead n d = doeAnswer 0 (cdatEntry n) d :=
  if_neg (not_or_intro (not_not_intro hup) (Nat.not_le.mpr hn))

theorem execCxlCacheCompletion_done {use : CxlUse} {off : Nat} {bs : List Byte} (hopen : d.cacheOpen use = true) :
    execCxlCacheCompletion use off false bs d = noteCache use off false bs d :=
  (if_neg (not_not_intro hopen)).trans (if_neg Bool.false_ne_true)

theorem execCxlCacheCompletion_lost {use : CxlUse} {off : Nat} {bs : List Byte} (hopen : d.cacheOpen use = true) :
    execCxlCacheCompletion use off true bs d = cacheLost use (noteCache use off true bs d) :=
  (if_neg (not_not_intro hopen)).trans (if_pos rfl)

/-- No stack is in self-refresh outside PARK, so that a request wakes none (R449). -/
theorem wakeStack_not_parked (k : Nat) (hawake : d.powerState ≠ psPark) : wakeStack k d = d := if_neg hawake

theorem wakeFor_not_parked (die a n : Nat) (hawake : d.powerState ≠ psPark) : wakeFor die a n d = d := by
  rw [wakeFor, wakeStack_not_parked _ hawake, wakeStack_not_parked _ hawake]

/-- A block inside a block just written reads the bytes written there. -/
theorem mbytes_mwrite_inside {m : List Host.Cell} (a : Nat) (bs : List Byte) (hwf : Memory.wf m = true) {i n : Nat}
    (hfit : i + n ≤ bs.length) : mbytes (mwrite m a bs) (a + i) n = (bs.drop i).take n := by
  refine List.ext_getElem (by simp only [length_mbytes, List.length_take, List.length_drop]; omega)
    fun k hk _ => ?_
  rw [length_mbytes] at hk
  rw [getElem_mbytes, Nat.add_assoc, mget_mwrite_inside hwf (show i + k < bs.length by omega),
    List.getElem_take, List.getElem_drop]

end

/-- Settles O57: outside PARK the write wakes no stack, so that the command is `hbmWrite`, and memory is read through the
laws of `mwrite`. -/
theorem hostWritesStoreTheirBytes : Obligations.HostWritesStoreTheirBytes := by
  intro s a bs die x hup hat hcore hreach htrained hawake hwf
  refine ⟨becomes_settled rfl ?_, fun i hi => ?_, fun k hk => mget_mwrite_outside hk, wf_mwrite _ bs hwf,
    fun i n hfit => mbytes_mwrite_inside _ bs hwf hfit, rfl, rfl, rfl⟩
  · rw [onHdm_mapped _ hat hcore hreach htrained, wakeFor_not_parked _ _ _ hawake]
    exact execHostMemWrite_mapped hup hat
  · exact (mget_mwrite_inside hwf hi).trans (List.getElem_eq_getD 0)

/-- Settles O33, one case of `Host.lean` at a time. -/
theorem hostPortCommandsComplete : Obligations.HostPortCommandsComplete := by
  intro s t
  refine ⟨becomes_settled rfl rfl, becomes_settled rfl rfl, becomes_settled rfl rfl,
    fun wide fast hheld hdown => ?linkUp, fun die a dirty hasked => ⟨fun hnone => ?snoopAlone,
      fun r rest hwaits => ?snoopFrees⟩,
    fun hlink => ⟨fun a bs die x hat hcore hreach htrained hthere hup => ⟨?write, ?poison⟩,
      fun a us die x hat hcore hreach htrained hthere hup => ⟨?read, ?readCached⟩,
      fun n base hsize hfree => ?commit, fun m i => ?discovery, fun n hn => ?cdat⟩,
    fun hcore use off bs hopen => ⟨?done, ?lost⟩⟩
  case linkUp => exact becomes_settled rfl (execHostLinkUp_of_down wide fast hheld hdown)
  case snoopAlone =>
    exact becomes_settled rfl (by
      rw [thenReady, execBiSnoopResponse_asked dirty hasked]
      exact congrArg (fun x => drainRequests (onCore 1 takeReady (freePackets _ x))) (waitingRead_nil hnone))
  case snoopFrees =>
    exact becomes_settled rfl (by
      rw [thenReady, execBiSnoopResponse_asked dirty hasked]
      exact congrArg (fun x => drainRequests (onCore 1 takeReady (freePackets _ x))) (waitingRead_cons hwaits))
  case write =>
    exact becomes_settled rfl ((onHdm_mapped _ hat hcore hreach htrained).trans (execHostMemWrite_mapped hup hthere))
  case poison =>
    exact becomes_settled rfl ((onHdm_mapped _ hat hcore hreach htrained).trans (execHostMemWrite_poisoned hup hthere))
  case read =>
    exact becomes_settled rfl ((onHdm_mapped _ hat hcore hreach htrained).trans (execHostMemRead_mapped hup hthere))
  case readCached =>
    exact becomes_settled rfl ((onHdm_mapped _ hat hcore hreach htrained).trans (execHostMemRead_cached hup hthere))
  case commit => exact becomes_settled rfl (execHdmDecoderCommit_sized hsize hfree hlink)
  case discovery => exact becomes_settled rfl (execDoeDiscovery_up hlink)
  case cdat => exact becomes_settled rfl (execCdatRead_known hlink hn)
  case done => exact becomes_estuary rfl hcore (execCxlCacheCompletion_done hopen)
  case lost => exact becomes_estuary rfl hcore (execCxlCacheCompletion_lost hopen)

end Sys2Proof.Machine
end

section
/-! SUPPORT. Clock monitors, rechecks and the gating tree (R426 to R433), case by case. -/

namespace Sys2Proof.Machine

section
variable {d : Dev} {t : Time} {k : Nat}

/-- The deviation is within the source's band (Table 16.2). -/
def inBand (k : Nat) (ppm : BitVec 32) : Bool := decide (ppm.toInt.natAbs ≤ clkBand k)

/-- Bad windows of a source in a row. -/
def setOutside (k n : Nat) (d : Dev) : Dev := d.modClk (fun c => { c with outside := tput 0 c.outside k n })

/-- A source found failed: its status, its count and its event (R427). -/
def clkFailure (k : Nat) (d : Dev) : Dev :=
  (countClk k (showClk k true (setOutside k 0 d))).raise E.CLK_FAIL (if k < 3 then none else some (k - 3)) (some k)

theorem clkFail_running (hok : d.clkFailed k = false) : clkFail k d = clkConsequence k (clkFailure k d) :=
  if_neg (Bool.eq_false_iff.mp hok)

theorem execClkMonWindow_failed {ppm : BitVec 32} (hbad : (d.advance t).clkFailed k = true) :
    execClkMonWindow k ppm t d = noteRecheck k (inBand k ppm) (d.advance t) := if_pos hbad

theorem execClkMonWindow_good {ppm : BitVec 32} (hok : (d.advance t).clkFailed k = false)
    (hgood : inBand k ppm = true) : execClkMonWindow k ppm t d = setOutside k 0 (d.advance t) :=
  (if_neg (Bool.eq_false_iff.mp hok)).trans (if_pos hgood)

theorem execClkMonWindow_firstBad {ppm : BitVec 32} (hok : (d.advance t).clkFailed k = false)
    (hbad : inBand k ppm = false) (hfirst : tget 0 (d.advance t).clk.outside k = 0) :
    execClkMonWindow k ppm t d = setOutside k 1 (d.advance t) :=
  (if_neg (Bool.eq_false_iff.mp hok)).trans ((if_neg (Bool.eq_false_iff.mp hbad)).trans (if_neg (by omega)))

theorem execClkMonWindow_secondBad {ppm : BitVec 32} (hok : (d.advance t).clkFailed k = false)
    (hbad : inBand k ppm = false) (hsecond : tget 0 (d.advance t).clk.outside k ≠ 0) :
    execClkMonWindow k ppm t d = clkConsequence k (clkFailure k (d.advance t)) :=
  (if_neg (Bool.eq_false_iff.mp hok)).trans ((if_neg (Bool.eq_false_iff.mp hbad)).trans
    ((if_pos (by omega)).trans (clkFail_running hok)))

theorem execClkNoEdgeTimeout_failed (hbad : (d.advance t).clkFailed k = true) :
    execClkNoEdgeTimeout k t d = noteRecheck k false (d.advance t) := if_pos hbad

theorem execClkNoEdgeTimeout_running (hok : (d.advance t).clkFailed k = false) :
    execClkNoEdgeTimeout k t d = clkConsequence k (clkFailure k (d.advance t)) :=
  (if_neg (Bool.eq_false_iff.mp hok)).trans (clkFail_running hok)

theorem noteRecheck_good {n : Nat} (hruns : tget none d.clk.recheck k = some n) :
    noteRecheck k true d = setRecheck k (some (n + 1)) d := by
  simp only [noteRecheck, hruns, if_true]

theorem noteRecheck_bad {n : Nat} (hruns : tget none d.clk.recheck k = some n) :
    noteRecheck k false d = clkResult crFailed (setRecheck k none d) := by
  simp only [noteRecheck, hruns, Bool.false_eq_true, if_false]

theorem startRecheck_failed (hidle : d.tideIdle = true) (hbad : d.clkFailed k = true) :
    startRecheck k d = clkResult crDone (setRecheck k (some 0) d) :=
  (if_neg (not_not_intro hidle)).trans (if_pos hbad)

theorem execRecheckComplete_idle {n : Nat} (hruns : tget none (d.advance t).clk.recheck k = some n) (hfull : 100 ≤ n)
    (hidle : (d.advance t).tideIdle = true) :
    execRecheckComplete k t d = returnClk k (setRecheck k none (d.advance t)) := by
  simp only [execRecheckComplete, hruns]
  exact (if_neg (Nat.not_lt.mpr hfull)).trans (if_neg (not_not_intro hidle))

theorem execRecheckComplete_busy {n : Nat} (hruns : tget none (d.advance t).clk.recheck k = some n) (hfull : 100 ≤ n)
    (hbusy : (d.advance t).tideIdle = false) :
    execRecheckComplete k t d = clkResult crBusy (setRecheck k none (d.advance t)) := by
  simp only [execRecheckComplete, hruns]
  exact (if_neg (Nat.not_lt.mpr hfull)).trans (if_pos (Bool.eq_false_iff.mp hbusy))

theorem execGateOn_free {v : Nat} (hthere : d.gateExists (gateNode v) = true) (hfree : d.gateBusy (gateNode v) = false)
    (huntripped : d.pwr.tripped.contains (dieOf (gateNode v).region) = false) :
    execGateOn v d = clkResult crDone ((List.range ((gateNode v).level + 1)).foldl
      (fun d k => setGate { gateNode v with level := k } true d) d) :=
  (if_neg (not_not_intro hthere)).trans ((if_neg (Bool.eq_false_iff.mp hfree)).trans
    (if_neg (Bool.eq_false_iff.mp huntripped)))

theorem execGateOff_free {v : Nat} (hthere : d.gateExists (gateNode v) = true) (hfree : d.gateBusy (gateNode v) = false)
    (hleaf : d.childOn (gateNode v) = false) : execGateOff v d = clkResult crDone (setGate (gateNode v) false d) :=
  (if_neg (not_not_intro hthere)).trans ((if_neg (Bool.eq_false_iff.mp hfree)).trans
    (if_neg (Bool.eq_false_iff.mp hleaf)))

end

/-- Settles O36, one case of `Clocks.lean` at a time. -/
theorem clockCommandsComplete : Obligations.ClockCommandsComplete := by
  intro s t
  refine ⟨fun k ppm => ⟨fun hbad => ⟨?windowFailed, ?noEdgeFailed, fun n hruns => ⟨fun hgood => ?recheckGood,
      fun hpoor => ?recheckBad⟩⟩,
      fun hok => ⟨?noEdge, fun hgood => ?good, fun hpoor hfirst => ?firstBad, fun hpoor hsecond => ?secondBad⟩⟩,
    fun k hidle hbad => ⟨fun hsource => ?recheck, fun hregion => ?relock⟩,
    fun k n hruns hfull => ⟨fun hidle => ?complete, fun hbusy => ?busy⟩,
    fun v hthere hfree => ⟨fun huntripped => ?gateOn, fun hleaf => ?gateOff⟩⟩
  case windowFailed => exact becomes_settled rfl (execClkMonWindow_failed hbad)
  case noEdgeFailed => exact becomes_settled rfl (execClkNoEdgeTimeout_failed hbad)
  case recheckGood =>
    refine becomes_settled rfl ((execClkMonWindow_failed hbad).trans ?_)
    rw [show inBand k.val ppm = true from hgood, noteRecheck_good hruns]
  case recheckBad =>
    refine becomes_settled rfl ((execClkMonWindow_failed hbad).trans ?_)
    rw [show inBand k.val ppm = false from hpoor, noteRecheck_bad hruns]
  case noEdge => exact becomes_settled rfl (execClkNoEdgeTimeout_running hok)
  case good => exact becomes_settled rfl (execClkMonWindow_good hok hgood)
  case firstBad => exact becomes_settled rfl (execClkMonWindow_firstBad hok hpoor hfirst)
  case secondBad => exact becomes_settled rfl (execClkMonWindow_secondBad hok hpoor hsecond)
  case recheck =>
    have hnumber : (BitVec.ofNat 5 k.val).toNat = k.val := Nat.mod_eq_of_lt (by omega)
    refine becomes_settled rfl ?_
    rw [hnumber]
    exact (if_pos hsource).trans (startRecheck_failed hidle hbad)
  case relock =>
    have hnumber : (BitVec.ofNat 5 (k.val - 3)).toNat = k.val - 3 := Nat.mod_eq_of_lt (by omega)
    have hsource : 3 + (k.val - 3) = k.val := by omega
    refine becomes_settled rfl ?_
    rw [hnumber]
    refine (if_pos (by omega : k.val - 3 < 16)).trans ?_
    rw [hsource]
    exact startRecheck_failed hidle hbad
  case complete => exact becomes_settled rfl (execRecheckComplete_idle hruns hfull hidle)
  case busy => exact becomes_settled rfl (execRecheckComplete_busy hruns hfull hbusy)
  case gateOn => exact becomes_settled rfl (execGateOn_free hthere hfree huntripped)
  case gateOff => exact becomes_settled rfl (execGateOff_free hthere hfree hleaf)

end Sys2Proof.Machine
end

section
/-! SUPPORT. The stretch of a region's clock at a droop (R437): what it is over a canonical table of regions, and a table
over which it is not what the statement says. -/

namespace Sys2Proof.Machine

/-- A region's level of droop as the gauge last read it. -/
def setDroop (r level : Nat) (d : Dev) : Dev := d.modRegClk r (fun c => { c with droop := level })

/-- Over a table of regions with rising keys the stretch is that of the level just stored, as
`Obligations.RegionLimitCommandsComplete` says. -/
theorem showStretch_setDroop_of_rising {d : Dev} {r level : Nat} (hrise : rising d.clk.regs = true)
    (hup : d.coreUp (dieOf r) = true) :
    showStretch (setDroop r level d) r = (setDroop r level d).set R.CLK_REGION_STATUS_stretch r
      (Nat.max level ((setDroop r level d).dipStretch (dieOf r))) := by
  have hdroop : ((setDroop r level d).regClk r).droop = level :=
    congrArg RegClkSt.droop (tget_tput_same_rising r hrise)
  rw [showStretch, if_pos (show (setDroop r level d).coreUp (dieOf r) = true from hup), hdroop]

/-- Headland is out of reset; the table of regions lists region 1 before region 0, whose droop stands at level 2 and
whose other fields hold nothing. -/
def State.regionsOutOfOrder : State :=
  let d := State.reset.dev.set R.DEV_STATUS_core_h 0 1
  { State.reset with dev := d.modClk (fun c => { c with regs := [(1, { droop := 1 }), (0, { droop := 2 })] }) }

/-- Refutes O37: its clause for DROOP_STRETCH takes the stretch from the level just read, where the command takes it from
the table of regions. A reading of 1,023 mV is no droop, so that region 0 holds nothing any more and a canonical table
would not list it; in a table that lists region 1 first, which no canonical table does, its old entry stays, so that
the region still shows level 2 where the statement says 0. -/
theorem not_regionLimitCommandsComplete : ¬ Obligations.RegionLimitCommandsComplete := by
  intro h
  obtain ⟨_, hdroop, _⟩ := h State.regionsOutOfOrder 0
  have hstated := (hdroop 0 1023 0 (by decide)).2 (by decide)
  have hmade : Becomes (.droopStretch 0 1023 0 0) State.regionsOutOfOrder
      (execDroopStretch 0 1023 0 0 State.regionsOutOfOrder.dev) := becomes_settled rfl rfl
  have hshown := congrArg (fun d => d.get R.CLK_REGION_STATUS_stretch 0) (hmade.after_eq hstated)
  exact absurd hshown (by decide +kernel)

end Sys2Proof.Machine
end

section
/-! SUPPORT. Setpoints, dips, supply resets and the release of a core domain (R421, R441 to R444, R536), case by case. -/

namespace Sys2Proof.Machine

section
variable {d : Dev} {t : Time} {die mv : Nat}

/-- The device with a rail's voltage as measured. -/
def measured (die mv : Nat) (t : Time) (d : Dev) : Dev := (d.advance t).set R.PWR_RAIL_measured die mv

theorem execAvsConfirm_waiting (hwrite : tget none (d.advance t).pwr.avs die = some mv) :
    execAvsConfirm die t d = ((d.advance t).set R.PWR_RAIL_confirmed die mv).modPwr (fun p =>
      { p with avs := tput none p.avs die none }) := by
  simp only [execAvsConfirm, hwrite]

theorem execAvsFault_waiting (hwrite : tget none (d.advance t).pwr.avs die = some mv) :
    execAvsFault die t d = ((d.advance t).modPwr (fun p =>
      { p with avs := tput none p.avs die none })).raise E.AVS_FAULT none (some die) := by
  simp only [execAvsFault, hwrite]

theorem execDipBegin_filtered {fell : Time} (hlow : (measured die mv t d).railBelow die mv 94 = true)
    (hnone : tget none (measured die mv t d).pwr.dips die = none) (hlong : tdiff t fell ≥ (50 * nsU : Nat)) :
    execDipBegin die mv fell t d = setDip die (some { since := fell, low := mv }) (measured die mv t d) :=
  if_pos ⟨hlow, Option.isNone_iff_eq_none.mpr hnone, decide_eq_true hlong⟩

/-- The end of a dip that reached no reset: what is recorded of it (R443). -/
def recordDip (die low ns : Nat) (d : Dev) : Dev :=
  let f := ((setDip die none d).set R.PWR_DIP_min_mv die low).set R.PWR_DIP_duration die (Nat.min (2 ^ 22 - 1) ns)
  (((f.inc C.PWR_DIP_dips die).lifeTotal totDips).raise E.SUPPLY_DIP none (some die)).lifeAdd
    ⟨0x02, leBytes 1 die ++ leBytes 2 low ++ leBytes 4 ns⟩

theorem execDipEnd_reset {low : Nat} {x : DipSt} (hdip : tget none (measured die mv t d).pwr.dips die = some x)
    (hclear : (measured die mv t d).railClear die mv = true) (hreset : x.reset = true) :
    execDipEnd die low mv t d = setDip die none (measured die mv t d) := by
  change (match tget none (measured die mv t d).pwr.dips die with | none => _ | some x => _) = _
  rw [hdip]
  exact (if_neg (not_not_intro hclear)).trans (if_pos hreset)

theorem execDipEnd_recorded {low : Nat} {x : DipSt} (hdip : tget none (measured die mv t d).pwr.dips die = some x)
    (hclear : (measured die mv t d).railClear die mv = true) (hreset : x.reset = false) :
    execDipEnd die low mv t d =
      recordDip die (Nat.min low x.low) ((tdiff t x.since).toNat / nsU) (measured die mv t d) := by
  change (match tget none (measured die mv t d).pwr.dips die with | none => _ | some x => _) = _
  rw [hdip]
  exact (if_neg (not_not_intro hclear)).trans (if_neg (Bool.eq_false_iff.mp hreset))

/-- A supply reset up to the stop of the plan (R444). -/
def supplyFallen (die : Nat) (x : DipSt) (d : Dev) : Dev :=
  { (coreReset die ((setDip die (some { x with reset := true }) d).inc C.PWR_DIP_resets die)).raise E.SUPPLY_RESET none
      (some die) with fatal := false }

/-- The life log's part of a supply reset (R444). -/
def logSupplyReset (die : Nat) (d : Dev) : Dev := ((d.lifeTotal totResets).lifeAdd ⟨0x03, leBytes 1 die⟩).lifeFlush

theorem execSupplyReset_low (hlow : (measured die mv t d).railBelow die mv 88 = true)
    (hup : (measured die mv t d).coreUp die = true) :
    execSupplyReset die mv t d =
      let e := measured die mv t d
      let g := supplyFallen die ((tget none e.pwr.dips die).getD { since := t, low := mv }) e
      logSupplyReset die
        (if die = 0 then (if e.planHeld then g.planFault E.SUPPLY_RESET none else g) else g.stopPlan) :=
  if_neg (not_or_intro (not_not_intro hlow) (not_not_intro hup))

theorem execCoreResetRelease_clear (hdown : (measured die mv t d).coreUp die = false)
    (hclear : (measured die mv t d).railClear die mv = true)
    (hpower : ¬ ((measured die mv t d).powerState = psDormant ∧ (measured die mv t d).pwr.boot = false)) :
    execCoreResetRelease die mv t d = bootAlone die (leaveReset die (measured die mv t d)) :=
  if_neg (not_or_intro (Bool.eq_false_iff.mp hdown) (not_or_intro (not_not_intro hclear)
    fun ⟨hdormant, hboot⟩ => hpower ⟨hdormant, Bool.eq_false_iff.mpr hboot⟩))

theorem bootAlone_booting (hboot : d.pwr.boot = true) : bootAlone die d = d := if_pos hboot

theorem bootAlone_estuary (hboot : d.pwr.boot = false) (hdie : die = 1) : bootAlone die d = bootStages d :=
  (if_neg (Bool.eq_false_iff.mp hboot)).trans (if_neg (by omega))

theorem bootAlone_headland (hboot : d.pwr.boot = false) (hdie : die = 0) (hup : d.coreUp 1 = true)
    (hbooted : d.sec.toBoot.contains 1 = false) : bootAlone die d = bootOn [0] false d :=
  (if_neg (Bool.eq_false_iff.mp hboot)).trans ((if_pos hdie).trans (if_pos ⟨hup, Bool.eq_false_iff.mp hbooted⟩))

theorem bootAlone_headland_waits (hboot : d.pwr.boot = false) (hdie : die = 0)
    (hwaits : ¬ (d.coreUp 1 = true ∧ d.sec.toBoot.contains 1 = false)) : bootAlone die d = d :=
  (if_neg (Bool.eq_false_iff.mp hboot)).trans ((if_pos hdie).trans
    (if_neg fun ⟨hup, hbooted⟩ => hwaits ⟨hup, Bool.eq_false_iff.mpr hbooted⟩))

end

/-- Settles O38, one case of `Power.lean` and of a release of reset at a time. -/
theorem supplyCommandsComplete : Obligations.SupplyCommandsComplete := by
  intro s t k
  refine ⟨fun v => becomes_settled rfl rfl, fun mv hwrite => ⟨?confirm, ?fault⟩,
    fun mv => ⟨fun fell hlow hnone hlong => ?dipBegin,
      fun low x hdip hclear => ⟨fun hreset => ?dipReset, fun hreset => ?dipRecorded⟩,
      fun hlow hup => ⟨fun hk hheld => ?stopsHeadland, fun hk hheld => ?noPlan, fun hk => ?stopsEstuary⟩,
      fun hdown hclear hpower => ⟨fun hboot => ?booting, fun hboot hk => ?estuary, fun hboot hk hup hbooted => ?headland,
        fun hboot hk hwaits => ?headlandWaits⟩⟩⟩
  case confirm => exact becomes_settled rfl (execAvsConfirm_waiting hwrite)
  case fault => exact becomes_settled rfl (execAvsFault_waiting hwrite)
  case dipBegin => exact becomes_settled rfl (execDipBegin_filtered hlow hnone hlong)
  case dipReset => exact becomes_settled rfl (execDipEnd_reset hdip hclear hreset)
  case dipRecorded =>
    refine becomes_settled rfl ((execDipEnd_recorded hdip hclear hreset).trans ?_)
    rw [recordDip, measured]
  case stopsHeadland =>
    exact becomes_settled rfl ((execSupplyReset_low hlow hup).trans
      (congrArg (logSupplyReset k.val) ((if_pos hk).trans (if_pos hheld))))
  case noPlan =>
    exact becomes_settled rfl ((execSupplyReset_low hlow hup).trans
      (congrArg (logSupplyReset k.val) ((if_pos hk).trans (if_neg (Bool.eq_false_iff.mp hheld)))))
  case stopsEstuary =>
    exact becomes_settled rfl ((execSupplyReset_low hlow hup).trans
      (congrArg (logSupplyReset k.val) (if_neg (by omega))))
  case booting =>
    exact becomes_settled rfl ((execCoreResetRelease_clear hdown hclear hpower).trans (bootAlone_booting hboot))
  case estuary =>
    exact becomes_settled rfl ((execCoreResetRelease_clear hdown hclear hpower).trans (bootAlone_estuary hboot hk))
  case headland =>
    exact becomes_settled rfl
      ((execCoreResetRelease_clear hdown hclear hpower).trans (bootAlone_headland hboot hk hup hbooted))
  case headlandWaits =>
    exact becomes_settled rfl
      ((execCoreResetRelease_clear hdown hclear hpower).trans (bootAlone_headland_waits hboot hk hwaits))

end Sys2Proof.Machine
end

section
/-! SUPPORT. The power states and the quiesce sequence (R446 to R452, Tables 16.11 and 16.12), case by case. -/

namespace Sys2Proof.Machine

section
variable {d : Dev} {t : Time}

theorem loseGood_powered (hpower : (tearEntry (spoilBoot d)).powerState ≠ psDormant) :
    loseGood d = ((goDormant (tearEntry (spoilBoot d))).set R.PWR_STATE_state 0 psDormant).modPwr (fun p =>
      { p with wakes := true, lowSince := some (tearEntry (spoilBoot d)).now }) := if_neg hpower

theorem execPwrCmdPark_idle (hidle : (d.advance t).powerState = psIdle) :
    execPwrCmdPark t d = (enterPark (d.advance t)).modPwr (fun p => { p with byCommand := true }) := if_pos hidle

theorem execPwrCmdIdle_parked (hpark : (d.advance t).powerState = psPark) (hcommand : (d.advance t).pwr.byCommand = true)
    (hpin : (d.advance t).pwr.quiesceN = false) :
    execPwrCmdIdle t d = setPower psIdle (releaseFerry (leavePark (d.advance t))) :=
  if_pos ⟨hpark, hcommand, Bool.eq_false_iff.mp hpin⟩

theorem execPwrCmdDormant_awake (hstate : (d.advance t).powerState = psIdle ∨ (d.advance t).powerState = psPark) :
    execPwrCmdDormant t d = (goDormant (setPower psDormant (d.advance t))).modPwr (fun p => { p with wakes := false }) :=
  if_pos hstate

/-- PWR_GOOD is there again, and the pin is asserted or released. -/
def powerIsGood (t : Time) (d : Dev) : Dev := (d.advance t).set R.PWR_STATE_pwr_good 0 1
def quiescePin (v : Nat) (t : Time) (d : Dev) : Dev := (d.advance t).set R.PWR_STATE_quiesce 0 v

theorem execPwrGoodAssert_wakes (hdormant : (powerIsGood t d).powerState = psDormant)
    (hwakes : (powerIsGood t d).pwr.wakes = true) (hlong : lapsed (powerIsGood t d).pwr.lowSince usU t = true)
    (hoff : (powerIsGood t d).pwr.boot = false) :
    execPwrGoodAssert t d =
      let f := (powerIsGood t d).modPwr (fun p => { p with lowSince := none, wakes := false, boot := true, avs := [] })
      let g := f.set R.PWR_RAIL_confirmed 0 (f.get R.PWR_RAIL_setpoint 0)
      hpPowerUp ((g.set R.PWR_RAIL_confirmed 1 (g.get R.PWR_RAIL_setpoint 1)).set R.SEC_BOOT_stage 0 1) :=
  if_pos ⟨hdormant, (Bool.and_eq_true _ _).mpr ⟨hwakes, hlong⟩, Bool.eq_false_iff.mp hoff⟩

theorem execQuiesceAssert_dormant (hfirst : (quiescePin 1 t d).pwr.quiesceN = false)
    (hdormant : (quiescePin 1 t d).powerState = psDormant) :
    execQuiesceAssert t d = (quiescePin 1 t d).modPwr (fun p => { p with quiesceN := true }) :=
  (if_neg (Bool.eq_false_iff.mp hfirst)).trans (if_pos (Or.inl hdormant))

theorem execQuiesceAssert_begins (hfirst : (quiescePin 1 t d).pwr.quiesceN = false)
    (hpower : (quiescePin 1 t d).powerState ≠ psDormant) (hstep : (quiescePin 1 t d).pwr.quiesceStep = 0) :
    execQuiesceAssert t d = beginQuiesce ((quiescePin 1 t d).modPwr (fun p => { p with quiesceN := true })) :=
  (if_neg (Bool.eq_false_iff.mp hfirst)).trans (if_neg (not_or_intro hpower (not_not_intro hstep)))

theorem execParkEntry_flushed (hstep : (flushQuiesce (d.advance t)).pwr.quiesceStep = 2)
    (hqueue : (flushQuiesce (d.advance t)).life.queue = [])
    (hwriting : (flushQuiesce (d.advance t)).life.writing = []) :
    execParkEntry t d =
      if (flushQuiesce (d.advance t)).pwr.quiesceN then
        enterPark ((flushQuiesce (d.advance t)).modPwr (fun p => { p with quiesceStep := 3 }))
      else endQuiesce t (flushQuiesce (d.advance t)) :=
  if_pos ⟨hstep, hqueue, hwriting⟩

theorem execQuiesceRelease_held (hheld : (quiescePin 0 t d).pwr.quiesceN = true) :
    execQuiesceRelease t d =
      let f := (quiescePin 0 t d).modPwr (fun p => { p with quiesceN := false })
      if f.pwr.quiesceStep = 3 then endQuiesce t f else f :=
  if_neg (not_not_intro hheld)

theorem execHbmSelfRefreshTimeout_idle {k : Nat} (hpark : (d.advance t).powerState = psPark)
    (hactive : (d.advance t).pwr.refresh.contains k = false)
    (hlong : tdiff t (tget 0 (d.advance t).pwr.lastReq k) ≥ (100 * usU : Nat)) :
    execHbmSelfRefreshTimeout k t d = (d.advance t).modPwr (fun p => { p with refresh := p.refresh ++ [k] }) :=
  if_pos ⟨hpark, Bool.eq_false_iff.mp hactive, hlong⟩

end

/-- Settles O39, one case of `Power.lean` at a time. -/
theorem powerStateCommandsComplete : Obligations.PowerStateCommandsComplete := by
  intro s t
  refine ⟨fun hpower => ?loss, fun hpower => ?railLow, fun hdormant hwakes hlong hoff => ?wake, fun hidle => ?park,
    fun hpark hcommand hpin => ?idle, fun hstate => ?dormant,
    fun hfirst => ⟨fun hdormant => ?pinDormant, fun hpower hstep => ?quiesce⟩,
    fun hstep hqueue hwriting => ⟨fun hpin => ?parkEntry, fun hpin => ?releasedMeanwhile⟩,
    fun hheld => ⟨fun hstep => ?ends, fun hstep => ?endsLater⟩, fun k hpark hactive hlong => ?refresh⟩
  case loss => exact becomes_settled rfl (loseGood_powered hpower)
  case railLow => exact becomes_settled rfl (loseGood_powered hpower)
  case wake => exact becomes_settled rfl (execPwrGoodAssert_wakes hdormant hwakes hlong hoff)
  case park => exact becomes_settled rfl (execPwrCmdPark_idle hidle)
  case idle => exact becomes_settled rfl (execPwrCmdIdle_parked hpark hcommand hpin)
  case dormant => exact becomes_settled rfl (execPwrCmdDormant_awake hstate)
  case pinDormant => exact becomes_settled rfl (execQuiesceAssert_dormant hfirst hdormant)
  case quiesce => exact becomes_settled rfl (execQuiesceAssert_begins hfirst hpower hstep)
  case parkEntry => exact becomes_settled rfl ((execParkEntry_flushed hstep hqueue hwriting).trans (if_pos hpin))
  case releasedMeanwhile =>
    exact becomes_settled rfl
      ((execParkEntry_flushed hstep hqueue hwriting).trans (if_neg (Bool.eq_false_iff.mp hpin)))
  case ends => exact becomes_settled rfl ((execQuiesceRelease_held hheld).trans (if_pos hstep))
  case endsLater => exact becomes_settled rfl ((execQuiesceRelease_held hheld).trans (if_neg hstep))
  case refresh => exact becomes_settled rfl (execHbmSelfRefreshTimeout_idle hpark hactive hlong)

end Sys2Proof.Machine
end

section
/-! SUPPORT. Attestation, debug unlock, security versions and model keys (R463, R471 to R476), case by case. -/

namespace Sys2Proof.Machine

section
variable {d : Dev} {t : Time} {v : Nat}

theorem execGetCerts_free (hfree : d.host.held = false) :
    execGetCerts d = doeAnswer 1 (certEntry d.vendorCert ++
      certEntry (Config.certificate 0 (leBytes 8 d.fuses.serial)) ++ certEntry (Config.certificate 1 d.attestSeed)) d :=
  if_neg (Bool.eq_false_iff.mp hfree)

theorem execQuote_free (nonce : List Byte) (hfree : d.host.held = false) :
    execQuote nonce d = doeAnswer 1 (d.quoteOf nonce ++ Config.sign 0 d.attestSeed (d.quoteOf nonce))
      (d.modSec (fun x => { x with nonce := nonce })) :=
  if_neg (Bool.eq_false_iff.mp hfree)

theorem execDebugUnlock_accepted {token : List Byte} (hfree : (d.advance t).host.held = false)
    (hok : (d.advance t).tokenOk token = true) :
    execDebugUnlock token t d =
      doeAnswer 1 (leBytes 4 0) ((lockDown (d.advance t)).set R.SEC_DEBUG_unlocked 0 1) :=
  (if_neg (Bool.eq_false_iff.mp hfree)).trans (if_pos hok)

theorem execDebugUnlock_rejected {token : List Byte} (hfree : (d.advance t).host.held = false)
    (hbad : (d.advance t).tokenOk token = false) :
    execDebugUnlock token t d = doeAnswer 1 (leBytes 4 3) (d.advance t) :=
  (if_neg (Bool.eq_false_iff.mp hfree)).trans (if_neg (Bool.eq_false_iff.mp hbad))

theorem execSvnAdvance_component {c : Nat} (hc : c ≤ 6) :
    execSvnAdvance c d =
      let v := Nat.max (d.fuses.svn.getD c 0) (d.get R.SEC_SVN_active c)
      ({ d with fuses := { d.fuses with svn := d.fuses.svn.set c v } }).set R.SEC_SVN_fused c v :=
  if_neg (Nat.not_lt.mpr hc)

theorem execKeyInstall_taken (htaken : bit (d.get R.SEC_KEY_VALID_valid) (bits v 2 6) = true) :
    execKeyInstall v d = keyResult 2 d := if_pos htaken

/-- What an install blob holds (R473): the wrapped key, the nonce, the key's ciphertext and the tag. -/
def blobSecret (d : Dev) (b : List Byte) : List Byte := Config.kemDecap d.fuses.serial ((b.drop 0).take 1568)
def blobNonce (b : List Byte) : List Byte := (b.drop 1568).take 12
def blobCipher (b : List Byte) : List Byte := (b.drop 1580).take 32
def blobTag (b : List Byte) : List Byte := (b.drop 1612).take 16

/-- The tag that a blob must hold for a key entry and a tenant. -/
def expectedTag (v : Nat) (b : List Byte) (d : Dev) : List Byte :=
  Config.gcmTag (blobSecret d b) (blobNonce b)
    (leBytes 1 (bits v 2 6) ++ leBytes 1 (bits v 8 8) ++ leBytes 3 (d.get R.DEV_ADDR_address)) (blobCipher b)

/-- The key of a blob enters the key store. -/
def storeKey (v : Nat) (b : List Byte) (d : Dev) : Dev :=
  d.modSec (fun x => { x with
    keys := tput none x.keys (bits v 2 6)
      (some (xorBytes (blobCipher b) (Config.gcmStream (blobSecret d b) (blobNonce b) 0 32))),
    tenants := tput 0 x.tenants (bits v 2 6) (bits v 8 8) })

theorem execKeyInstall_blob {b : List Byte} (hfree : bit (d.get R.SEC_KEY_VALID_valid) (bits v 2 6) = false)
    (hblob : d.keyBlob = some b) :
    execKeyInstall v d =
      if expectedTag v b d ≠ blobTag b then keyResult 1 d
      else keyResult 0 ((storeKey v b d).set R.SEC_KEY_VALID_valid 0
        (setBit ((storeKey v b d).get R.SEC_KEY_VALID_valid) (bits v 2 6) true)) := by
  refine (if_neg (Bool.eq_false_iff.mp hfree)).trans ?_
  rw [hblob]
  rfl

end

/-- Settles O40, one case of `Security.lean` at a time. -/
theorem securityCommandsComplete : Obligations.SecurityCommandsComplete := by
  intro s t
  refine ⟨fun hfree => ⟨?certs, fun nonce => ?quote⟩, fun hfree token => ⟨fun hok => ?unlock, fun hbad => ?rejected⟩,
    fun c hc => ?svn, fun hup v => ⟨?clear, fun htaken => ?taken, fun b hfree hblob => ⟨fun htag => ?install,
      fun htag => ?wrongTag⟩⟩, fun v => ⟨becomes_settled rfl rfl, fun r => becomes_settled rfl rfl⟩⟩
  case certs => exact becomes_settled rfl (execGetCerts_free hfree)
  case quote => exact becomes_settled rfl (execQuote_free nonce hfree)
  case unlock => exact becomes_settled rfl (execDebugUnlock_accepted hfree hok)
  case rejected => exact becomes_settled rfl (execDebugUnlock_rejected hfree hbad)
  case svn => exact becomes_settled rfl (execSvnAdvance_component hc)
  case clear => exact becomes_estuary rfl hup rfl
  case taken => exact becomes_estuary rfl hup (execKeyInstall_taken htaken)
  case install => exact becomes_estuary rfl hup ((execKeyInstall_blob hfree hblob).trans (if_neg (not_not_intro htag)))
  case wrongTag => exact becomes_estuary rfl hup ((execKeyInstall_blob hfree hblob).trans (if_pos htag))

end Sys2Proof.Machine
end

section
/-! SUPPORT. Boot and recovery (R458 to R461), case by case. -/

namespace Sys2Proof.Machine

section
variable {d : Dev} {t : Time}

theorem execBoot_due (hboot : (d.advance t).pwr.boot = true) (hstage : (d.advance t).get R.SEC_BOOT_stage = 1)
    (hheadland : (d.advance t).coreUp 0 = true) (hestuary : (d.advance t).coreUp 1 = true) :
    execBoot t d = bootStages (d.advance t) := if_pos ⟨hboot, hstage, hheadland, hestuary⟩

theorem bootStages_recovery (hsource : (takeBootSource d).is R.DEV_FUNC_MODE_boot_src = true) :
    bootStages d = waitRecovery false (takeBootSource d) := if_pos hsource

theorem bootStages_nor (hsource : (takeBootSource d).is R.DEV_FUNC_MODE_boot_src = false) :
    bootStages d = bootNor (takeBootSource d) := if_neg (Bool.eq_false_iff.mp hsource)

theorem bootNor_accepted (hok : d.accepts (objAt d.mem (norKey 0)) 0 0 = true) :
    bootNor d = bootImage (objAt d.mem (norKey 0)) false d := if_pos hok

theorem bootNor_rejected (hbad : d.accepts (objAt d.mem (norKey 0)) 0 0 = false) : bootNor d = waitRecovery true d :=
  if_neg (Bool.eq_false_iff.mp hbad)

/-- The object would pass the longest that a transfer or an object may have (R461). -/
def tooLong (n k : Nat) : Prop := k > 1048576 ∨ n + k > 0x10000 + 33554432

/-- The device waits for a recovery object and its mailbox answers (R460, R461). -/
def Dev.recovers (d : Dev) : Prop := d.get R.SEC_BOOT_stage = 14 ∧ d.host.held = false

/-- A recovery object is answered. -/
def answerRecovery (code : Nat) (d : Dev) : Dev := doeAnswer 1 (leBytes 4 code) d

theorem Dev.recovers.not_ignored (hwait : d.recovers) : ¬ (d.get R.SEC_BOOT_stage ≠ 14 ∨ d.host.held = true) :=
  not_or_intro (not_not_intro hwait.1) (Bool.eq_false_iff.mp hwait.2)

theorem execRecoveryObject_outOfOrder {off : Nat} {data : List Byte} (hwait : (d.advance t).recovers)
    (hoff : off ≠ (d.advance t).sec.recv.length) :
    execRecoveryObject off data t d = answerRecovery rcOutOfOrder (d.advance t) :=
  (if_neg hwait.not_ignored).trans (if_pos hoff)

theorem execRecoveryObject_tooLong {off : Nat} {data : List Byte} (hwait : (d.advance t).recovers)
    (hoff : off = (d.advance t).sec.recv.length) (hlong : tooLong (d.advance t).sec.recv.length data.length) :
    execRecoveryObject off data t d = answerRecovery rcTooLong (d.advance t) :=
  (if_neg hwait.not_ignored).trans ((if_neg (not_not_intro hoff)).trans (if_pos hlong))

theorem execRecoveryObject_next {off : Nat} {data : List Byte} (hwait : (d.advance t).recovers)
    (hoff : off = (d.advance t).sec.recv.length) (hfits : ¬ tooLong (d.advance t).sec.recv.length data.length)
    (hsome : data ≠ []) :
    execRecoveryObject off data t d = answerRecovery rcAccepted
      ((d.advance t).modSec (fun x => { x with recv := x.recv ++ data, recvOpen := true })) :=
  (if_neg hwait.not_ignored).trans ((if_neg (not_not_intro hoff)).trans ((if_neg hfits).trans (if_neg hsome)))

theorem execRecoveryObject_end {off : Nat} (hwait : (d.advance t).recovers)
    (hoff : off = (d.advance t).sec.recv.length) (hfits : ¬ tooLong (d.advance t).sec.recv.length 0) :
    execRecoveryObject off [] t d =
      if (d.advance t).accepts (objOf (d.advance t).sec.recv) 0 0 then
        bootImage (objOf (d.advance t).sec.recv) true (answerRecovery rcAccepted (d.advance t))
      else answerRecovery rcRejected
        ((d.advance t).modSec (fun x => { x with recv := [], recvOpen := false, recoverAt := t })) :=
  (if_neg hwait.not_ignored).trans ((if_neg (not_not_intro hoff)).trans ((if_neg hfits).trans (if_pos rfl)))

theorem execRecoveryWaitExpiry_over (hstage : (d.advance t).get R.SEC_BOOT_stage = 14)
    (hnone : (d.advance t).sec.recvOpen = false)
    (hover : tdiff t (d.advance t).sec.recoverAt ≥ ((d.advance t).get R.SEC_CTL_recovery_wait * secU : Nat)) :
    execRecoveryWaitExpiry t d = bootNor (d.advance t) :=
  if_pos ⟨hstage, Bool.eq_false_iff.mp hnone, hover⟩

end

/-- Settles O41, one case of `Boot.lean` at a time. -/
theorem bootCommandsComplete : Obligations.BootCommandsComplete := by
  intro s t
  refine ⟨fun straps => ?reset,
    fun hboot hstage hheadland hestuary => ⟨fun hsource => ?waits, fun hsource => ⟨fun hok => ?boots, fun hbad => ?bad⟩⟩,
    fun hstage hfree off data => ⟨fun hoff => ?outOfOrder, fun hoff hlong => ?tooLong,
      fun hoff hfits hsome => ?next, fun hoff hlength => ⟨fun hok => ?accepted, fun hbad => ?rejected⟩⟩,
    fun hstage hnone hover => ⟨fun hok => ?retried, fun hbad => ?retryFails⟩⟩
  case reset => exact becomes_settled rfl rfl
  case waits =>
    exact becomes_settled rfl ((execBoot_due hboot hstage hheadland hestuary).trans (bootStages_recovery hsource))
  case boots =>
    exact becomes_settled rfl ((execBoot_due hboot hstage hheadland hestuary).trans
      ((bootStages_nor hsource).trans (bootNor_accepted hok)))
  case bad =>
    exact becomes_settled rfl ((execBoot_due hboot hstage hheadland hestuary).trans
      ((bootStages_nor hsource).trans (bootNor_rejected hbad)))
  case outOfOrder => exact becomes_settled rfl (execRecoveryObject_outOfOrder ⟨hstage, hfree⟩ hoff)
  case tooLong => exact becomes_settled rfl (execRecoveryObject_tooLong ⟨hstage, hfree⟩ hoff hlong)
  case next => exact becomes_settled rfl (execRecoveryObject_next ⟨hstage, hfree⟩ hoff hfits hsome)
  case accepted =>
    have hfits : ¬ tooLong (s.dev.advance t).sec.recv.length 0 := by unfold tooLong; omega
    exact becomes_settled rfl ((execRecoveryObject_end ⟨hstage, hfree⟩ hoff hfits).trans (if_pos hok))
  case rejected =>
    have hfits : ¬ tooLong (s.dev.advance t).sec.recv.length 0 := by unfold tooLong; omega
    exact becomes_settled rfl
      ((execRecoveryObject_end ⟨hstage, hfree⟩ hoff hfits).trans (if_neg (Bool.eq_false_iff.mp hbad)))
  case retried =>
    exact becomes_settled rfl ((execRecoveryWaitExpiry_over hstage hnone hover).trans (bootNor_accepted hok))
  case retryFails =>
    exact becomes_settled rfl ((execRecoveryWaitExpiry_over hstage hnone hover).trans (bootNor_rejected hbad))

end Sys2Proof.Machine
end

section
/-! SUPPORT. The update commands (R464 to R467, Table 17.5), case by case. -/

namespace Sys2Proof.Machine

section
variable {d : Dev} {t : Time} {x : UpdSt}

theorem execUpdateStage_none (hnone : (d.advance t).sec.upd = none) :
    execUpdateStage t d =
      let bytes := (d.advance t).packageAt ((d.advance t).get R.SEC_UPDATE_ADDR_addr)
      (((d.advance t).modSec (fun x => { x with
        upd := some { bytes := bytes, component := (objOf bytes).num 7 1 } })).set
        R.SEC_UPDATE_STATUS_state 0 upChecking).set R.SEC_UPDATE_STATUS_done_mask 0 0 :=
  if_neg (by rw [hnone]; exact Bool.false_ne_true)

/-- The package's component as the check shows it, and the package PENDING with its instances (R464). -/
def showComponent (x : UpdSt) (d : Dev) : Dev := d.set R.SEC_UPDATE_STATUS_component 0 x.component
def packageInstances (x : UpdSt) : List Nat := instancesOf x.component ((objOf x.bytes).num 0xC 4)
def packagePending (x : UpdSt) (d : Dev) : Dev :=
  (d.modUpd (fun u => { u with left := packageInstances x })).set R.SEC_UPDATE_STATUS_state 0 upPending

/-- The check of a package holds (R457, R464). -/
def Dev.acceptsPackage (d : Dev) (x : UpdSt) : Prop := x.component ≤ 6 ∧ d.accepts (objOf x.bytes) 1 x.component = true

theorem execUpdateCheckDone_accepted (hupd : (d.advance t).sec.upd = some x)
    (hstate : (d.advance t).get R.SEC_UPDATE_STATUS_state = upChecking)
    (hgood : (showComponent x (d.advance t)).acceptsPackage x) :
    execUpdateCheckDone t d =
      let f := packagePending x (showComponent x (d.advance t))
      if packageInstances x = [] then finishUpdate x f else f := by
  simp only [execUpdateCheckDone, hupd]
  exact (if_neg (not_not_intro hstate)).trans (if_pos hgood)

theorem execUpdateCheckDone_rejected (hupd : (d.advance t).sec.upd = some x)
    (hstate : (d.advance t).get R.SEC_UPDATE_STATUS_state = upChecking)
    (hbad : ¬ (showComponent x (d.advance t)).acceptsPackage x) :
    execUpdateCheckDone t d =
      ((showComponent x (d.advance t)).modSec (fun y => { y with upd := none })).set
        R.SEC_UPDATE_STATUS_state 0 upRejected := by
  simp only [execUpdateCheckDone, hupd]
  exact (if_neg (not_not_intro hstate)).trans (if_neg hbad)

theorem execUpdateActivate_quiet {i : Nat} {rest : List Nat} (fails : Bool) (hupd : (d.advance t).sec.upd = some x)
    (hleft : x.left = i :: rest) (hstate : (d.advance t).get R.SEC_UPDATE_STATUS_state = upPending)
    (hbegun : x.since = none) (hquiet : (d.advance t).quietPoint x i = true) :
    execUpdateActivate fails t d = if fails then failUpdate (d.advance t) else activateInst x i (d.advance t) := by
  have hidle : ¬ x.since.isSome = true := by rw [hbegun]; exact Bool.false_ne_true
  simp only [execUpdateActivate, hupd, hleft]
  exact if_neg (not_or_intro (not_not_intro hstate) (not_or_intro hidle (not_not_intro hquiet)))

theorem activating_of {p : UpdSt → Bool} (hupd : d.sec.upd = some x) (hbegun : x.since.isSome = true)
    (hp : p x = true) : d.activating p = some x := by
  simp only [Dev.activating, hupd, hbegun, hp, Bool.and_self, if_true]

/-- Where the activation of a component is in progress, the command that ends it takes it. -/
theorem execKeeperReady_begun (hupd : (d.advance t).sec.upd = some x) (hbegun : x.since.isSome = true)
    (hkeeper : x.component = 1) : execKeeperReady t d = finishInst 0 (keeperReady (d.advance t)) := by
  simp only [execKeeperReady, activating_of hupd hbegun (p := fun x => decide (x.component = 1)) (decide_eq_true hkeeper)]

theorem execKeeperReadyTimeout_over (hupd : (d.advance t).sec.upd = some x) (hbegun : x.since.isSome = true)
    (hkeeper : x.component = 1) (hover : tdiff t (x.since.getD 0) ≥ (2 * secU : Nat)) :
    execKeeperReadyTimeout t d = failUpdate (d.advance t) := by
  simp only [execKeeperReadyTimeout,
    activating_of hupd hbegun (p := fun x => decide (x.component = 1)) (decide_eq_true hkeeper)]
  exact if_pos hover

theorem execStackRetrainDone_begun {k : Nat} (hupd : (d.advance t).sec.upd = some x) (hbegun : x.since.isSome = true)
    (hstack : x.component = 3) (hnext : x.left.head? = some k) :
    execStackRetrainDone k t d = finishInst k (d.advance t) := by
  simp only [execStackRetrainDone,
    activating_of hupd hbegun (p := fun x => decide (x.component = 3 ∧ x.left.head? = some k))
      (decide_eq_true ⟨hstack, hnext⟩)]

/-- The area of configuration memory that a component's payload goes to holds the payload and nothing else (R464). -/
def writeConfig (x : UpdSt) (d : Dev) : Dev :=
  { d with
    mem := mwrite
      (d.mem.filter (fun c =>
        !decide (norKey (norArea x.component) ≤ c.1 ∧ c.1 < norKey (norArea x.component) + 0x2000000)))
      (norKey (norArea x.component)) (objOf x.bytes).payload }

theorem execConfigWriteDone_begun (ok : Bool) (hupd : (d.advance t).sec.upd = some x) (hbegun : x.since.isSome = true)
    (hmemory : x.component = 0 ∨ x.component = 6) :
    execConfigWriteDone ok t d =
      if ¬ ok then failUpdate (d.advance t) else finishInst 0 (writeConfig x (d.advance t)) := by
  simp only [execConfigWriteDone,
    activating_of hupd hbegun (p := fun x => decide (x.component = 0 ∨ x.component = 6)) (decide_eq_true hmemory)]
  rfl

end

/-- Settles O42, one case of `Security.lean` at a time. -/
theorem updateCommandsComplete : Obligations.UpdateCommandsComplete := by
  intro s t
  refine ⟨fun hnone => ?stage, fun x hupd =>
    ⟨fun hstate => ⟨fun hgood hsome => ?pending, fun hgood hnone => ?empty, fun hbad => ?rejected⟩,
      fun i rest hleft hstate hbegun hquiet => ⟨?activates, ?fails⟩,
      fun hbegun hkeeper => ⟨?keeper, fun hover => ?keeperLate⟩,
      fun k hbegun hstack hnext => ?stack, fun hbegun => ⟨?notWritten, ?written⟩⟩⟩
  case stage => exact becomes_settled rfl (execUpdateStage_none hnone)
  case pending =>
    exact becomes_settled rfl ((execUpdateCheckDone_accepted hupd hstate hgood).trans (if_neg hsome))
  case empty =>
    exact becomes_settled rfl ((execUpdateCheckDone_accepted hupd hstate hgood).trans (if_pos hnone))
  case rejected => exact becomes_settled rfl (execUpdateCheckDone_rejected hupd hstate hbad)
  case activates =>
    exact becomes_settled rfl
      ((execUpdateActivate_quiet false hupd hleft hstate hbegun hquiet).trans (if_neg Bool.false_ne_true))
  case fails =>
    exact becomes_settled rfl ((execUpdateActivate_quiet true hupd hleft hstate hbegun hquiet).trans (if_pos rfl))
  case keeper => exact becomes_settled rfl (execKeeperReady_begun hupd hbegun hkeeper)
  case keeperLate => exact becomes_settled rfl (execKeeperReadyTimeout_over hupd hbegun hkeeper hover)
  case stack => exact becomes_settled rfl (execStackRetrainDone_begun hupd hbegun hstack hnext)
  case notWritten =>
    exact becomes_settled rfl
      ((execConfigWriteDone_begun false hupd hbegun.1 hbegun.2).trans (if_pos Bool.false_ne_true))
  case written =>
    exact becomes_settled rfl
      ((execConfigWriteDone_begun true hupd hbegun.1 hbegun.2).trans (if_neg (not_not_intro (Eq.refl true))))

end Sys2Proof.Machine
end

section
/-! SUPPORT. Router errors, event delivery and the life log (R497 to R515), case by case. -/

namespace Sys2Proof.Machine

section
variable {d : Dev} {t : Time} {r a : Nat}

theorem execRouterCrcFail_drift_last (ha : a = 3) :
    execRouterCrcFail r true a t d = (d.advance t).inc C.EVT_ROUTER_failures r := by
  simp only [execRouterCrcFail, if_true]
  exact if_pos (by omega)

theorem execRouterCrcFail_last (ha : a = 3) :
    execRouterCrcFail r false a t d = (d.advance t).raise E.ROUTER_UE (some r) := by
  simp only [execRouterCrcFail, Bool.false_eq_true, if_false]
  exact if_pos (by omega)

/-- A failed transfer is counted, and its event raised once a tide (R497). -/
def noteResend (r : Nat) (d : Dev) : Dev :=
  let e := d.inc C.EVT_ROUTER_resends r
  if (e.reg r).once.contains (E.ROUTER_CRC.code, 0) then e
  else (e.modReg r (fun u => { u with once := u.once ++ [(E.ROUTER_CRC.code, 0)] })).raise E.ROUTER_CRC (some r)

/-- A resend delays the region by a tick: a running slip grows, or a running region slips (R497). -/
def delayRegion (r : Nat) (d : Dev) : Dev :=
  match (d.reg r).slip with
  | some y => d.modReg r (fun u => { u with slip := some { y with left := y.left + 1 } })
  | none =>
    if (d.reg r).phase = .run then
      enterSlip r d.now (d.modReg r (fun u => { u with
        slip := some { left := 1, recorded := false, pc := d.get R.SEQ_STATUS_pc r, tick := (d.reg r).tideTick,
                       cells := [] } }))
    else d

theorem execRouterCrcFail_resend (ha : a < 3) :
    execRouterCrcFail r false a t d = delayRegion r (noteResend r (d.advance t)) := by
  simp only [execRouterCrcFail, Bool.false_eq_true, if_false]
  exact if_neg (by omega)

theorem delayRegion_slips {y : Slip} (hslip : (d.reg r).slip = some y) :
    delayRegion r d = d.modReg r (fun u => { u with slip := some { y with left := y.left + 1 } }) := by
  simp only [delayRegion, hslip]

theorem delayRegion_runs (hslip : (d.reg r).slip = none) (hrun : (d.reg r).phase = .run) :
    delayRegion r d = enterSlip r d.now (d.modReg r (fun u => { u with
      slip := some { left := 1, recorded := false, pc := d.get R.SEQ_STATUS_pc r, tick := (d.reg r).tideTick,
                     cells := [] } })) := by
  simp only [delayRegion, hslip]
  exact if_pos hrun

theorem delayRegion_rests (hslip : (d.reg r).slip = none) (hrest : (d.reg r).phase ≠ .run) : delayRegion r d = d := by
  simp only [delayRegion, hslip]
  exact if_neg hrest

theorem execCoalesceExpiry_held {v : Nat} (hheld : (tget {} (d.advance t).evt.vecs v).held = true)
    (hpassed : ∀ t0, (tget {} (d.advance t).evt.vecs v).lastSent = some t0 →
      tdiff t t0 ≥ ((d.advance t).get R.EVT_CTL_coalesce * usU : Nat)) :
    execCoalesceExpiry v t d = ({ d.advance t with evt := { (d.advance t).evt with
      vecs := tput {} (d.advance t).evt.vecs v { lastSent := some t, held := false } } }).sendVector v := by
  refine if_pos ⟨hheld, ?_⟩
  cases hsent : (tget {} (d.advance t).evt.vecs v).lastSent with
  | none => rfl
  | some t0 => exact decide_eq_true (hpassed t0 hsent)

theorem execLifeSummary_due (hdue : lapsed (d.advance t).life.hourAt (3600 * secU) t = true) :
    execLifeSummary t d =
      let e := ((d.advance t).modLife (fun x => { x with hourAt := some t })).inc C.LIFE_TOTALS_power_on_hours
      (e.lifeAdd ⟨0x01, e.summaryBody⟩).lifeFlush :=
  if_neg (not_not_intro hdue)

/-! ### The minute's histogram (R513) -/

/-- A region's temperature enters its row of the histogram. -/
def binTemp (temps : List (BitVec 16)) (d : Dev) (r : Nat) : Dev :=
  let k := 16 * r + tempBin (temps.getD r 0).toInt
  let n := stickCount 32 (tget 0 d.life.histogram k) 1
  let e := (d.set R.CLK_REGION_STATUS_temp r (temps.getD r 0).toNat).modLife (fun l =>
    { l with histogram := tput 0 l.histogram k n.1 })
  if n.2 then e.raise E.COUNTER_SATURATED else e

/-- The regions that report a temperature. -/
def Dev.reporting (d : Dev) (temps : List (BitVec 16)) : List Nat :=
  (List.range 16).filter (fun r => d.coreUp (dieOf r) && (temps[r]?).isSome)

theorem reporting_all {temps : List (BitVec 16)} (hlen : temps.length = 16) (hheadland : d.coreUp 0 = true)
    (hestuary : d.coreUp 1 = true) : d.reporting temps = List.range 16 := by
  refine List.filter_eq_self.mpr fun r hr => (Bool.and_eq_true _ _).mpr ⟨?_, ?_⟩
  · unfold dieOf
    split
    · exact hheadland
    · exact hestuary
  · rw [List.getElem?_eq_getElem (by rw [hlen]; exact List.mem_range.mp hr)]
    rfl

/-- The higher of two temperatures. -/
def hotter (a b : Int) : Int := if b > a then b else a

theorem foldl_hotter_mem (x : Int) (xs : List Int) : xs.foldl hotter x ∈ x :: xs := by
  induction xs generalizing x with
  | nil => exact List.mem_singleton_self x
  | cons y ys ih =>
    have hmem := ih (hotter x y)
    have hone : hotter x y = x ∨ hotter x y = y := by unfold hotter; split <;> simp
    simp only [List.foldl_cons, List.mem_cons] at hmem ⊢
    obtain h | h := hmem
    · rw [h]
      exact hone.imp_right Or.inl
    · exact Or.inr (Or.inr h)

theorem le_foldl_hotter {x z : Int} {xs : List Int} (hz : z ∈ x :: xs) : z ≤ xs.foldl hotter x := by
  induction xs generalizing x z with
  | nil => exact Int.le_of_eq (List.mem_singleton.mp hz)
  | cons y ys ih =>
    have hleft : x ≤ hotter x y := by unfold hotter; split <;> omega
    have hright : y ≤ hotter x y := by unfold hotter; split <;> omega
    have hstart : hotter x y ≤ ys.foldl hotter (hotter x y) := ih (List.mem_cons_self ..)
    simp only [List.mem_cons] at hz
    obtain rfl | rfl | hz := hz
    · exact Int.le_trans hleft hstart
    · exact Int.le_trans hright hstart
    · exact ih (List.mem_cons_of_mem _ hz)

/-- The thermal cycle of the hottest temperature that a list of regions reports. -/
def noteHottest (temps : List (BitVec 16)) (rs : List Nat) (d : Dev) : Dev :=
  match rs.map (fun r => (temps.getD r 0).toInt) with
  | [] => d
  | x :: xs => noteCycle (xs.foldl hotter x) d

theorem execLifeMinute_due {temps : List (BitVec 16)}
    (hdue : lapsed (d.advance t).life.minuteAt (60 * secU) t = true) :
    execLifeMinute temps t d =
      let e := (d.advance t).modLife (fun x => { x with minuteAt := some t })
      noteHottest temps (e.reporting temps) ((e.reporting temps).foldl (binTemp temps) e) :=
  if_neg (not_not_intro hdue)

/-- The hottest of the reported temperatures is one of them, and none is above it. -/
theorem noteHottest_range {temps : List (BitVec 16)} (n : Nat) :
    ∃ hot : Int, (∃ r, r < n + 1 ∧ hot = (temps.getD r 0).toInt) ∧
      (∀ r, r < n + 1 → (temps.getD r 0).toInt ≤ hot) ∧
      noteHottest temps (List.range (n + 1)) d = noteCycle hot d := by
  cases hlist : (List.range (n + 1)).map (fun r => (temps.getD r 0).toInt) with
  | nil => exact absurd (congrArg List.length hlist) (by simp)
  | cons x xs =>
    refine ⟨xs.foldl hotter x, ?_, fun r hr => ?_, ?_⟩
    · have hmem := foldl_hotter_mem x xs
      rw [← hlist, List.mem_map] at hmem
      obtain ⟨r, hr, hhot⟩ := hmem
      exact ⟨r, List.mem_range.mp hr, hhot.symm⟩
    · refine le_foldl_hotter ?_
      rw [← hlist]
      exact List.mem_map_of_mem (List.mem_range.mpr hr)
    · simp only [noteHottest, hlist]

/-! ### Writes of the life log (R511) -/

/-- An entry of the log is to be written: its sector has room for it (R511). -/
def Dev.fitted (d : Dev) (x : LifeEntry) : Dev := d.modLife (fitSector (entryLength x.kind))

variable {x : LifeEntry} {rest : List LifeEntry}

theorem execLifeWriteDone_erased (hwriting : (d.advance t).life.writing = x :: rest)
    (herased : ((d.advance t).fitted x).life.erased = false) :
    execLifeWriteDone true t d = ((d.advance t).fitted x).modLife (fun y =>
      { y with erased := true, log := y.log.filter (fun z => !decide (z.1 = y.sector)) }) := by
  simp only [execLifeWriteDone, hwriting]
  exact (if_pos trivial).trans (if_pos (Bool.eq_false_iff.mp herased))

/-- An entry is in the log, under a sequence number (R511, R512). -/
def entryWritten (x : LifeEntry) (rest : List LifeEntry) (seq : Nat) (d : Dev) : Dev :=
  showBusy ((d.modLife (fun y => { y with
    log := y.log ++ [(y.sector, y.pos, d.entryBytes x seq)],
    pos := y.pos + (d.entryBytes x seq).length,
    retried := false,
    writing := rest })).set R.LIFE_STATUS_seq 0 seq)

theorem execLifeWriteDone_written (hwriting : (d.advance t).life.writing = x :: rest)
    (herased : ((d.advance t).fitted x).life.erased = true) :
    execLifeWriteDone true t d = entryWritten x rest
      ((((d.advance t).fitted x).get R.LIFE_STATUS_seq + 1) % 2 ^ 32) ((d.advance t).fitted x) := by
  simp only [execLifeWriteDone, hwriting]
  exact (if_pos trivial).trans (if_neg (not_not_intro herased))

theorem execLifeWriteDone_moves (hwriting : (d.advance t).life.writing = x :: rest)
    (hfirst : ((d.advance t).fitted x).life.retried = false) :
    execLifeWriteDone false t d = ((d.advance t).fitted x).modLife (fun y => { nextSector y with retried := true }) := by
  simp only [execLifeWriteDone, hwriting]
  exact (if_neg Bool.false_ne_true).trans (if_neg (Bool.eq_false_iff.mp hfirst))

theorem execLifeWriteDone_lost (hwriting : (d.advance t).life.writing = x :: rest)
    (hsecond : ((d.advance t).fitted x).life.retried = true) :
    execLifeWriteDone false t d =
      (showBusy ((((d.advance t).fitted x).modLife (fun y => { y with writing := rest, retried := false })).setWc
        R.LIFE_STATUS_write_failed 0 1)).raise E.LIFE_WRITE_FAIL := by
  simp only [execLifeWriteDone, hwriting]
  exact (if_neg Bool.false_ne_true).trans (if_pos hsecond)

end

/-- Settles O45, one case of `Life.lean` at a time. -/
theorem eventAndLifeCommandsComplete : Obligations.EventAndLifeCommandsComplete := by
  intro s t
  refine ⟨fun r a hup hlive => ⟨fun ha => ⟨?routerUe, ?routerDrift⟩,
      fun ha => ⟨fun y hslip => ?slips, fun hslip hrun => ?runs, fun hslip hrest => ?rests⟩⟩,
    becomes_settled rfl rfl,
    fun hup => ⟨fun v hheld hpassed => ?coalesce, fun v haligned => ?ringBase, fun v => becomes_estuary rfl hup rfl⟩,
    fun hdue => ?summary, fun temps hlen hheadland hestuary hdue => ?minute,
    fun v => ⟨fun hflush => ?flush, fun hflush => ?enable⟩,
    fun x rest hwriting => ⟨fun herased => ?erased, fun herased => ?written, fun hfirst => ?moves,
      fun hsecond => ?lost⟩⟩
  case routerUe => exact becomes_active rfl hup hlive (execRouterCrcFail_last ha)
  case routerDrift => exact becomes_active rfl hup hlive (execRouterCrcFail_drift_last ha)
  case slips => exact becomes_active rfl hup hlive ((execRouterCrcFail_resend ha).trans (delayRegion_slips hslip))
  case runs => exact becomes_active rfl hup hlive ((execRouterCrcFail_resend ha).trans (delayRegion_runs hslip hrun))
  case rests => exact becomes_active rfl hup hlive ((execRouterCrcFail_resend ha).trans (delayRegion_rests hslip hrest))
  case coalesce => exact becomes_estuary rfl hup (execCoalesceExpiry_held hheld hpassed)
  case ringBase => exact becomes_estuary rfl hup (if_pos haligned)
  case summary => exact becomes_settled rfl (execLifeSummary_due hdue)
  case minute =>
    let e := (s.dev.advance t).modLife (fun x => { x with minuteAt := some t })
    obtain ⟨hot, hof, habove, hnote⟩ :=
      noteHottest_range (temps := temps) (d := (List.range 16).foldl (binTemp temps) e) 15
    have hall : e.reporting temps = List.range 16 := reporting_all hlen hheadland hestuary
    refine ⟨hot, hof, habove, becomes_settled rfl ((execLifeMinute_due hdue).trans (Eq.trans ?_ hnote))⟩
    exact congrArg (fun rs => noteHottest temps rs (rs.foldl (binTemp temps) e)) hall
  case flush => exact becomes_settled rfl (if_pos hflush)
  case enable => exact becomes_settled rfl (if_neg (Bool.eq_false_iff.mp hflush))
  case erased => exact becomes_settled rfl (execLifeWriteDone_erased hwriting herased)
  case written => exact becomes_settled rfl (execLifeWriteDone_written hwriting herased)
  case moves => exact becomes_settled rfl (execLifeWriteDone_moves hwriting hfirst)
  case lost => exact becomes_settled rfl (execLifeWriteDone_lost hwriting hsecond)

end Sys2Proof.Machine
end

section
/-! SUPPORT. The slots that move data: LD, ST, RDACC and SAMPLE (R121, R128 to R131), the crossbar ports (R79), WLOAD and
DRAIN (R119, R551). -/

namespace Sys2Proof.Machine

theorem plainSlot_xbar (p : Fin 2) (s : XbarSlot) : PlainSlot (.xbar p s) :=
  ⟨fun _ => rfl, fun _ => rfl, fun _ _ _ => rfl⟩

section
variable (x : Ctx) (g : Gov) (t : Trial)

theorem slotsTick_gather (p : Fin 2) (gen : BitVec 2) (unit : BitVec 4) (mask : BitVec 8) :
    slotsTick x (slotAlone g (.xbar p ⟨false, gen, unit, mask⟩)) t =
      readTiles x (gatherSlot x p.val ⟨false, gen, unit, mask⟩ t) := rfl

theorem slotsTick_scatter (p : Fin 2) (gen : BitVec 2) (unit : BitVec 4) (mask : BitVec 8) :
    slotsTick x (slotAlone g (.xbar p ⟨true, gen, unit, mask⟩)) t =
      scatterSlot x p.val ⟨true, gen, unit, mask⟩ (readTiles x t) := rfl

theorem slotsTick_wload (a : Fin 8) (sparse : Bool) (h : BitVec 16) :
    slotsTick x (slotAlone g (.arr a (.wload sparse h))) t = readTiles x (wloadSlot x a.val sparse h t) := rfl

theorem slotsTick_drain (a : Fin 8) (acc gen : BitVec 2) (h : BitVec 16) :
    slotsTick x (slotAlone g (.arr a (.drain acc gen h))) t = drainSlot x a.val acc gen h (readTiles x t) := rfl

/-- RDACC alone has no DRAIN to clash with, and its format is the one it takes (R121). -/
theorem slotsTick_rdacc (vd m : BitVec 5) :
    slotsTick x (slotAlone g (.vec 1 ⟨.rdacc, false, vd, 0, 0, 0, m, 0⟩)) t =
      rdaccSlot x 1 ⟨.rdacc, false, vd, 0, 0, 0, m, 0⟩ (readTiles x t) := rfl

end

/-! ### The vector slots' formats -/

theorem vecSlot_ld (x : Ctx) (bf16 : Bool) (vd : BitVec 5) (h : BitVec 16) (t : Trial) :
    vecSlot x 1 ⟨.ld, bf16, vd, 0, 0, 0, 0, h⟩ t = x.cells.foldl (ldCell x 1 ⟨.ld, bf16, vd, 0, 0, 0, 0, h⟩) t := rfl

theorem vecSlot_st (x : Ctx) (bf16 : Bool) (va m : BitVec 5) (h : BitVec 16) (t : Trial) :
    vecSlot x 1 ⟨.st, bf16, 0, va, 0, 0, m, h⟩ t = stSlot x ⟨.st, bf16, 0, va, 0, 0, m, h⟩ t := rfl

theorem vecSlot_sample (x : Ctx) (vd va vb vc : BitVec 5) (h : BitVec 16) (t : Trial) :
    vecSlot x 0 ⟨.sample, false, vd, va, vb, vc, 0, h⟩ t = sampleSlot x 0 ⟨.sample, false, vd, va, vb, vc, 0, h⟩ t := rfl

/-- Settles O4: each slot's own trial, before or after the tick's tile reads as Table 5.2 orders them. -/
theorem dataSlotsComplete : Obligations.DataSlotsComplete := by
  intro s r g bf16 p a vd va vb vc m h gen acc unit mask sparse
  refine ⟨?ld, ?st, ?rdacc, ?sample, ?gather, ?scatter, ?wload, ?drain⟩
  case ld =>
    exact slotTries_of_tick rfl (plainSlot_vec ..) fun t => (slotsTick_vec _ g t 1 rfl).trans (vecSlot_ld ..)
  case st =>
    exact slotTries_of_tick rfl (plainSlot_vec ..) fun t => (slotsTick_vec _ g t 1 rfl).trans (vecSlot_st ..)
  case rdacc => exact slotTries_of_tick rfl (plainSlot_vec ..) fun t => slotsTick_rdacc ..
  case sample =>
    exact slotTries_of_tick rfl (plainSlot_vec ..) fun t => (slotsTick_vec _ g t 0 rfl).trans (vecSlot_sample ..)
  case gather => exact slotTries_of_tick rfl (plainSlot_xbar ..) fun t => slotsTick_gather ..
  case scatter => exact slotTries_of_tick rfl (plainSlot_xbar ..) fun t => slotsTick_scatter ..
  case wload => exact slotTries_of_tick rfl (plainSlot_arr ..) fun t => slotsTick_wload ..
  case drain => exact slotTries_of_tick rfl (plainSlot_arr ..) fun t => slotsTick_drain ..

end Sys2Proof.Machine
end
